-- ==== Sys2Proof/Word.lean ====
section
/-!
DEFINITION. The words of the block and their plainest arithmetic: widths the spec fixes (R13, R470) and
saturation of the counts that the register tables call saturating.
-/
namespace Sys2Proof

/-- One byte. -/
abbrev Byte := BitVec 8
/-- A control-window register (R470). -/
abbrev Word32 := BitVec 32
/-- A Grihar register, a GTC value. -/
abbrev Word64 := BitVec 64
/-- A device physical address, 46 bits (Table 00-2). -/
abbrev Dpa := BitVec 46
/-- The 64 B of one line, byte k in bits 8k+7:8k. -/
abbrev Line := BitVec 512
/-- A line as DRAM stores it: 80 symbols, symbol s in bits 8s+7:8s (R190). -/
abbrev CodeWord := BitVec 640

end Sys2Proof
end

