-- ==== Sys2Proof/Syntax.lean ====
section
/-!
DEFINITION. The commands of the block: one constructor for each row of the table of operations and events, with the operands
its text gives it. An operand that stands for what the world outside brings (data that arrives, a reading, whether a
physical fault is met) is part of the command.
-/
namespace Sys2Proof

/-- The three register paths that have copies of their own (R474): a CXL BAR, the sideband bridge, ROM Grihar programs. -/
inductive Path where
  | bar | sideband | rom
deriving DecidableEq, Repr, Inhabited

/-- The CXL MetaValue of a host request (R298). -/
inductive MetaValue where
  | invalid | any | shared
deriving DecidableEq, Repr, Inhabited

/-- A word of a home slice's SRAM found uncorrectable while a request is served: none, the Kindling line it looks up (R69),
or the directory entry (R77). -/
inductive Upset where
  | none | kindling | directory
deriving DecidableEq, Repr, Inhabited

/-- A parity error met in a cryptographic pipeline: none, one that the retry on another pipeline clears, one that it does
not (R149). -/
inductive PipeFault where
  | none | transient | lasting
deriving DecidableEq, Repr, Inhabited

/-- What the read of a stored line meets: the symbols disturbed, and a parity error in the pipeline that decrypts it (R149, R204). -/
structure ReadMet where
  err : CodeWord
  fault : PipeFault
deriving DecidableEq, Repr, Inhabited

/-- A decoder's interleave: its ways and its granularity in bytes (R304). -/
structure Interleave where
  ways : Nat
  gran : Nat
deriving DecidableEq, Repr, Inhabited

/-- A rank's refresh-rate report (MR4): 1x or less, 2x, above 2x or out of range (Table 08-3). -/
inductive RefreshReport where
  | normal | double | beyond
deriving DecidableEq, Repr, Inhabited

/-- What the SPD of one module says (R160, R161). `twoSub` and `devices` are rule 1; `rates` are the rates in units of
100 MT/s the module supports. -/
structure DimmModule where
  mrdimm : Bool
  rdimm : Bool
  twoSub : Bool
  x8 : Bool
  devices : Nat
  density : Nat
  ranks : Nat
  gib : Nat
  rates : List Nat
  crcOk : Bool
  drfm : Bool
deriving DecidableEq, Repr, Inhabited

/-- What the controller reads over a channel's DIMM sideband bus: the modules of slots 0 and 1, and the identity that a
training record keeps (R182). -/
structure Spd where
  slot0 : Option DimmModule
  slot1 : Option DimmModule
  identity : Nat
deriving DecidableEq, Repr, Inhabited

/-- A transmitter's detection result (Table 11-6). -/
inductive TxResult where
  | pass | openP | openN | ground | supply | pn | absent
deriving DecidableEq, Repr, Inhabited

/-- A receiver's detection result (Table 11-6). -/
inductive RxResult where
  | pass | ground | supply | pn
deriving DecidableEq, Repr, Inhabited

/-- What resets a logical port (R314). -/
inductive PortResetCause where
  | hot | disable | conventional | linkDown
deriving DecidableEq, Repr, Inhabited

/-- The SRAM or queue word that a fault lies in (R378, R379): a way of a set of a Kindling slice, a directory entry of a slice,
a map-cache set of a slice, a queue of a slice, or chip-level state, with whether its reload from the image succeeds. -/
inductive SramUnit where
  | kindling (slice : Fin 16) (set : Fin 12288) (way : Fin 16)
  | directory (slice : Fin 16) (dpa : Dpa)
  | mapCache (slice : Fin 16) (set : Fin 4096)
  | queue (slice : Fin 16)
  | chip (reload : Bool)
deriving DecidableEq, Repr, Inhabited

/-- A feed of the board (R405). -/
inductive Feed where
  | a | b
deriving DecidableEq, Repr, Inhabited

/-- What the feed die's converters read (Table 19-12): the feeds' voltages in 0.05 V and currents in 0.1 A, F_BULK in 0.05 V, and
its temperature plus 40 degrees. -/
structure FeedReadings where
  va : BitVec 11
  ia : BitVec 10
  vb : BitVec 11
  ib : BitVec 10
  bulk : BitVec 11
  temp : BitVec 8
deriving DecidableEq, Repr, Inhabited

/-- The instructions of the test access port (R463): those of IEEE 1149, and a private one. -/
inductive TapInstr where
  | bypass | idcode | sample | extest | extestPulse | extestTrain | clamp | highz | krovvan
deriving DecidableEq, Repr, Inhabited

/-- Who sends a sideband command (R457, R458): the I3C target or the SMBus one, and whether its Packet Error Code was valid. -/
structure SbFrom where
  i3c : Bool
  pec : Bool
deriving DecidableEq, Repr, Inhabited

/-- A sideband access that the chip control ring has not answered (R459, R460). -/
inductive SbAccess where
  | record (index : BitVec 32)
  | read
  | write
deriving DecidableEq, Repr, Inhabited

/-- An SPDM request (R465, Table 22-3): the discovery and negotiation messages, certificates, a challenge, a measurement block
(0 for all), the two messages that make a session, its heartbeat and its end. -/
inductive SpdmReq where
  | version | capabilities | algorithms | digests
  | certificate (slot : Fin 8)
  | challenge (slot : Fin 8)
  | measurements (index : Fin 5)
  | keyExchange
  | finish (good : Bool)
  | heartbeat
  | endSession
deriving DecidableEq, Repr, Inhabited

/-- The width of a register access, in bytes (R471). -/
inductive AccSize where
  | b1 | b2 | b4 | b8
deriving DecidableEq, Repr, Inhabited

/-- What a register write is aimed at: an offset of the control window, or the tolerance register of a head's port DVSEC
(Table 13-3). -/
inductive RegTarget where
  | window (off : BitVec 28)
  | tolerance (port : Fin 32)
deriving DecidableEq, Repr, Inhabited

/-- The commands and events of the block: one constructor for each row of the table of operations. -/
inductive Instr where
  /-- HOST_READ (R85). A CXL MemRd from a host is decoded, admitted and served by the line's home, from the Kindling cache, DRAM or a peer.
  `extended` says that it names a CXL.cache or extended-metadata field, which is ignored (R299). -/
  | hostRead (port : Fin 32) (tag : BitVec 16) (hpa : BitVec 64) (mv : MetaValue) (extended : Bool) (offered : Bool) (upset : Upset)
  /-- HOST_WRITE (R30). A CXL full-line MemWr is decoded, admitted, serialised at the home and completed once its data is held in a Kindling slice or write queue. -/
  | hostWrite (port : Fin 32) (tag : BitVec 16) (hpa : BitVec 64) (mv : MetaValue) (offered : Bool) (poison : Bool) (data : Line) (upset : Upset)
  /-- HOST_NARROW_WRITE (R31). A CXL MemWrPtl is serialised and completed once its data holds a channel merge-buffer entry, or it is merged into a Kindling hit. -/
  | hostNarrowWrite (port : Fin 32) (tag : BitVec 16) (hpa : BitVec 64) (mv : MetaValue) (offered : Bool) (be : BitVec 64) (poison : Bool) (data : Line) (upset : Upset)
  /-- MEMSPECRD (R299). A MemSpecRd from a host is accepted and dropped. -/
  | memspecrd (port : Fin 32) (hpa : BitVec 64) (offered : Bool)
  /-- BACKING_GRANT (R120). Outside Held, the waiting allocating request at the head of the order is granted its draw when it leaves Free above E / 8. -/
  | backingGrant
  /-- ADMISSION_GRANT (R219). In a mesh clock, an admission point grants one head request in tier P, G, S or X and charges its master and class. -/
  | admissionGrant (point : Fin 16)
  /-- WINDOW_START (R217). At a window boundary the regulator reloads guaranteed units, class counts and pools and applies pending commits and effmin scaling. -/
  | windowStart
  /-- POOL_REBALANCE (R220). Every 1 µs the chip regulator moves unused pool from regions with no waiting weighted master to regions that have one. -/
  | poolRebalance
  /-- EGRESS_SEND (R236). The egress shaper sends a response of a class whose bucket is not negative and subtracts its counted length. -/
  | egressSend (slot : Fin 32)
  /-- SAMPLE (R237). At each sample interval a slot records queue depth and longest wait per class and raises the SAMPLE event. -/
  | sample (slot : Fin 32)
  /-- REGISTER_WRITE (R494). A write to a register that has no row of its own takes effect under the field access codes, or is discarded whole for a reserved value. -/
  | registerWrite (p : Path) (target : RegTarget) (size : AccSize) (val : BitVec 64)
  /-- DOMAIN_TABLE_WRITE (R40). A write to the domain table window is discarded and recorded as BAD_VALUE. -/
  | domainTableWrite (p : Path) (off : BitVec 20) (val : BitVec 32)
  /-- DOMAIN_COMMIT (R53). CHIP_DOMCOMMIT with OP 00 checks the staged entry and commits it at the commit point, incrementing GEN and updating the range index. -/
  | domainCommit (p : Path) (dom : BitVec 14)
  /-- DOMAIN_COPY_TO_STAGING (R52). CHIP_DOMCOMMIT with OP 01 copies the committed entry of a domain into the path's staging registers. -/
  | domainCopyToStaging (p : Path) (dom : BitVec 14)
  /-- DOMAIN_COMMIT_COMPLETE (R53). Once invalidation has reached all decode caches and removed-permission recalls have completed, the commit clears BUSY and writes STATUS. -/
  | domainCommitComplete (dom : BitVec 14)
  /-- ADD_CAPACITY_EVENT_SEND (R443). A held Add Capacity event is sent once its head's mailbox is enabled. -/
  | addCapacityEventSend (port : Fin 32) (dom : BitVec 14)
  /-- RELEASE_CANDIDATE (R122). Every RELINT × 100 ms in Reserve or Held, the tier manager takes a release candidate and sends Release Capacity to its heads. -/
  | releaseCandidate
  /-- TMREL_WRITE (R123). Any write to CHIP_TMRELk updates the entry and sets RSTATE to idle. -/
  | tmrelWrite (p : Path) (k : Fin 16) (val : BitVec 32)
  /-- TMCTL_EPOCH_WRITE (R109). A write that changes CHIP_TMCTL.EPOCH restarts the heat epoch count and starts a resync pass in every map owner. -/
  | tmctlEpochWrite (p : Path) (val : BitVec 32)
  /-- HEAT_EPOCH_TICK (R107). The heat epoch count advances at the end of each epoch of 2^EPOCH ms. -/
  | heatEpochTick
  /-- HEAT_SWEEP (R108). A map owner sweeps an entry, applying the heat decay without increment, so every entry is visited every 128 epochs. -/
  | heatSweep (owner : Fin 16)
  /-- RESYNC_PASS (R109). A map owner's resync pass visits an entry and writes EPOCH := 0 after an epoch-length change. -/
  | resyncPass (owner : Fin 16)
  /-- TIER_COMPACTION (R114). In Reserve or Held the tier manager starts compacting the least occupied extents below 50 %. -/
  | tierCompaction
  /-- MIGRATION_COPY_COMPLETE (R111). When the destination of a migration is written, the owner asks each granule's home for its hold and recopies any redone granule. -/
  | migrationCopyComplete (mig : Nat)
  /-- MIGRATION_FLIP (R111). With all holds granted and redo copies written, the owner commits the entry with the destination, converts Kindling lines, releases holds and frees the source. -/
  | migrationFlip (mig : Nat)
  /-- BLOCK_FILL (R61). A Charcoal block that has been read, tag-checked and decompressed is installed in one way of its set group and its hold is released. -/
  | blockFill (fill : Nat)
  /-- CLEAN (R68). KSn_OPCTL with OP 00 starts a clean pass over the slice. -/
  | clean (p : Path) (slice : Fin 16) (scope : Bool) (dom : BitVec 14)
  /-- CLEAN_AND_INVALIDATE (R68). KSn_OPCTL with OP 01 starts a clean-and-invalidate pass over the slice. -/
  | cleanAndInvalidate (p : Path) (slice : Fin 16) (scope : Bool) (dom : BitVec 14)
  /-- KINDLING_SET_VISIT (R68). A clean operation visits the next set, writing back dirty lines in scope, and ends after set 12,287. -/
  | kindlingSetVisit (slice : Fin 16)
  /-- WAY_DISABLE (R67). Setting a KSn_WAYDIS bit cleans and invalidates the way before it leaves service; clearing it returns the way empty. -/
  | wayDisable (p : Path) (slice : Fin 16) (ways : BitVec 16)
  /-- RDS (R85). The home serves an RdS from a peer under Table 04-9. -/
  | rds (src : Fin 16) (txn : BitVec 12) (addr : BitVec 44) (upset : Upset)
  /-- RDOWN (R85). The home serves an RdOwn, invalidating other copies and granting E. -/
  | rdown (src : Fin 16) (txn : BitVec 12) (addr : BitVec 44) (upset : Upset)
  /-- RDCUR (R85). The home serves an RdCur with data granted I. -/
  | rdcur (src : Fin 16) (txn : BitVec 12) (addr : BitVec 44) (upset : Upset)
  /-- WRCUR (R85). The home serves a full-line write from a peer, invalidating copies and answering Cmp. -/
  | wrcur (src : Fin 16) (txn : BitVec 12) (addr : BitVec 44) (data : Line) (upset : Upset)
  /-- WRPTL (R85). The home serves a narrow write from a peer and answers Cmp. -/
  | wrptl (src : Fin 16) (txn : BitVec 12) (addr : BitVec 44) (be : BitVec 64) (data : Line) (upset : Upset)
  /-- SNPINV (R84). A holder answers an SnpInv from its line state, after recalling its hosts. -/
  | snpinv (src : Fin 16) (txn : BitVec 12) (addr : BitVec 44) (ord : Bool)
  /-- SNPS (R84). A holder answers an SnpS and lowers its line to S. -/
  | snps (src : Fin 16) (txn : BitVec 12) (addr : BitVec 44) (ord : Bool)
  /-- SNPFWDS (R84). A holder forwards the line with F to the requester and lowers to S, or holds the snoop under R88. -/
  | snpfwds (src : Fin 16) (txn : BitVec 12) (addr : BitVec 44) (ord : Bool) (reqDev : Fin 16) (reqTxn : BitVec 12)
  /-- SNPFWDCUR (R84). A holder forwards the line with I to the requester and keeps its state. -/
  | snpfwdcur (src : Fin 16) (txn : BitVec 12) (addr : BitVec 44) (ord : Bool) (reqDev : Fin 16) (reqTxn : BitVec 12)
  /-- RSPI (R86). The home counts an RspI toward its transaction, waiting for a WbData when WBP is set. -/
  | rspi (src : Fin 16) (txn : BitVec 12) (wbp : Bool)
  /-- RSPS (R89). The home counts an RspS; a forwarding snoop answered so is served from memory. -/
  | rsps (src : Fin 16) (txn : BitVec 12)
  /-- RSPFWDS (R85). The home records SF for the requester after a forward with F. -/
  | rspfwds (src : Fin 16) (txn : BitVec 12)
  /-- RSPFWDCUR (R85). The home completes an RdCur transaction after a forward with I. -/
  | rspfwdcur (src : Fin 16) (txn : BitVec 12)
  /-- RSPIDATA (R85). The home merges data from a former M holder now in I. -/
  | rspidata (src : Fin 16) (txn : BitVec 12) (addr : BitVec 44) (poison : Bool) (data : Line)
  /-- RSPSDATA (R85). The home merges data from a former M holder now in S. -/
  | rspsdata (src : Fin 16) (txn : BitVec 12) (addr : BitVec 44) (poison : Bool) (data : Line)
  /-- RSPFWDSDATA (R85). The home merges data from a former M holder that forwarded with F. -/
  | rspfwdsdata (src : Fin 16) (txn : BitVec 12) (addr : BitVec 44) (poison : Bool) (data : Line)
  /-- CMP (R83). A requester or writer receives Cmp and completes its write, writeback, evict notice or mirror write. -/
  | cmp (src : Fin 16) (txn : BitVec 12)
  /-- ERR (R83). A requester receives Err, returns poison to a host read or completes a discarded write, and records it. -/
  | err (src : Fin 16) (txn : BitVec 12) (err : BitVec 8)
  /-- DATA (R83). A requester installs line data from the home in the granted state and serves its host, answering any held snoop. -/
  | data (src : Fin 16) (txn : BitVec 12) (grant : BitVec 3) (poison : Bool) (data : Line)
  /-- DATAFWD (R83). A requester installs line data forwarded by a holder and serves its host. -/
  | datafwd (src : Fin 16) (txn : BitVec 12) (grant : BitVec 3) (poison : Bool) (data : Line)
  /-- WBDATA (R86). The home absorbs a writeback of an M line as Home Dirty, applies HELD and sends Cmp. -/
  | wbdata (src : Fin 16) (txn : BitVec 12) (addr : BitVec 44) (held : BitVec 4) (poison : Bool) (data : Line) (upset : Upset)
  /-- EVICTNOTICE (R85). The home applies an evict notice of an S, F or E line, applies HELD and sends Cmp. -/
  | evictnotice (src : Fin 16) (txn : BitVec 12) (addr : BitVec 44) (held : BitVec 4) (upset : Upset)
  /-- MIRWR (R57). A replication partner stores a mirror write at the domain offset and answers Cmp, or Err NOT_HOME. -/
  | mirwr (src : Fin 16) (txn : BitVec 12) (addr : BitVec 44) (poison : Bool) (data : Line)
  /-- MIRRD (R57). A replication partner reads its copy of a line and answers MirData, or Err. -/
  | mirrd (src : Fin 16) (txn : BitVec 12) (addr : BitVec 44)
  /-- MIRDATA (R57). The home takes the partner's copy of an uncorrectable line, returns it and rewrites its own line. -/
  | mirdata (src : Fin 16) (txn : BitVec 12) (poison : Bool) (data : Line)
  /-- PRD (R229). The home serves a paced read from a peer on the paced path and answers PData within the bound. -/
  | prd (src : Fin 16) (txn : BitVec 12) (addr : BitVec 44)
  /-- PWR (R231). The home serves a paced write from a peer and answers PCmp within the bound. -/
  | pwr (src : Fin 16) (txn : BitVec 12) (addr : BitVec 44) (be : BitVec 64) (data : Line)
  /-- PDATA (R234). An exposing device forwards paced read data to its host port within 60 ns. -/
  | pdata (src : Fin 16) (txn : BitVec 12) (poison : Bool) (data : Line)
  /-- PCMP (R234). An exposing device forwards a paced write completion to its host port. -/
  | pcmp (src : Fin 16) (txn : BitVec 12)
  /-- BIRSPI (R77). The home counts a host's BIRspI toward its transaction and clears HOSTVEC bits as allowed. -/
  | birspi (port : Fin 32) (dpa : Dpa) (upset : Upset)
  /-- BIRSPS (R85). The home counts a host's BIRspS, leaving the host a Shared copy. -/
  | birsps (port : Fin 32) (dpa : Dpa)
  /-- BICONFLICT (R90). The device answers a host's BIConflict with BIConflictAck before any response to the conflicting request. -/
  | biconflict (port : Fin 32) (dpa : Dpa)
  /-- BISTALL_EXPIRY (R302). A BISnp that has waited BISTALL ms is recorded as BI_STALL and keeps waiting. -/
  | bistallExpiry (port : Fin 32) (dpa : Dpa)
  /-- COMPRESSION_DONE (R136). A compressor emits a block's stored form, or reports INCOMPRESSIBLE, and the block is written to a bin slot or takes the promotion path. -/
  | compressionDone (engine : Fin 16) (fault : Bool)
  /-- DECOMPRESSION_DONE (R136). A decompressor finishes a block, or finds a format fault and the block is read again and decoded elsewhere. -/
  | decompressionDone (engine : Fin 16) (fault : Bool)
  /-- KEY_CACHE_LOAD (R148). A pipeline finishes loading a missing key slot from the chip key store. -/
  | keyCacheLoad (pipe : Fin 32) (slot : BitVec 14)
  /-- KEY_INSTALL (R154). SEC_KEYOP with OP 000 checks the staged blob and installs the domain's keys. -/
  | keyInstall (p : Path) (dom : BitVec 14)
  /-- KEY_DESTROY (R155). SEC_KEYOP with OP 001 zeroises a key slot and starts the erase walk. -/
  | keyDestroy (p : Path) (dom : BitVec 14)
  /-- KEY_ACTIVATE_DK6 (R152). SEC_KEYOP with OP 010 copies DK6 to DK0, zeroises DK6 and resets the sequence counter. -/
  | keyActivateDk6 (p : Path) (dom : BitVec 14)
  /-- KEY_ACTIVATE_DK7 (R152). SEC_KEYOP with OP 011 copies DK7 to DK4, zeroises DK7 and resets the sequence counter. -/
  | keyActivateDk7 (p : Path) (dom : BitVec 14)
  /-- ERASE_WALK_DONE (R155). When every page of the domain is Unbacked, the slot becomes Empty or Generated and BUSY clears. -/
  | eraseWalkDone (dom : BitVec 14)
  /-- COMMAND_ISSUE (R166). In each controller clock a subchannel scheduler issues the first legal command of the highest non-empty class. -/
  | commandIssue (chan : Fin 16) (sub : Fin 2) (fault : PipeFault)
  /-- REFRESH_DUE (R172). A rank's refresh interval elapses and its refresh becomes due, postponable up to the standard's limit. -/
  | refreshDue (chan : Fin 16) (sub : Fin 2) (rank : Fin 16)
  /-- REFRESH_WINDOW_BOUNDARY (R173). At each refresh window boundary every activate-count entry and floor is cleared. -/
  | refreshWindowBoundary (chan : Fin 16)
  /-- MR4_POLL (R170). The controller reads each rank's refresh-rate report every MR4INT × 125 µs and sets the refresh rate. -/
  | mr4Poll (chan : Fin 16) (rate : RefreshReport)
  /-- THERMAL_POLL (R171). On AOT3 every 16 ms the controller reads DIMM sensors and sets refresh rate and throttling. -/
  | thermalPoll (chan : Fin 16) (reading : Option (BitVec 8))
  /-- COMMAND_RETIRE (R177). A command's retry-buffer entry retires 32 controller clocks after issue. -/
  | commandRetire (chan : Fin 16) (sub : Fin 2)
  /-- ALERT_N (R178). Assertion of ALERT_N stops issue, freezes the retry buffer and starts or fails an alert sequence. -/
  | alertN (chan : Fin 16) (sub : Fin 2) (crc : Bool)
  /-- ALERT_DEASSERT (R178). ALERT_N deasserts; the subchannel recovers and replays the implicated commands. -/
  | alertDeassert (chan : Fin 16) (sub : Fin 2)
  /-- REPLAY_RETIRE (R178). 32 clocks pass after a replay with no alert and the replay succeeds, classifying the fault. -/
  | replayRetire (chan : Fin 16) (sub : Fin 2)
  /-- TRAINING_RESTORE_DONE (R179). The escalation restore of saved training values ends and a replay is made. -/
  | trainingRestoreDone (chan : Fin 16) (sub : Fin 2) (pass : Bool)
  /-- LOWER_RATE_TRAINING_DONE (R179). Full training at the next lower rate ends and a replay is made, or the channel enters Failed. -/
  | lowerRateTrainingDone (chan : Fin 16) (sub : Fin 2) (pass : Bool)
  /-- CHANNEL_SHARE_EXPIRY (R232). A paced read's 260 ns channel share ends without data at the PHY, so it is answered with poison. -/
  | channelShareExpiry (chan : Fin 16) (sub : Fin 2)
  /-- DRAM_READ_DATA (R195). Read data arrives at the PHY and is decoded, decrypted and returned, or sent for a re-read. -/
  | dramReadData (chan : Fin 16) (sub : Fin 2) (err : CodeWord) (fault : PipeFault)
  /-- REREAD_DONE (R202). A re-read decodes and classifies the fault as transient or lasting, serving and rewriting the line as needed. -/
  | rereadDone (chan : Fin 16) (sub : Fin 2) (err : CodeWord) (fault : PipeFault)
  /-- NARROW_WRITE_MERGE (R204). When the stored line of a narrow write is read, the bytes are merged and the line written back under Table 09-3. -/
  | narrowWriteMerge (chan : Fin 16) (sub : Fin 2) (met : ReadMet)
  /-- PATROL_READ (R206). At its issue interval the patrol scrubber reads the next line and handles what it finds. -/
  | patrolRead (chan : Fin 16) (err : CodeWord) (again : CodeWord)
  /-- MARK_WRITE (R199). A write of CHn_MARKk sets the marked nibbles of a rank and moves the channel between Serving and Degraded. -/
  | markWrite (p : Path) (chan : Fin 16) (k : Fin 32) (val : BitVec 32)
  /-- INJECTION_ENABLE (R211). Writing INJEN = 1 claims ENT + 1 merge entries and enables injection, or is denied. -/
  | injectionEnable (p : Path) (chan : Fin 16) (entries : Fin 4)
  /-- RAW_WRITE (R211). CHn_INJCTL OP 00 writes the injection registers to the line as raw symbols. -/
  | rawWrite (p : Path) (chan : Fin 16)
  /-- RAW_READ (R211). CHn_INJCTL OP 01 reads the line's raw symbols into the injection registers and reports the decode. -/
  | rawRead (p : Path) (chan : Fin 16)
  /-- FLIP (R211). CHn_INJCTL OP 10 XORs the injection registers into the raw line and writes it back. -/
  | flip (p : Path) (chan : Fin 16)
  /-- SOFT_REPAIR (R184). CHn_MAINT OP 00 starts a soft repair of a row, or defers it. -/
  | softRepair (p : Path) (chan : Fin 16)
  /-- SOFT_REPAIR_COMPLETE (R184). After the sPPR sequence the saved row is written back, the row listed for hard repair and BUSY cleared. -/
  | softRepairComplete (chan : Fin 16) (pass : Bool)
  /-- RETIRE_CHANNEL (R186). CHn_MAINT OP 01 starts retirement: the channel becomes Evacuating and its extents are copied elsewhere. -/
  | retireChannel (p : Path) (chan : Fin 16)
  /-- LIST_HARD_REPAIR (R183). CHn_MAINT OP 10 lists a row for hard repair at the next start. -/
  | listHardRepair (p : Path) (chan : Fin 16)
  /-- EXTENT_TARGET (R186). A free extent becomes available on another channel and an evacuating extent's copy starts. -/
  | extentTarget (chan : Fin 16)
  /-- EXTENT_FLIP (R186). An extent's copy ends and its redirect entry is committed; after the last extent the channel is Retired. -/
  | extentFlip (chan : Fin 16)
  /-- CHANNEL_TRAINING_DONE (R181). A channel completes full training, stores its values and enters Serving. -/
  | channelTrainingDone (chan : Fin 16) (spd : Spd) (pass : Bool)
  /-- CHANNEL_RESTORE_DONE (R182). A channel finishes restoring from its training record and enters Serving, or falls back to full training. -/
  | channelRestoreDone (chan : Fin 16) (spd : Spd) (pass : Bool)
  /-- SERDES_TEST_MODE (R241). Writing PGg_SDCTL.MODE to Test takes effect at once, dropping any link on the group. -/
  | serdesTestMode (p : Path) (group : Fin 16) (val : BitVec 32)
  /-- SYMBOL_INTERVAL (R251). At the end of each 1 ms interval a lane's corrected-symbol count is compared with ERRTH. -/
  | symbolInterval (group : Fin 16) (lane : Fin 9) (count : BitVec 32)
  /-- LANE_FAULT (R251). A lane loses CDR lock, exceeds skew or errors, or fails detection, and is retrained to classify the fault. -/
  | laneFault (group : Fin 16) (lane : Fin 9)
  /-- LANE_CLASSIFIED (R251). After the classification retrain and its next interval, the fault is transient or the lane enters Failed and is substituted. -/
  | laneClassified (group : Fin 16) (lane : Fin 9)
  /-- ADAPT_REEVAL (R246). In continuous adaptation, CTLE and VGA are re-evaluated every 1 ms. -/
  | adaptReeval (group : Fin 16) (lane : Fin 9) (ctle : Fin 41) (vga : Fin 32)
  /-- PRBS_GEN (R253). A write of GEN starts the lane's PRBS generator from the all-ones state. -/
  | prbsGen (p : Path) (group : Fin 16) (lane : Fin 9) (val : BitVec 32)
  /-- PRBS_CLEAR (R254). CLR zeroes the lane's PRBS counters. -/
  | prbsClear (p : Path) (group : Fin 16) (lane : Fin 9) (val : BitVec 32) (err : Bool)
  /-- PRBS_LOCK_LOSS (R253). The checker counts more than 32 errors in 64 bits, loses lock, relocks and increments LOSSCNT. -/
  | prbsLockLoss (group : Fin 16) (lane : Fin 9) (bits : BitVec 48) (errs : BitVec 48)
  /-- PRBS_SNAPSHOT_READ (R254). A read of PGg_LNl_PRBSERR latches the other two counter words. -/
  | prbsSnapshotRead (p : Path) (group : Fin 16) (lane : Fin 9) (bits : BitVec 48) (errs : BitVec 48)
  /-- MARGIN_RUN (R255). MARGCTL.GO starts a margin run at the given offsets, or is refused while the host holds the sampler. -/
  | marginRun (p : Path) (group : Fin 16) (lane : Fin 9) (val : BitVec 32)
  /-- MARGIN_RUN_DONE (R255). A margin run's dwell ends and its errors are reported. -/
  | marginRunDone (group : Fin 16) (lane : Fin 9) (errs : BitVec 32)
  /-- LANE_MARGIN_COMMAND (R256). A PCIe lane-margining command from the host uses the margin sampler. -/
  | laneMarginCommand (group : Fin 16) (lane : Fin 9) (start : Bool)
  /-- DETECTION (R258). DETECT.GO on a lane in Off, Failed or Test starts open and short detection. -/
  | detection (p : Path) (group : Fin 16) (lane : Fin 9) (val : BitVec 32)
  /-- DETECTION_DONE (R258). Detection ends after 20 µs and its results are coded; failing lanes enter Failed. -/
  | detectionDone (group : Fin 16) (lane : Fin 9) (tx : TxResult) (rx : RxResult)
  /-- DETECTION_REPEAT (R259). A group with no partner repeats detection every 1 ms. -/
  | detectionRepeat (group : Fin 16)
  /-- PENNANT_PATTERN_DETECT (R261). Enough lanes detect the pennant pattern within 10 µs, so the group asserts wake and sets WAKEDET. -/
  | pennantPatternDetect (group : Fin 16) (lanes : BitVec 9)
  /-- FLIT_SEND (R279). At each flit slot a sender sends a data, idle, control or replayed flit, filling slots in VC order. -/
  | flitSend (group : Fin 16)
  /-- SKIP_FLIT (R276). Every 2,048th flit slot after a marker is a skip flit. -/
  | skipFlit (group : Fin 16)
  /-- ALIGNMENT_MARKER (R277). After every 16,384 flit slots all lanes send an alignment marker. -/
  | alignmentMarker (group : Fin 16)
  /-- MARKER_RECEIVE (R277). A receiver deskews on an alignment marker; a lane missing two in a row has a lane fault. -/
  | markerReceive (group : Fin 16) (lane : Fin 9) (block : BitVec 256) (skewed : Bool)
  /-- FLIT_RECEIVE (R274). A received flit is corrected and CRC-checked, its ACK and NAK applied and its messages delivered, or a NAK is sent. -/
  | flitReceive (group : Fin 16) (raw : BitVec 2048) (full : Bool)
  /-- REPLAY_TIMER_EXPIRY (R274). The replay timer expires while a replay is awaited and a new NAK is sent. -/
  | replayTimerExpiry (group : Fin 16)
  /-- TRAINING_BLOCK_RECEIVE (R287). A received training block advances the link training state, leader decisions or peer-epoch checks. -/
  | trainingBlockReceive (group : Fin 16) (lane : Fin 9) (block : BitVec 256)
  /-- LINK_STATE_TIMEOUT (R286). A training state's bound expires and the link returns to Polling or Down. -/
  | linkStateTimeout (group : Fin 16)
  /-- RETRAIN (R289). PGg_LKCTL.RETRAIN starts a retrain of the link. -/
  | retrain (p : Path) (group : Fin 16) (val : BitVec 32)
  /-- LINK_FULL_RESET (R289). PGg_LKCTL.RESET starts a full reset of the link, also leaving Failed. -/
  | linkFullReset (p : Path) (group : Fin 16) (val : BitVec 32)
  /-- LINK_DOWN_TIMEOUT (R292). A link out of L0 for DOWNLIM ms enters Failed and LINK_FAILED is recorded. -/
  | linkDownTimeout (group : Fin 16)
  /-- LINKRECOVER (R294). Receipt of LinkRecover moves a failed link's unacknowledged messages ahead of the peer's queue. -/
  | linkrecover (src : Fin 16) (sender : Fin 16) (receiver : Fin 16) (e : BitVec 12) (ev : Bool)
  /-- PCRINIT (R284). Receipt of PCrInit sets the paced read and write credit totals granted by a home. -/
  | pcrinit (src : Fin 16) (pqr : BitVec 4) (pqw : BitVec 4)
  /-- PEERLIM_WRITE (R282). A write of CHIP_PEERLIMd is checked against the class sums and ranges, and discarded on failure. -/
  | peerlimWrite (p : Path) (dev : Fin 16) (val : BitVec 32)
  /-- PORT_RESET (R314). A hot reset, link disable, conventional reset or link-down resets a logical port's link layer, decoders, credits and IDE state. -/
  | portReset (port : Fin 32) (cause : PortResetCause)
  /-- PRST (R314). PGg_CXLCFG.PRST performs a Port reset of every port of the group. -/
  | prst (p : Path) (group : Fin 16) (val : BitVec 32)
  /-- FUNCTION_LEVEL_RESET (R314). A Function Level Reset resets CXL.io function state only. -/
  | functionLevelReset (port : Fin 32)
  /-- HDM_DECODER_COMMIT (R304). A host commits an HDM decoder, which locks or fails with the CXL error bit. -/
  | hdmDecoderCommit (port : Fin 32) (dec : Fin 16) (lock : Bool) (interleave : Interleave) (base : BitVec 64) (size : BitVec 64) (skip : BitVec 64)
  /-- LTR_SEND (R312). When LTR Mechanism Enable is set, the device sends one LTR message with both requirement bits 0. -/
  | ltrSend (port : Fin 32)
  /-- IDE_FAIL (R313). An IDE integrity failure puts the port in the insecure state, discards the flit's requests and is recorded. -/
  | ideFail (port : Fin 32)
  /-- COUNTER_PAGE_READ (R370). A read of a BAR2 domain counter page composes its header and entries from the counters. -/
  | counterPageRead (port : Fin 32) (dom : BitVec 14) (word : Fin 512)
  /-- MAILBOX_COMMIT_DOMAIN (R307). Mailbox command 0xC000 commits a domain entry as a background command. -/
  | mailboxCommitDomain (port : Fin 32) (dom : BitVec 14) (entry : BitVec 512)
  /-- MAILBOX_READ_DOMAIN (R307). Mailbox command 0xC001 returns a committed domain entry. -/
  | mailboxReadDomain (port : Fin 32) (dom : BitVec 14)
  /-- INSTALL_DOMAIN_KEY (R307). Mailbox command 0xC010 installs a domain key blob. -/
  | installDomainKey (port : Fin 32) (dom : BitVec 14) (blob : BitVec 960)
  /-- DESTROY_DOMAIN_KEY (R307). Mailbox command 0xC011 destroys a domain key slot as a background command. -/
  | destroyDomainKey (port : Fin 32) (dom : BitVec 14)
  /-- GET_ERROR_RECORDS (R307). Mailbox command 0xC020 returns error records. -/
  | getErrorRecords (port : Fin 32) (first : BitVec 32) (count : BitVec 16)
  /-- SUBMIT_DESCRIPTOR (R347). Mailbox command 0xC030 runs one descriptor and returns its first completion. -/
  | submitDescriptor (port : Fin 32) (desc : BitVec 1024)
  /-- GET_JOB_STATUS (R307). Mailbox command 0xC031 returns a job status record. -/
  | getJobStatus (port : Fin 32) (job : BitVec 32)
  /-- GET_TIER_CAPACITY (R307). Mailbox command 0xC040 returns the tier capacity registers. -/
  | getTierCapacity (port : Fin 32)
  /-- GET_DYNAMIC_CAPACITY_EXTENT_LIST (R309). The head returns one extent per domain the port may read or write. -/
  | getDynamicCapacityExtentList (port : Fin 32)
  /-- ADD_CAPACITY_RESPONSE (R309). A host answers an Add Capacity event; an empty list is recorded as DC_DECLINED and changes nothing. -/
  | addCapacityResponse (port : Fin 32) (dom : BitVec 14) (accepted : Bool)
  /-- RELEASE_DYNAMIC_CAPACITY (R309). A host release of a whole extent removes the port's permission bits by commit; a partial release is refused. -/
  | releaseDynamicCapacity (port : Fin 32) (base : BitVec 64) (len : BitVec 64)
  /-- GET_POISON_LIST (R310). The head returns media poison list entries in domains the port may read. -/
  | getPoisonList (port : Fin 32)
  /-- INJECT_POISON (R310). Inject Poison writes the poison form of the named line and lists it. -/
  | injectPoison (port : Fin 32) (dpa : Dpa)
  /-- CLEAR_POISON (R310). Clear Poison writes the supplied data as a full-line write, removing the entry. -/
  | clearPoison (port : Fin 32) (dpa : Dpa) (data : Line)
  /-- SANITIZE (R355). CXL Sanitize runs the device-overwrite sanitize long operation. -/
  | sanitize (port : Fin 32)
  /-- SECURE_ERASE (R355). CXL Secure Erase runs the crypto-erase sanitize long operation. -/
  | secureErase (port : Fin 32)
  /-- ADD (R322). ALU func 0x00 adds two registers. -/
  | add (core : Fin 9) (w : BitVec 32) (upset : Bool)
  /-- SUB (R322). ALU func 0x01 subtracts. -/
  | sub (core : Fin 9) (w : BitVec 32) (upset : Bool)
  /-- AND (R322). ALU func 0x02 ANDs. -/
  | and_ (core : Fin 9) (w : BitVec 32) (upset : Bool)
  /-- OR (R322). ALU func 0x03 ORs. -/
  | or_ (core : Fin 9) (w : BitVec 32) (upset : Bool)
  /-- XOR (R322). ALU func 0x04 XORs. -/
  | xor_ (core : Fin 9) (w : BitVec 32) (upset : Bool)
  /-- SLL (R322). ALU func 0x05 shifts left. -/
  | sll (core : Fin 9) (w : BitVec 32) (upset : Bool)
  /-- SRL (R322). ALU func 0x06 shifts right with zero fill. -/
  | srl (core : Fin 9) (w : BitVec 32) (upset : Bool)
  /-- SRA (R322). ALU func 0x07 shifts right with sign fill. -/
  | sra (core : Fin 9) (w : BitVec 32) (upset : Bool)
  /-- MUL (R322). ALU func 0x08 gives the low 64 bits of a product. -/
  | mul (core : Fin 9) (w : BitVec 32) (upset : Bool)
  /-- MULHU (R322). ALU func 0x09 gives the high 64 bits of an unsigned product. -/
  | mulhu (core : Fin 9) (w : BitVec 32) (upset : Bool)
  /-- DIVU (R322). ALU func 0x0A divides unsigned. -/
  | divu (core : Fin 9) (w : BitVec 32) (upset : Bool)
  /-- REMU (R322). ALU func 0x0B gives the unsigned remainder. -/
  | remu (core : Fin 9) (w : BitVec 32) (upset : Bool)
  /-- MINU (R322). ALU func 0x0C gives the unsigned minimum. -/
  | minu (core : Fin 9) (w : BitVec 32) (upset : Bool)
  /-- MAXU (R322). ALU func 0x0D gives the unsigned maximum. -/
  | maxu (core : Fin 9) (w : BitVec 32) (upset : Bool)
  /-- MIN (R322). ALU func 0x0E gives the signed minimum. -/
  | min (core : Fin 9) (w : BitVec 32) (upset : Bool)
  /-- MAX (R322). ALU func 0x0F gives the signed maximum. -/
  | max (core : Fin 9) (w : BitVec 32) (upset : Bool)
  /-- POPC (R322). ALU func 0x10 counts 1 bits. -/
  | popc (core : Fin 9) (w : BitVec 32) (upset : Bool)
  /-- CLZ (R322). ALU func 0x11 counts leading zeros. -/
  | clz (core : Fin 9) (w : BitVec 32) (upset : Bool)
  /-- SATADD (R322). ALU func 0x12 adds unsigned with saturation. -/
  | satadd (core : Fin 9) (w : BitVec 32) (upset : Bool)
  /-- SATSUB (R322). ALU func 0x13 subtracts unsigned with saturation. -/
  | satsub (core : Fin 9) (w : BitVec 32) (upset : Bool)
  /-- ADDI (R322). Adds a signed immediate. -/
  | addi (core : Fin 9) (w : BitVec 32) (upset : Bool)
  /-- ANDI (R322). ANDs a signed immediate. -/
  | andi (core : Fin 9) (w : BitVec 32) (upset : Bool)
  /-- ORI (R322). ORs a signed immediate. -/
  | ori (core : Fin 9) (w : BitVec 32) (upset : Bool)
  /-- XORI (R322). XORs a signed immediate. -/
  | xori (core : Fin 9) (w : BitVec 32) (upset : Bool)
  /-- SHI (R322). Shifts or rotates by an immediate amount and kind. -/
  | shi (core : Fin 9) (w : BitVec 32) (upset : Bool)
  /-- MOVI (R322). Loads a sign-extended 17-bit immediate. -/
  | movi (core : Fin 9) (w : BitVec 32) (upset : Bool)
  /-- MOVK (R322). MOVK0 to MOVK3 insert a 16-bit immediate into one quarter of a register. -/
  | movk (core : Fin 9) (w : BitVec 32) (upset : Bool)
  /-- CMPI (R322). Sets a flag from comparing a register with an immediate. -/
  | cmpi (core : Fin 9) (w : BitVec 32) (upset : Bool)
  /-- FOP (R322). Combines two flags into a third. -/
  | fop (core : Fin 9) (w : BitVec 32) (upset : Bool)
  /-- SEL (R322). Selects one of two registers by a flag. -/
  | sel (core : Fin 9) (w : BitVec 32) (upset : Bool)
  /-- LDD (R318). Loads 64 bits from own data SRAM or the scratch. -/
  | ldd (core : Fin 9) (w : BitVec 32) (upset : Bool) (mem : Bool)
  /-- LDW (R318). Loads 32 bits, including control-window reads for ROM programs. -/
  | ldw (core : Fin 9) (w : BitVec 32) (upset : Bool) (mem : Bool)
  /-- LDB (R318). Loads 8 bits. -/
  | ldb (core : Fin 9) (w : BitVec 32) (upset : Bool) (mem : Bool)
  /-- STD (R318). Stores 64 bits. -/
  | std (core : Fin 9) (w : BitVec 32) (upset : Bool) (mem : Bool)
  /-- STW (R318). Stores 32 bits, including control-window writes for ROM programs. -/
  | stw (core : Fin 9) (w : BitVec 32) (upset : Bool) (mem : Bool)
  /-- STB (R318). Stores 8 bits. -/
  | stb (core : Fin 9) (w : BitVec 32) (upset : Bool) (mem : Bool)
  /-- AADD (R319). Atomically adds to a scratch word and returns the old value. -/
  | aadd (core : Fin 9) (w : BitVec 32) (upset : Bool) (mem : Bool)
  /-- CAS (R319). Atomically compares and swaps a scratch word. -/
  | cas (core : Fin 9) (w : BitVec 32) (upset : Bool) (mem : Bool)
  /-- FENCE (R319). Waits until every earlier store of the core is visible to every core and path. -/
  | fence (core : Fin 9) (w : BitVec 32) (upset : Bool)
  /-- BR (R322). Branches by a signed word offset. -/
  | br (core : Fin 9) (w : BitVec 32) (upset : Bool)
  /-- CALL (R322). Branches and writes the return address to g31. -/
  | call (core : Fin 9) (w : BitVec 32) (upset : Bool)
  /-- JR (R322). Jumps to a register address, writing the return address. -/
  | jr (core : Fin 9) (w : BitVec 32) (upset : Bool)
  /-- MFS (R322). Reads a special register. -/
  | mfs (core : Fin 9) (w : BitVec 32) (upset : Bool)
  /-- CKPT (R334). Executes a checkpoint, where a pending suspension or cancellation takes effect. -/
  | ckpt (core : Fin 9) (w : BitVec 32) (upset : Bool)
  /-- HALT (R322). Ends the run; the core idles until its next event. -/
  | halt (core : Fin 9) (w : BitVec 32) (upset : Bool)
  /-- TRAP (R322). Faults with TRAP and records a 22-bit code. -/
  | trap (core : Fin 9) (w : BitVec 32) (upset : Bool)
  /-- CKPT_LATE (R333). CKCLK reaches the checkpoint limit without a checkpoint and the core faults. -/
  | ckptLate (core : Fin 9)
  /-- CRD (R323). Reads a counter or its snapshot copy. -/
  | crd (core : Fin 9) (w : BitVec 32) (upset : Bool)
  /-- HSCAN (R326). Issues a heat scan over a domain's share, taking a ticket. -/
  | hscan (core : Fin 9) (w : BitVec 32) (upset : Bool) (mem : Bool)
  /-- HSCAN_DONE (R324). A heat scan has visited COUNT pages or written OUTMAX records and its ticket becomes done. -/
  | hscanDone (core : Fin 9) (tk : Fin 17)
  /-- MIG (R327). Issues one migration of a page, returning a ticket or a refusal. -/
  | mig (core : Fin 9) (w : BitVec 32) (upset : Bool)
  /-- TSTAT (R324). Reads a ticket's result word and frees the ticket when done. -/
  | tstat (core : Fin 9) (w : BitVec 32) (upset : Bool)
  /-- WAIT (R328). Stops the core until a named ticket is done, the mailbox is not empty, an event is pending or the limit passes. -/
  | wait (core : Fin 9) (w : BitVec 32) (upset : Bool)
  /-- WAIT_RETURN (R328). A waited cause holds or the time limit passes and WAIT returns its reason. -/
  | waitReturn (core : Fin 9)
  /-- POST (R329). Posts a payload to a core mailbox or the host event ring. -/
  | post (core : Fin 9) (w : BitVec 32) (upset : Bool)
  /-- RECV (R329). Takes the oldest mailbox entry. -/
  | recv (core : Fin 9) (w : BitVec 32) (upset : Bool)
  /-- DOMRD (R323). Reads a word of a committed domain entry. -/
  | domrd (core : Fin 9) (w : BitVec 32) (upset : Bool)
  /-- TCAN (R327). Cancels an HSCAN, or a MIG before step 5. -/
  | tcan (core : Fin 9) (w : BitVec 32) (upset : Bool)
  /-- CGB (R330). Opens a commit group. -/
  | cgb (core : Fin 9) (w : BitVec 32) (upset : Bool)
  /-- DOMWR (R330). Stages a word of a domain entry in the open group. -/
  | domwr (core : Fin 9) (w : BitVec 32) (upset : Bool)
  /-- RGWR (R330). Stages a regulator register in the open group. -/
  | rgwr (core : Fin 9) (w : BitVec 32) (upset : Bool)
  /-- SHWR (R330). Stages a shaper register in the open group. -/
  | shwr (core : Fin 9) (w : BitVec 32) (upset : Bool)
  /-- CTRW (R330). Stages a counter control in the open group. -/
  | ctrw (core : Fin 9) (w : BitVec 32) (upset : Bool)
  /-- CGC (R331). Closes the group and hands it to the chip arbiter, which checks and commits it at one commit point. -/
  | cgc (core : Fin 9) (w : BitVec 32) (upset : Bool)
  /-- CGA (R330). Discards the open group. -/
  | cga (core : Fin 9) (w : BitVec 32) (upset : Bool)
  /-- PSET (R431). Requests a power state from the power-state manager, entered only within the limit after a quiet dwell. -/
  | pset (core : Fin 9) (w : BitVec 32) (upset : Bool)
  /-- PLOG (R323). Appends a record to the program's PRG stream of the Peat log. -/
  | plog (core : Fin 9) (w : BitVec 32) (upset : Bool) (mem : Bool)
  /-- PROGRAM_RUN_START (R343). An idle, unsuspended core with a pending event starts its program at PC 0 with EVENT and EVARG set. -/
  | programRunStart (core : Fin 9)
  /-- TIMER (R343). A TIMER binding's period expires and its event becomes pending. -/
  | timer (prog : BitVec 16)
  /-- DESCRIPTOR_TAKE (R347). The device takes the next pending descriptor of a ring once the previous first completion is written. -/
  | descriptorTake (ring : Fin 8)
  /-- COMPLETION_WRITE (R347). A completion record is written at CQTAIL when a slot is free, with an MSI-X message when asked. -/
  | completionWrite (ring : Fin 8)
  /-- COMMIT_DOMAIN (R348). Descriptor 0x0001 commits a domain entry. -/
  | commitDomain (ring : Fin 8)
  /-- READ_DOMAIN (R348). Descriptor 0x0002 returns a committed domain entry. -/
  | readDomain (ring : Fin 8)
  /-- LOAD_PROGRAM (R342). Descriptor 0x0010 loads a host program from the staging area onto a core. -/
  | loadProgram (ring : Fin 8)
  /-- BIND (R344). Descriptor 0x0011 with bit 0 set binds an event to a program. -/
  | bind (ring : Fin 8)
  /-- UNBIND (R344). Descriptor 0x0011 with bit 0 clear removes an event binding. -/
  | unbind (ring : Fin 8)
  /-- SUSPEND (R345). PROG_CTL action 0 suspends a program at its next checkpoint. -/
  | suspend (ring : Fin 8)
  /-- RESUME (R345). PROG_CTL action 1 continues a suspended program from its save area. -/
  | resume (ring : Fin 8)
  /-- CANCEL (R345). PROG_CTL action 2 ends the present run at the next checkpoint. -/
  | cancel (ring : Fin 8)
  /-- RESTART (R345). PROG_CTL action 3 returns a faulted program to idle. -/
  | restart (ring : Fin 8)
  /-- UNLOAD (R345). PROG_CTL action 4 removes a program and restores any ROM program. -/
  | unload (ring : Fin 8)
  /-- SIGNAL (R345). PROG_CTL action 5 raises event HOST with an argument. -/
  | signal (ring : Fin 8)
  /-- SET_PARAM (R358). Descriptor 0x0013 writes a default program parameter. -/
  | setParam (ring : Fin 8)
  /-- AUDIT (R209). Descriptor 0x0020 starts an audit pass of a domain as a job. -/
  | audit (ring : Fin 8)
  /-- AUDIT_GRANULE (R209). An audit pass reads and checks the next 1 KiB granule, ending with a summary record after the last. -/
  | auditGranule (job : BitVec 32) (errs : List (Nat × CodeWord × CodeWord))
  /-- MIGRATE_RANGE (R354). Descriptor 0x0021 starts a job that migrates a range of share pages. -/
  | migrateRange (ring : Fin 8)
  /-- COMPACT (R354). Descriptor 0x0022 starts a compaction job over selected extents. -/
  | compact (ring : Fin 8)
  /-- SANITIZE_SCOPE_DOMAIN (R355). SANITIZE scope 0 overwrites a domain's share, sets entries Unbacked and destroys its key slot. -/
  | sanitizeScopeDomain (ring : Fin 8)
  /-- SANITIZE_SCOPE_OVERWRITE (R355). SANITIZE scope 1 overwrites every line outside the metadata reserve and destroys every key slot. -/
  | sanitizeScopeOverwrite (ring : Fin 8)
  /-- SANITIZE_SCOPE_CRYPTO_ERASE (R355). SANITIZE scope 2 destroys every key slot of an encrypted domain. -/
  | sanitizeScopeCryptoErase (ring : Fin 8)
  /-- RESIZE (R356). Descriptor 0x0024 starts a job that changes a domain's SIZE by growing or shrinking. -/
  | resize (ring : Fin 8)
  /-- JOB_SUSPEND (R354). JOB_CTL action 0 suspends a job at its next unit boundary. -/
  | jobSuspend (ring : Fin 8)
  /-- JOB_RESUME (R354). JOB_CTL action 1 resumes a suspended job. -/
  | jobResume (ring : Fin 8)
  /-- JOB_CANCEL (R354). JOB_CTL action 2 cancels a job where its kind allows. -/
  | jobCancel (ring : Fin 8)
  /-- JOB_STATUS (R353). Descriptor 0x0031 returns a job status record. -/
  | jobStatus (ring : Fin 8)
  /-- JOB_START (R353). A Queued job starts Running once its conflicting job is Done. -/
  | jobStart (job : BitVec 32)
  /-- COUNTER_CLEAR (R362). Ck_CTL.CLR sets a counter to 0. -/
  | counterClear (p : Path) (bank : Fin 5) (k : Fin 80) (val : BitVec 32)
  /-- COUNTER_READ (R365). A read of Ck_LO or Ck_SLO latches the upper word for one consistent value. -/
  | counterRead (p : Path) (bank : Fin 5) (k : Fin 80) (snap : Bool)
  /-- HALYARD_ARM_TARGET (R367). CHIP_HALCTL.GO with SRC 00 arms the freeze at CHIP_HALTGT, claiming an always-on timer. -/
  | halyardArmTarget (p : Path) (val : BitVec 32)
  /-- HALYARD_ARM_RELATIVE (R367). CHIP_HALCTL.GO with SRC 01 arms the freeze 512 ticks after the write. -/
  | halyardArmRelative (p : Path) (val : BitVec 32)
  /-- HALYARD_ARM_EXTERNAL (R367). CHIP_HALCTL.GO with SRC 10 arms the freeze on the next HALYARD_IN edge. -/
  | halyardArmExternal (p : Path) (val : BitVec 32)
  /-- HALYARD_DISARM (R367). CHIP_HALCTL.GO with SRC 11 disarms the freeze. -/
  | halyardDisarm (p : Path) (val : BitVec 32)
  /-- HALYARD_RELEASE (R368). CHIP_HALCTL.RELEASE restarts frozen counters. -/
  | halyardRelease (p : Path) (val : BitVec 32)
  /-- HALYARD_IN_EDGE (R367). A rising edge of HALYARD_IN sets the target of an externally armed freeze. -/
  | halyardInEdge
  /-- HALYARD_SNAPSHOT (R368). A bank's GTC reaches the target and it copies its counters, after which HALYARD is raised and tagging may stop. -/
  | halyardSnapshot (bank : Fin 5)
  /-- TRACE_ENABLE (R372). Writing TRr_CTL.EN from 0 to 1 resets the trace pointer and resumes capture. -/
  | traceEnable (p : Path) (region : Fin 4) (val : BitVec 32)
  /-- TRACE_SEED_WRITE (R376). A write of TRr_SEED loads the tagging LFSR. -/
  | traceSeedWrite (p : Path) (region : Fin 4) (val : BitVec 32)
  /-- TRACE_DATA_READ (R376). A read of TRr_DATA0 latches the record at IDX. -/
  | traceDataRead (p : Path) (region : Fin 4)
  /-- TRACE_TRIG_EDGE (R372). A rising edge on a TRACE_TRIG pin stops capture when TRIGSTOP = 1. -/
  | traceTrigEdge (high : Bool)
  /-- FAULT_RECORD_READ (R390). A read of CF_REC0 latches the record at CF_RECIDX and marks it read for FAULT_N. -/
  | faultRecordRead (p : Path)
  /-- SRAM_FAULT (R378). A cell detects an SRAM or queue error and corrects it, spares a row or passes it to its block. -/
  | sramFault (unit : SramUnit) (bank : BitVec 16) (ue : Bool) (lasting : Bool)
  /-- MESH_LINK (R379). A mesh message fails SECDED; it is resent once and a second failure loses the device. -/
  | meshLink (region : Fin 4) (again : Bool)
  /-- KILL (R379). CF_CTL.KILL declares the device lost. -/
  | kill (p : Path) (val : BitVec 32)
  /-- DECLARE (R387). CF_CTL.DECLARE declares a pool device lost. -/
  | declare (p : Path) (val : BitVec 32)
  /-- WATCHDOG_EXPIRY (R379). The watchdog on AOT1 finds the chip arbiter or control ring stalled and declares the device lost. -/
  | watchdogExpiry
  /-- THERMAL_TRIP (R389). A region comparator trips at 115 °C, raising PFW internally and latching THERM_TRIP. -/
  | thermalTrip (region : Fin 4)
  /-- PEAT_PAGE_WRITE (R395). The log writes the next page at its frontier within the pace, relocating live pages ahead of it. -/
  | peatPageWrite (fails : Fin 3)
  /-- CNT_WRITE (R394). Every hour the lifetime counters are written as the CNT object. -/
  | cntWrite
  /-- FULL_IMAGE_WRITE (R402). PL_CTL OP 000 writes a full CFG image now. -/
  | fullImageWrite (p : Path) (val : BitVec 32)
  /-- LOG_CLEAR (R402). PL_CTL OP 001 makes all streams except BAD and CNT stale and writes a full image. -/
  | logClear (p : Path) (val : BitVec 32)
  /-- LASTGASP_FLUSH (R399). On PFW, GA writes the marker, health, counter, configuration and closing pages into the reserve and signals flush-done. -/
  | lastgaspFlush (pages : BitVec 13) (bad : List Nat)
  /-- LASTGASP_DEADLINE (R399). The 4 ms deadline on AOT0 expires. -/
  | lastgaspDeadline
  /-- FEED_DIE_POWER_ON (R406). The feed die's supply rises above 9 V; feeds enter Off, the event log clears and settings load from OTP. -/
  | feedDiePowerOn
  /-- FEED_IN_RANGE (R408). A feed in Off rises within UVON to OVON and enters Qualify. -/
  | feedInRange (feed : Feed) (v : BitVec 11)
  /-- WINDOW_LEFT (R408). A feed leaves its window after the filter and goes to Off. -/
  | windowLeft (feed : Feed) (above : Bool)
  /-- INSERTION_DELAY_EXPIRY (R408). A feed stays in window for INSDLY and enters Ramp. -/
  | insertionDelayExpiry (feed : Feed)
  /-- RAMP_COMPLETE (R409). F_BULK reaches the feed voltage and the pass gate is enhanced, so the feed enters On. -/
  | rampComplete (feed : Feed) (v : BitVec 11) (bulk : BitVec 11)
  /-- STARTSHORT (R409). The ramp rise test fails at 1 ms and the feed trips. -/
  | startshort (feed : Feed) (start : BitVec 11) (v : BitVec 11) (rise : BitVec 11)
  /-- START_TIMEOUT (R409). The ramp is not complete within TSTART and the feed trips. -/
  | startTimeout (feed : Feed)
  /-- BREAKER (R410). A breakpoint accumulator reaches its limit and the feed trips. -/
  | breaker (feed : Feed) (samples : List (BitVec 10 × BitVec 32))
  /-- FAST_TRIP (R411). The shunt comparator exceeds FAST, or 4 × INRUSH in Ramp, and the gates are pulled down. -/
  | fastTrip (feed : Feed) (current : BitVec 11)
  /-- RETRY_DELAY_EXPIRY (R412). After RETRYDLY a Tripped feed re-enters Qualify, or Latched past its retries. -/
  | retryDelayExpiry (feed : Feed)
  /-- TRIP_COUNT_CLEAR (R412). A feed in On for 10 s without a break has its trip count cleared. -/
  | tripCountClear (feed : Feed)
  /-- FEED_REMOVAL (R412). A feed below UVOFF for 1 s is taken as removed and a Latched feed returns to Off. -/
  | feedRemoval (feed : Feed)
  /-- ORING_TURN_OFF (R413). FA_MID rises 10 mV above FA_SNS and the ORing gate is pulled off. -/
  | oringTurnOff (feed : Feed)
  /-- ORING_TURN_ON (R413). The forward voltage exceeds 50 mV and the ORing gate returns to regulation. -/
  | oringTurnOn (feed : Feed)
  /-- REVERSED (R414). A feed below the Reversed threshold enters Reversed with its gates clamped. -/
  | reversed (feed : Feed)
  /-- REVERSED_CLEAR (R414). A reversed condition clears for 10 ms and the feed returns to Off. -/
  | reversedClear (feed : Feed)
  /-- PG_RISE (R415). Power-good rises when a feed is On with no breaker timer running. -/
  | pgRise
  /-- PG_FALL (R415). Power-good falls when F_BULK stays below 40 V. -/
  | pgFall
  /-- PFW (R416). With PG high and no feed On at VPFW or above for PFWFILT ticks, or a thermal input, PFW is raised and latched. -/
  | pfw (va : BitVec 11) (vb : BitVec 11)
  /-- FLUSH_DONE (R416). The flush-done wire from GA arrives after PFW and the release begins. -/
  | flushDone
  /-- RELEASE_TIMEOUT (R416). 4 ms after PFW without flush-done, the release begins. -/
  | releaseTimeout
  /-- CLRA (R412). FD_CMD.CLRA clears feed A's latch and trip count. -/
  | clra (p : Path) (val : BitVec 32)
  /-- CLRB (R412). FD_CMD.CLRB clears feed B's latch and trip count. -/
  | clrb (p : Path) (val : BitVec 32)
  /-- CLRT (R412). FD_CMD.CLRT clears the thermal latch and both latches. -/
  | clrt (p : Path) (val : BitVec 32)
  /-- FEED_COMMIT (R420). FD_COMMIT OP 0 checks and commits the feed-die staging settings. -/
  | feedCommit (p : Path)
  /-- FEED_COPY (R420). FD_COMMIT OP 1 copies the committed feed-die settings into staging. -/
  | feedCopy (p : Path)
  /-- OTP_BURN (R421). FD_OTPCTL.BURN with key 0x5A copies committed settings into OTP once. -/
  | otpBurn (p : Path) (key : BitVec 8)
  /-- HEARTBEAT (R419). Every 1 ms the always-on island exchanges a heartbeat with the feed die; three misses set LOST. -/
  | heartbeat (answered : Bool) (r : FeedReadings)
  /-- POWER_STATE_ENTRY (R432). A granted state is entered after a quiet dwell, with Kindling and map-cache cleaning for Cinder, unless a wake abandons it. -/
  | powerStateEntry
  /-- WAKE (R434). A wake source latches WAKESRC and starts an exit to Blaze. -/
  | wake (source : Fin 7)
  /-- EXIT_COMPLETE (R433). An exit ends in Blaze with every block serving and pending events started. -/
  | exitComplete
  /-- DOZE_TIMER (R431). DOZE's timer on AOT4 expires and it re-evaluates its state choice. -/
  | dozeTimer
  /-- SUPPLIES_VALID (R439). All three supply conditions hold for 2 ms and the device takes a Cold reset. -/
  | suppliesValid
  /-- SUPPLIES_LOST (R439). A supply condition is absent for 10 µs and the main die is held in reset. -/
  | suppliesLost
  /-- REFERENCE_CHECK (R440). Every 10 ms the island checks its oscillator against the device reference and sets REFBAD or OSCBAD. -/
  | referenceCheck (refBad : Bool) (oscBad : Bool)
  /-- REFERENCE_LOSS (R452). Loss of the device reference stops the main-die PLLs and leads to device loss. -/
  | referenceLoss
  /-- COLD_START (R441). After Cold reset the island starts the main die, recovers the log and starts channel and lane training. -/
  | coldStart (pgmode : BitVec 16) (x16 : BitVec 8) (devnum : Fin 16) (newest : Bool) (older : Bool)
  /-- READY (R443). Once channels are final and configuration committed, default programs start and READY is set. -/
  | ready
  /-- EXTENT_INIT_DONE (R445). The background writer finishes initialising a metadata or allocation-table extent. -/
  | extentInitDone
  /-- ORDERLY_WARM_RESET (R448). CHIP_RSTCTL with WARM and ORDERLY starts the drain of an orderly Warm reset. -/
  | orderlyWarmReset (p : Path) (val : BitVec 32)
  /-- IMMEDIATE_WARM_RESET (R448). CHIP_RSTCTL with WARM and not ORDERLY asserts main-die reset at once. -/
  | immediateWarmReset (p : Path) (val : BitVec 32)
  /-- DRAIN_COMPLETE (R448). The orderly drain ends and main-die reset is asserted for 1 ms. -/
  | drainComplete
  /-- DRAIN_TIMEOUT (R448). The drain passes DRAINLIM and becomes an immediate reset. -/
  | drainTimeout
  /-- WARM_HOLD_END (R448). The 1 ms reset hold ends and the start of Table 21-2 begins. -/
  | warmHoldEnd (newest : Bool) (older : Bool)
  /-- GTC_SYNC_PULSE (R454). A GTC leader drives a pulse whenever GTC bits 19:0 are 0. -/
  | gtcSyncPulse
  /-- GTC_SYNC_EDGE (R454). A follower samples a GTC_SYNC edge, slews, steps or loads its GTC. -/
  | gtcSyncEdge
  /-- GET_ID (R458). Sideband command 0x01 returns the device identity. -/
  | getId (f : SbFrom) (args : List Byte)
  /-- GET_STATUS (R458). Sideband command 0x02 returns status copies. -/
  | getStatus (f : SbFrom) (args : List Byte)
  /-- GET_RECORD (R459). Sideband command 0x03 returns an error record from the ring or the always-on store. -/
  | getRecord (f : SbFrom) (args : List Byte)
  /-- GET_TELEM (R458). Sideband command 0x04 returns thermal and power telemetry. -/
  | getTelem (f : SbFrom) (args : List Byte)
  /-- READ (R460). Sideband command 0x10 reads control-window words through the bridge, or returns RETRY and wakes the device. -/
  | readWords (f : SbFrom) (args : List Byte)
  /-- WRITE (R460). Sideband command 0x11 writes control-window words through the bridge. -/
  | writeWords (f : SbFrom) (args : List Byte)
  /-- SIDEBAND_RESET_ORDERLY (R459). Sideband RESET with kind 0x01 starts an orderly Warm reset. -/
  | sidebandResetOrderly (f : SbFrom) (rest : List Byte)
  /-- SIDEBAND_RESET_IMMEDIATE (R389). Sideband RESET with kind 0x02 asserts main-die reset within 10 µs. -/
  | sidebandResetImmediate (f : SbFrom) (rest : List Byte)
  /-- CLEAR_ALERT (R461). Sideband command 0x21 releases SMB_ALERT_N until a new cause arises. -/
  | clearAlert (f : SbFrom) (args : List Byte)
  /-- ALERT_RESPONSE (R461). A read through the SMBus Alert Response Address releases SMB_ALERT_N. -/
  | alertResponse
  /-- SMBUS_TIMEOUT (R457). An SMBus bus timeout measured on AOT1 expires. -/
  | smbusTimeout
  /-- I3C_ADDRESS_ASSIGNMENT (R457). SETDASA or ENTDAA assigns the I3C target's dynamic address. -/
  | i3cAddressAssignment (setdasa : Option (BitVec 7)) (addr : BitVec 7)
  /-- SENSOR_POLL (R462). Every 1 ms the junction sensors are read into MG_THERM and WARN is set above THWARN. -/
  | sensorPoll (temps : BitVec 32) (pwr : BitVec 64)
  /-- TAP_INSTRUCTION (R464). An instruction loaded into the TAP takes effect, or is replaced by BYPASS and recorded. -/
  | tapInstruction (ins : TapInstr)
  /-- SPDM_REQUEST (R465). An SPDM 1.3 request over DOE is answered for identity, measurement or session setup. -/
  | spdmRequest (port : Fin 32) (req : SpdmReq)
  /-- SET_KEK (R466). An SPDM SET_KEK in a secured session replaces the pending DK6 or DK7. -/
  | setKek (port : Fin 32) (selector : BitVec 16) (key : BitVec 256)
  /-- SET_CERTIFICATE (R465). SET_CERTIFICATE in a secured session sets a slot 1 to 7 chain, refused while SECLK = 1. -/
  | setCertificate (port : Fin 32) (slot : Fin 8) (chain : List Byte)
  /-- SPDM_KEY_DELIVERY (R153). A vendor-defined SPDM key delivery installs a domain key with KEKSEL 0xFF. -/
  | spdmKeyDelivery (port : Fin 32) (blob : BitVec 960)
  /-- IDE_KM (R313). IDE keys are delivered by IDE_KM over a secured SPDM session. -/
  | ideKm (port : Fin 32) (io : Bool) (key : BitVec 256)
  /-- LOCK_WRITE (R467). A write of MG_LOCK sets LOCK bits, which then cannot be cleared until Cold or Warm reset. -/
  | lockWrite (p : Path) (val : BitVec 32)
  /-- REGULATOR_COMMIT (R224). RGL_COMMIT.GO with OP 0 checks the staged regulator settings against FLOOR and the credit sums and commits them for the next window boundary. -/
  | regulatorCommit (p : Path)
  /-- REGULATOR_COPY_TO_STAGING (R238). RGL_COMMIT.GO with OP 1 copies the committed regulator settings into the path's staging registers. -/
  | regulatorCopyToStaging (p : Path)
  /-- CXL_LINK_UP (R314). A CXL port's link reaches L0, fixing its flit mode and HDM-DB or HDM-H operation and resending outstanding BISnp. -/
  | cxlLinkUp (port : Fin 32) (rate : Fin 6) (flits256 : Bool) (biEnabled : Bool)
  /-- PORT_L1_ENTRY (R430). A CXL port's link enters L1, changing the inputs of the power-state limit. -/
  | portL1Entry (port : Fin 32)
  /-- BISNP_CREDIT (R302). The host returns an S2M BISnp credit, letting a waiting BISnp be sent. -/
  | bisnpCredit (port : Fin 32)
  /-- PRBS_LOCK (R253). A PRBS checker sees 64 consecutive error-free bits, seeds itself and locks, starting its bit and error counters. -/
  | prbsLock (group : Fin 16) (lane : Fin 9)
  /-- LANE_ACTIVE (R247). A lane finishes CDR lock and adaptation and is reported Active to the link layer. -/
  | laneActive (group : Fin 16) (lane : Fin 9) (pol : Bool) (ctle : Fin 41) (vga : Fin 32) (taps : BitVec 128)
  /-- RING_ANSWER_TIMEOUT (R459). The chip control ring does not answer a sideband access within 100 µs, so the access returns NOT_DELIVERED or the always-on copy with STALE_COPY. -/
  | ringAnswerTimeout (f : SbFrom) (acc : SbAccess)
  /-- FEED_DIE_SUPPLY_LOSS (R406). The feed die's supply falls below 7 V and it takes a feed-die power-on reset. -/
  | feedDieSupplyLoss
deriving DecidableEq, Repr

end Sys2Proof
end

