-- ==== Sys2Proof/Decode.lean ====
section
/-!
DEFINITION. Commands spelled by bits: the table of operations gives its rows no bits, so that no word spells a command. The
words the spec does encode (Grihar instructions, flits, descriptors, TBC-1 blocks, records) are operands or parts of the state,
and the meanings decode them.
-/
namespace Sys2Proof

/-- The command that a word of the table's bits spells: the table gives no row bits, so none does. -/
def decodeTableWord (_nbits _w : Nat) : Option Instr := none

end Sys2Proof
end

