-- ==== Sys2Proof/Config.lean ====
section
/-!
DEFINITION. What the spec leaves to the device: values drawn from its entropy source or fixed in its fuses, and limits taken
from standards the spec only names. Each is a constant with no body, so nothing can be proved of its
value.
-/
namespace Sys2Proof.Config

/-- The 256-bit words the device's CTR_DRBG gives, by the number of the draw (R150, R152). -/
opaque drbg : Nat → BitVec 256
/-- The 32-bit nonces and boot epochs a link's start draws, by the number of the draw (R287). -/
opaque nonce : Nat → BitVec 32
/-- A value the spec leaves open, by the number of the draw. -/
opaque free : Nat → BitVec 512
/-- Words of a ROM program's code image, less one (R316, R317, R341): an image holds a word at least, and fits its SRAM of
256 KiB (DEDUCED, assumption 3). -/
opaque romWords : Nat → Fin 65536
/-- Bytes of a ROM program's code image. -/
def romBytes (p : Nat) : Nat := 4 * ((romWords p).val + 1)
/-- Refreshes a rank may postpone by the DDR5 standard, by whether same-bank refresh is in force (R172). -/
opaque refreshLimit : Bool → Nat
/-- Refreshes a rank may have pulled in by the DDR5 standard, by whether same-bank refresh is in force (R172). -/
opaque pullInLimit : Bool → Nat
/-- The rolling activate count at which the DDR5 standard asks for refresh management of a bank, less 32 (R175). -/
opaque managementLimit : Nat
/-- Messages of one class that a mesh link's buffer holds beyond the first (R25: the spec gives no depth; DESIGN CHOICE, assumption
106). -/
opaque meshDepth : Nat
/-- The identity fuses: vendor, device and serial number words (R458). -/
opaque identity : Nat → Byte
/-- The Peat log sealing key DK5, derived from fuses (Table 07-5). -/
opaque sealKey : BitVec 256
/-- Spare rows of a bank group of a rank that post-package repair can use (R183). -/
opaque spareRows : Nat
/-- The extent, as channel * 2^20 + extent, whose use a line of the allocation tables holds; the spec does not give their
layout (R100, R386). -/
opaque allocExtent : Nat → Nat
/-- The kind byte that an RH_PRESSURE, DIMM_HOT or TS_FAIL event carries, by the type of its record (Table 15-2 gives no
codes). -/
opaque eventKind : Nat → Nat

/-- The FFE taps of a preset asked for in Equalise, as `PGg_LNl_TXEQ` bits 17:3; the spec does not list the presets (R286, R287). -/
opaque ffePreset : Nat → BitVec 15

/-- The FFE preset that a lane's receiver asks of the peer, by group * 16 + lane, modulo 11; the spec says only that it asks (R286, R287). -/
opaque wantedPreset : Nat → Nat

/-- The pages a heat scan has visited when it is cancelled or its domain goes, by the number of the draw; it depends on the scan's speed
(R326, R327). -/
opaque scanProgress : Nat → Nat

/-- The payload of a page of the Peat log, by the sequence number of its write; the spec gives no layout of an object's payload (R392,
R394). -/
opaque pagePayload : Nat → BitVec 3904

/-- The pages an object of the Peat log takes, by its stream and by how much it holds; the spec gives no layout of an object's
payload (R392 to R394). A record set of n records takes no more than n pages. -/
opaque objectPages : Nat → Nat → Nat

end Sys2Proof.Config
end

