-- ==== Sys2Proof/Machine/Tab.lean ====
section
/-!
DEFINITION. Indexed state as plain data: a table lists (key, value) pairs with strictly rising keys and no entry equal to
what an unlisted key reads as, so equal tables are equal data. Every register, memory line, queue slot and unit of the
block that has an index is held in one.
-/
namespace Sys2Proof.Machine

/-- A table in canonical form: keys strictly rise, and no entry holds the value an unlisted key reads as. -/
structure Tab (α : Type) where
  cells : List (Nat × α)
deriving DecidableEq, Repr, Inhabited

/-- The table with nothing listed. -/
def Tab.empty {α : Type} : Tab α := ⟨[]⟩

/-- What a list of cells holds at a key; `d` where the key is not listed. -/
def cellGet {α : Type} (d : α) : List (Nat × α) → Nat → α
  | [], _ => d
  | (k, v) :: t, i => if i = k then v else cellGet d t i

/-- The cells with one more, before the first of a greater key. -/
def cellIns {α : Type} : List (Nat × α) → Nat → α → List (Nat × α)
  | [], i, v => [(i, v)]
  | c :: t, i, v => if i < c.1 then (i, v) :: c :: t else c :: cellIns t i v

/-- The cells with key `i` made to hold `v`, or unlisted when `v` is what an unlisted key reads as. -/
def cellPut {α : Type} [DecidableEq α] (d : α) (l : List (Nat × α)) (i : Nat) (v : α) : List (Nat × α) :=
  let r := l.filter fun c => c.1 != i
  if v = d then r else cellIns r i v

/-- The table's value at a key, `d` where it is unlisted. -/
def Tab.getD {α : Type} (d : α) (t : Tab α) (i : Nat) : α := cellGet d t.cells i

/-- The table with key `i` holding `v`. -/
def Tab.putD {α : Type} [DecidableEq α] (d : α) (t : Tab α) (i : Nat) (v : α) : Tab α := ⟨cellPut d t.cells i v⟩

/-- The table's value at a key, the type's default where it is unlisted. -/
def Tab.get {α : Type} [Inhabited α] (t : Tab α) (i : Nat) : α := t.getD default i

/-- The table with key `i` holding `v`, unlisted keys reading as the type's default. -/
def Tab.put {α : Type} [DecidableEq α] [Inhabited α] (t : Tab α) (i : Nat) (v : α) : Tab α := t.putD default i v

/-- The table with the value at key `i` changed by `f`. -/
def Tab.upd {α : Type} [DecidableEq α] [Inhabited α] (t : Tab α) (i : Nat) (f : α → α) : Tab α := t.put i (f (t.get i))

/-- The table without the keys that `p` names: they read as the default again. -/
def Tab.drop {α : Type} (t : Tab α) (p : Nat → Bool) : Tab α := ⟨t.cells.filter fun c => !p c.1⟩

/-- Keys strictly rise along a list of cells. -/
def risingKeys {α : Type} : List (Nat × α) → Bool
  | [] => true
  | [_] => true
  | (k, _) :: (k', v') :: t => decide (k < k') && risingKeys ((k', v') :: t)

/-- The canonical form: keys strictly rise and no entry equals what its key reads as when unlisted. -/
def Tab.wfD {α : Type} [DecidableEq α] (d : Nat → α) (t : Tab α) : Bool :=
  risingKeys t.cells && t.cells.all fun c => decide (c.2 ≠ d c.1)

/-- The canonical form of a table whose unlisted keys read as the type's default. -/
def Tab.wf {α : Type} [DecidableEq α] [Inhabited α] (t : Tab α) : Bool := t.wfD fun _ => default

end Sys2Proof.Machine
end

