-- ==== Sys2Proof/Machine/Aes.lean ====
section
/-!
DEFINITION. The cryptographic functions that R142, R145 and R153 name: AES-256, XTS with ciphertext stealing to
IEEE 1619, AES-CMAC to NIST SP 800-38B, and AES Key Wrap to NIST SP 800-38F. The spec names the standards and does not
repeat them; their content is PRESUMED (assumption 12).
-/
namespace Sys2Proof.Machine

/-- The `n` bytes of a word, least significant first (R13). -/
def leBytes {w : Nat} : Nat → BitVec w → List Byte
  | 0, _ => []
  | n + 1, x => x.setWidth 8 :: leBytes n (x >>> 8)

/-- The word whose bytes, least significant first, are the list. -/
def ofLe (w : Nat) : List Byte → BitVec w
  | [] => 0
  | b :: t => (ofLe w t <<< 8) ||| b.setWidth w

/-- The bytes of a word, most significant first. -/
def beBytes {w : Nat} (n : Nat) (x : BitVec w) : List Byte := (leBytes n x).reverse

/-- The word whose bytes, most significant first, are the list. -/
def ofBe (w : Nat) (bs : List Byte) : BitVec w := ofLe w bs.reverse

/-- Multiplication by x in the AES field. -/
def aesXtime (a : Byte) : Byte := (a <<< 1) ^^^ (if a.msb then 0x1B else 0)

/-- Multiplication in the AES field, over the low `n` bits of `b`. -/
def aesMulLoop : Nat → Byte → Byte → Byte
  | 0, _, _ => 0
  | n + 1, a, b => (if b.getLsbD 0 then a else 0) ^^^ aesMulLoop n (aesXtime a) (b >>> 1)

/-- Multiplication in the AES field. -/
def aesMul (a b : Byte) : Byte := aesMulLoop 8 a b

/-- The inverse in the AES field, 0 for 0: the power 254. -/
def aesInv (a : Byte) : Byte :=
  let a2 := aesMul a a
  let a4 := aesMul a2 a2
  let a8 := aesMul a4 a4
  let a16 := aesMul a8 a8
  let a32 := aesMul a16 a16
  let a64 := aesMul a32 a32
  let a128 := aesMul a64 a64
  aesMul a128 (aesMul a64 (aesMul a32 (aesMul a16 (aesMul a8 (aesMul a4 a2)))))

/-- The AES substitution. -/
def aesSub (a : Byte) : Byte :=
  let i := aesInv a
  i ^^^ i.rotateLeft 1 ^^^ i.rotateLeft 2 ^^^ i.rotateLeft 3 ^^^ i.rotateLeft 4 ^^^ 0x63

/-- The inverse substitution. -/
def aesInvSub (a : Byte) : Byte := aesInv (a.rotateLeft 1 ^^^ a.rotateLeft 3 ^^^ a.rotateLeft 6 ^^^ 0x05)

/-- Exclusive-OR of byte lists of one length. -/
def xorBytes : List Byte → List Byte → List Byte
  | a :: as, b :: bs => (a ^^^ b) :: xorBytes as bs
  | as, [] => as
  | [], _ => []

/-- The AES state is 16 bytes, column by column. Row `r` of column `c` is byte 4c + r. -/
def aesShiftRows (s : List Byte) : List Byte :=
  (List.range 16).map fun i => s.getD ((i + 4 * (i % 4)) % 16) 0

/-- The inverse row shift. -/
def aesInvShiftRows (s : List Byte) : List Byte :=
  (List.range 16).map fun i => s.getD ((i + 16 - 4 * (i % 4)) % 16) 0

/-- One column through the matrix whose first row is `m0 m1 m2 m3`, each later row that row rotated. -/
def aesMixWith (m0 m1 m2 m3 : Byte) (s : List Byte) : List Byte :=
  (List.range 16).map fun i =>
    let c := i / 4 * 4
    let b := fun r => s.getD (c + (i + r) % 4) 0
    aesMul m0 (b 0) ^^^ aesMul m1 (b 1) ^^^ aesMul m2 (b 2) ^^^ aesMul m3 (b 3)

/-- The round constants' powers of x. -/
def aesRcon : Nat → Byte
  | 0 => 1
  | n + 1 => aesXtime (aesRcon n)

/-- The AES-256 key schedule, newest word first, after `n` more words. -/
def aesExpandLoop : Nat → Nat → List (List Byte) → List (List Byte)
  | 0, _, ws => ws
  | n + 1, i, ws =>
    let prev := ws.getD 0 []
    let t :=
      if i % 8 = 0 then
        xorBytes ((prev.drop 1 ++ prev.take 1).map aesSub) [aesRcon (i / 8 - 1), 0, 0, 0]
      else if i % 8 = 4 then prev.map aesSub
      else prev
    aesExpandLoop n (i + 1) (xorBytes (ws.getD 7 []) t :: ws)

/-- The 15 round keys of a 32-byte key, first first. -/
def aesRoundKeys (key : List Byte) : List (List Byte) :=
  let w0 := (List.range 8).map fun i => (key.drop (4 * i)).take 4
  let ws := (aesExpandLoop 52 8 w0.reverse).reverse
  (List.range 15).map fun r => ((ws.drop (4 * r)).take 4).flatten

/-- The middle rounds of encryption. -/
def aesRounds : List (List Byte) → List Byte → List Byte
  | [], s => s
  | [k], s => xorBytes (aesShiftRows (s.map aesSub)) k
  | k :: ks, s => aesRounds ks (xorBytes (aesMixWith 2 3 1 1 (aesShiftRows (s.map aesSub))) k)

/-- AES-256 encryption of one 16-byte block. -/
def aesEnc (key s : List Byte) : List Byte :=
  match aesRoundKeys key with
  | k :: ks => aesRounds ks (xorBytes s k)
  | [] => s

/-- The middle rounds of decryption, over the round keys last first. -/
def aesInvRounds : List (List Byte) → List Byte → List Byte
  | [], s => s
  | [k], s => xorBytes ((aesInvShiftRows s).map aesInvSub) k
  | k :: ks, s =>
    aesInvRounds ks (aesMixWith 14 11 13 9 (xorBytes ((aesInvShiftRows s).map aesInvSub) k))

/-- AES-256 decryption of one 16-byte block. -/
def aesDec (key s : List Byte) : List Byte :=
  match (aesRoundKeys key).reverse with
  | k :: ks => aesInvRounds ks (xorBytes s k)
  | [] => s

/-- The tweak of the next block: the tweak times the primitive element of IEEE 1619's field. -/
def xtsNext (t : BitVec 128) : BitVec 128 := (t <<< 1) ^^^ (if t.msb then 0x87 else 0)

/-- One block under XTS, `f` the block cipher in its direction. -/
def xtsBlock (f : List Byte → List Byte) (t : BitVec 128) (p : List Byte) : List Byte :=
  let tb := leBytes 16 t
  xorBytes (f (xorBytes p tb)) tb

/-- XTS encryption of a unit of `full` whole blocks, with stealing over what is left after them (IEEE 1619). -/
def xtsEncLoop (f : List Byte → List Byte) : Nat → BitVec 128 → List Byte → List Byte
  | 0, _, _ => []
  | 1, t, p =>
    let tail := p.drop 16
    if tail.isEmpty then xtsBlock f t p
    else
      let cc := xtsBlock f t (p.take 16)
      xtsBlock f (xtsNext t) (tail ++ cc.drop tail.length) ++ cc.take tail.length
  | n + 2, t, p => xtsBlock f t (p.take 16) ++ xtsEncLoop f (n + 1) (xtsNext t) (p.drop 16)

/-- XTS decryption, the reverse of `xtsEncLoop`. -/
def xtsDecLoop (f : List Byte → List Byte) : Nat → BitVec 128 → List Byte → List Byte
  | 0, _, _ => []
  | 1, t, c =>
    let tail := c.drop 16
    if tail.isEmpty then xtsBlock f t c
    else
      let pp := xtsBlock f (xtsNext t) (c.take 16)
      xtsBlock f t (tail ++ pp.drop tail.length) ++ pp.take tail.length
  | n + 2, t, c => xtsBlock f t (c.take 16) ++ xtsDecLoop f (n + 1) (xtsNext t) (c.drop 16)

/-- XTS-AES-256 encryption of a data unit of at least 16 bytes under its tweak (R142, R143). -/
def xtsEnc (k1 k2 : BitVec 256) (tweak : BitVec 128) (p : List Byte) : List Byte :=
  xtsEncLoop (aesEnc (leBytes 32 k1)) (p.length / 16) (ofLe 128 (aesEnc (leBytes 32 k2) (leBytes 16 tweak))) p

/-- XTS-AES-256 decryption. -/
def xtsDec (k1 k2 : BitVec 256) (tweak : BitVec 128) (c : List Byte) : List Byte :=
  xtsDecLoop (aesDec (leBytes 32 k1)) (c.length / 16) (ofLe 128 (aesEnc (leBytes 32 k2) (leBytes 16 tweak))) c

/-- CMAC's chaining over the message; the fuel bounds its blocks. -/
def cmacLoop (f : List Byte → List Byte) (k1 k2 : List Byte) : Nat → List Byte → List Byte → List Byte
  | 0, x, _ => x
  | n + 1, x, m =>
    if m.length > 16 then cmacLoop f k1 k2 n (f (xorBytes x (m.take 16))) (m.drop 16)
    else if m.length = 16 then f (xorBytes x (xorBytes m k1))
    else f (xorBytes x (xorBytes (m ++ 0x80 :: List.replicate (15 - m.length) 0) k2))

/-- AES-256-CMAC of a message (NIST SP 800-38B): 16 bytes. -/
def aesCmac (key : BitVec 256) (m : List Byte) : List Byte :=
  let f := aesEnc (leBytes 32 key)
  let k1 := xtsNext (ofBe 128 (f (List.replicate 16 0)))
  let k2 := xtsNext k1
  cmacLoop f (beBytes 16 k1) (beBytes 16 k2) (m.length / 16 + 1) (List.replicate 16 0) m

/-- The unwrapping steps of Key Wrap, `t` counting down; `rs` holds the semiblocks, the last first. Each step takes the
semiblock at the head and puts its replacement at the end. -/
def kwLoop (f : List Byte → List Byte) : Nat → List Byte → List (List Byte) → List Byte × List (List Byte)
  | 0, a, rs => (a, rs)
  | t + 1, a, rs =>
    match rs with
    | [] => (a, [])
    | r :: rest =>
      let b := f (xorBytes a (beBytes 8 (BitVec.ofNat 64 (t + 1))) ++ r)
      kwLoop f t (b.take 8) (rest ++ [b.drop 8])

/-- AES Key Wrap's authenticated unwrapping (NIST SP 800-38F, KW): the plaintext, or none where the integrity check
fails. -/
def kwUnwrap (kek : BitVec 256) (c : List Byte) : Option (List Byte) :=
  let n := c.length / 8 - 1
  let rs := ((List.range n).map fun i => (c.drop (8 * (i + 1))).take 8).reverse
  let (a, ps) := kwLoop (aesDec (leBytes 32 kek)) (6 * n) (c.take 8) rs
  if a = List.replicate 8 0xA6 then some ps.reverse.flatten else none

/-- The wrapping steps, for tests of the unwrapping. -/
def kwWrapLoop (f : List Byte → List Byte) : Nat → Nat → List Byte → List (List Byte) → List Byte × List (List Byte)
  | 0, _, a, rs => (a, rs)
  | n + 1, t, a, rs =>
    match rs with
    | [] => (a, [])
    | r :: rest =>
      let b := f (a ++ r)
      kwWrapLoop f n (t + 1) (xorBytes (b.take 8) (beBytes 8 (BitVec.ofNat 64 t))) (rest ++ [b.drop 8])

/-- AES Key Wrap of a plaintext of whole semiblocks. -/
def kwWrap (kek : BitVec 256) (p : List Byte) : List Byte :=
  let n := p.length / 8
  let rs := (List.range n).map fun i => (p.drop (8 * i)).take 8
  let (a, cs) := kwWrapLoop (aesEnc (leBytes 32 kek)) (6 * n) 1 (List.replicate 8 0xA6) rs
  a ++ cs.flatten

end Sys2Proof.Machine
end

