-- ==== Sys2Proof/Machine/Ecc.lean ====
section
/-!
DEFINITION. The Reed-Solomon code of stored lines (R190 to R195): the field, the encoder, bounded-distance decoding with
erasures, the poison word, and the procedure each read is decoded by. The decoder's parts take the number of check symbols
and of symbols, so that another code over the same field uses them too.
-/
namespace Sys2Proof.Machine

/-- Multiplication by α in GF(2^8) with field polynomial 0x11D (R190). -/
def gfX (a : Byte) : Byte := (a <<< 1) ^^^ (if a.msb then 0x1D else 0)

/-- Multiplication over the low `n` bits of `b`. -/
def gfMulLoop : Nat → Byte → Byte → Byte
  | 0, _, _ => 0
  | n + 1, a, b => (if b.getLsbD 0 then a else 0) ^^^ gfMulLoop n (gfX a) (b >>> 1)

/-- Multiplication in the field. -/
def gfMul (a b : Byte) : Byte := gfMulLoop 8 a b

/-- Powers of α. -/
def gfPow : Nat → Byte
  | 0 => 1
  | n + 1 => gfX (gfPow n)

/-- The inverse in the field, 0 for 0: the power 254. -/
def gfInv (a : Byte) : Byte :=
  let a2 := gfMul a a
  let a4 := gfMul a2 a2
  let a8 := gfMul a4 a4
  let a16 := gfMul a8 a8
  let a32 := gfMul a16 a16
  let a64 := gfMul a32 a32
  let a128 := gfMul a64 a64
  gfMul a128 (gfMul a64 (gfMul a32 (gfMul a16 (gfMul a8 (gfMul a4 a2)))))

/-- A polynomial's value at a point; coefficients lowest first. -/
def polyEval (p : List Byte) (x : Byte) : Byte := p.foldr (fun c acc => c ^^^ gfMul x acc) 0

/-- Sum of polynomials. -/
def polyAdd : List Byte → List Byte → List Byte
  | a :: as, b :: bs => (a ^^^ b) :: polyAdd as bs
  | [], bs => bs
  | as, [] => as

/-- A polynomial times a constant. -/
def polyScale (c : Byte) (p : List Byte) : List Byte := p.map (gfMul c)

/-- Product of polynomials. -/
def polyMul : List Byte → List Byte → List Byte
  | [], _ => []
  | a :: as, q => polyAdd (polyScale a q) (0 :: polyMul as q)

/-- A polynomial without its zero leading coefficients. -/
def polyTrim (p : List Byte) : List Byte := (p.reverse.dropWhile (· == 0)).reverse

/-- Division with remainder of `r` by a trimmed nonzero `d`: quotient and remainder; the fuel bounds the steps. -/
def polyDivLoop (d : List Byte) : Nat → List Byte → List Byte → List Byte × List Byte
  | 0, q, r => (q, polyTrim r)
  | n + 1, q, r =>
    let r := polyTrim r
    if r.length < d.length then (q, r)
    else
      let c := gfMul (r.getLastD 0) (gfInv (d.getLastD 0))
      let t := List.replicate (r.length - d.length) 0 ++ [c]
      polyDivLoop d n (polyAdd q t) ((polyAdd r (polyMul t d)).take (r.length - 1))

/-- The derivative in characteristic 2. -/
def polyDeriv (p : List Byte) : List Byte :=
  (p.drop 1).zipIdx.map fun c => if c.2 % 2 = 0 then c.1 else 0

/-- The generator polynomial with roots α^0 to α^(t-1) (R190). -/
def rsGen : Nat → List Byte
  | 0 => [1]
  | t + 1 => polyMul (rsGen t) [gfPow t, 1]

/-- The remainder of m(x) x^t by g(x), the data taken highest coefficient first. -/
def rsCheckLoop (g : List Byte) : List Byte → List Byte → List Byte
  | [], st => st
  | d :: ds, st =>
    let fb := d ^^^ st.getLastD 0
    rsCheckLoop g ds (polyAdd (0 :: st.dropLast) (polyScale fb (g.dropLast)))

/-- The `t` check symbols of a message, symbol 0 first (R190). -/
def rsCheck (t : Nat) (data : List Byte) : List Byte :=
  rsCheckLoop (rsGen t) data.reverse (List.replicate t 0)

/-- The syndromes S_0 to S_(t-1) of a word (R190). -/
def rsSyndromes (t : Nat) (w : List Byte) : List Byte := (List.range t).map fun i => polyEval w (gfPow i)

/-- The locator polynomial of a set of positions. -/
def rsLocator (ps : List Nat) : List Byte := ps.foldr (fun p acc => polyMul [1, gfPow p] acc) [1]

/-- Euclid's algorithm on x^t and the modified syndromes, stopping below degree (t + f) / 2: locator and evaluator. -/
def rsEuclid (t f : Nat) : Nat → List Byte → List Byte → List Byte → List Byte → List Byte × List Byte
  | 0, _, r1, _, v1 => (v1, r1)
  | n + 1, r0, r1, v0, v1 =>
    if r1.isEmpty || 2 * (r1.length - 1) < t + f then (v1, r1)
    else
      let (q, r2) := polyDivLoop r1 (r0.length + 1) [] r0
      rsEuclid t f n r1 r2 v1 (polyTrim (polyAdd v0 (polyMul q v1)))

/-- The word with the error values that the locator and evaluator give at the positions (Forney). -/
def rsFix (ps : List Nat) (psi om : List Byte) (w : List Byte) : List Byte :=
  let dpsi := polyDeriv psi
  w.zipIdx.map fun c =>
    if ps.contains c.2 then
      let x := gfPow c.2
      let xi := gfInv x
      c.1 ^^^ gfMul x (gfMul (polyEval om xi) (gfInv (polyEval dpsi xi)))
    else c.1

/-- dec(w, M, e) of R195 for a code of `t` check symbols: bounded-distance decoding with erasures `er` and at most `e`
further symbol errors. It answers the corrected word and the number of errors outside the erasures, or fails. -/
def rsDecode (t : Nat) (w : List Byte) (er : List Nat) (e : Nat) : Option (List Byte × Nat) :=
  let s := rsSyndromes t w
  if s.all (· == 0) then some (w, 0)
  else
    let gam := rsLocator er
    let xi := polyTrim ((polyMul s gam).take t)
    let (lam, om) :=
      if e = 0 then ([1], xi)
      else rsEuclid t er.length (t + 1) (List.replicate t 0 ++ [1]) xi [] [1]
    let found := (List.range w.length).filter fun p => polyEval lam (gfInv (gfPow p)) == 0
    let c0 := gfInv (lam.getD 0 0)
    let w' := rsFix (er ++ found) (polyMul (polyScale c0 lam) gam) (polyScale c0 om) w
    let k := ((w.zip w').zipIdx.filter fun x => x.1.1 != x.1.2 && !er.contains x.2).length
    if lam.getD 0 0 != 0 && k ≤ e && (rsSyndromes t w').all (· == 0) then some (w', k) else none

/-- The code word of 64 stored bytes (R190). -/
def eccEncode (stored : Line) : CodeWord :=
  (stored.setWidth 640 <<< 128) ||| (ofLe 128 (rsCheck 16 (leBytes 64 stored))).setWidth 640

/-- The stored bytes of a code word: symbols 16 to 79. -/
def eccData (w : CodeWord) : Line := (w >>> 128).setWidth 512

/-- The poison word: 0x5A in every fourth symbol, two in each nibble (R194). -/
def poisonWord : CodeWord := ofLe 640 ((List.range 80).map fun s => if s % 4 = 0 then 0x5A else 0)

/-- The poison form of stored bytes (R194). -/
def eccPoison (stored : Line) : CodeWord := eccEncode stored ^^^ poisonWord

/-- The symbols that a mask of marked nibbles covers: nibble j holds symbols 8j to 8j+7 (R191, R193). -/
def markedSymbols (mask : BitVec 10) : List Nat := (List.range 80).filter fun s => mask.getLsbD (s / 8)

/-- The correction limit e_max of R193. -/
def eccLimit (tlim f : Nat) : Nat := min tlim ((16 - f) / 2)

/-- What a read decodes to (R195). `clean` and the corrected forms carry the stored bytes; `uncorrectable` carries the
bytes as read. -/
inductive Decoded where
  | clean (stored : Line)
  | poison (stored : Line)
  | corrected (stored : Line) (errs : Nat)
  | poisonCorrected (stored : Line) (errs : Nat)
  | uncorrectable (stored : Line)
deriving DecidableEq, Repr

/-- The stored bytes a decode result carries. -/
def Decoded.stored : Decoded → Line
  | .clean b | .poison b | .corrected b _ | .poisonCorrected b _ | .uncorrectable b => b

/-- `line_decode` of R195: the word as read, the marked nibbles of its rank, and `TLIM`. -/
def lineDecode (r : CodeWord) (mask : BitVec 10) (tlim : Nat) : Decoded :=
  let er := markedSymbols mask
  let f := er.length
  let e := eccLimit tlim f
  let d := fun (w : CodeWord) (k : Nat) => rsDecode 16 (leBytes 80 w) er k
  let bytes := fun (w : List Byte) => eccData (ofLe 640 w)
  match d r 0 with
  | some (w, _) => .clean (bytes w)
  | none =>
    match (if f < 16 then d (r ^^^ poisonWord) 0 else none) with
    | some (w, _) => .poison (bytes w)
    | none =>
      match d r e with
      | some (w, k) => .corrected (bytes w) k
      | none =>
        match (if f < 16 then d (r ^^^ poisonWord) e else none) with
        | some (w, k) => .poisonCorrected (bytes w) k
        | none => .uncorrectable (eccData r)

/-- The RESULT code of Table 09-9 for a decode. -/
def Decoded.code : Decoded → Nat
  | .clean _ => 1
  | .corrected _ _ => 2
  | .poison _ => 3
  | .poisonCorrected _ _ => 4
  | .uncorrectable _ => 5

/-- Symbols corrected outside the marked set. -/
def Decoded.errs : Decoded → Nat
  | .corrected _ k | .poisonCorrected _ k => k
  | _ => 0

end Sys2Proof.Machine
end

