-- ==== Sys2Proof/Machine/Tbc.lean ====
section
/-!
DEFINITION. TBC-1, the format of every Charcoal block (R125 to R134): the decoder of R130 and the encoder the Edlis
itself uses (R131 to R133).
-/
namespace Sys2Proof.Machine

/-- Bytes of a block hold 1,024 entries (R125). -/
def tbcBlockBytes : Nat := 1024

/-- A byte of a Nat below 256. -/
def byteOf (n : Nat) : Byte := BitVec.ofNat 8 n

/-- A copy of `len` bytes at offset `f` onto the output, which is kept newest byte first (R129): each byte copied is the
one `f` places back, so a source may overlap what is being written. -/
def tbcCopy (f : Nat) : Nat → List Byte → List Byte
  | 0, out => out
  | len + 1, out => tbcCopy f len (out.getD (f - 1) 0 :: out)

/-- A match of length `len` at offset `f`, refused where it reaches before the output or past 1,024 bytes (R130). -/
def tbcMatch (f len : Nat) (out : List Byte) : Option (List Byte) :=
  if f > out.length || out.length + len > tbcBlockBytes then none else some (tbcCopy f len out)

/-- The token loop of R130's procedure over the bytes of the body. `out` holds the output newest first, `last` the last
offset; the fuel bounds the tokens, each of which takes a byte of the body. -/
def tbcTokens : Nat → List Byte → List Byte → Nat → Option (List Byte)
  | _, [], out, _ => if out.length = tbcBlockBytes then some out.reverse else none
  | 0, _ :: _, _, _ => none
  | fuel + 1, t :: rest, out, last =>
    let kind := t.toNat / 64
    let low := t.toNat % 64
    if kind = 0 then
      let len := low + 1
      if rest.length < len || out.length + len > tbcBlockBytes then none
      else tbcTokens fuel (rest.drop len) ((rest.take len).reverse ++ out) last
    else if kind = 1 then
      match rest with
      | b :: rest' =>
        let f := low % 4 * 256 + b.toNat + 1
        match tbcMatch f (low / 4 + 3) out with
        | some out' => tbcTokens fuel rest' out' f
        | none => none
      | [] => none
    else if kind = 2 then
      match rest with
      | b :: c :: rest' =>
        let f := low % 4 * 256 + b.toNat + 1
        if low / 4 ≠ 0 then none
        else match tbcMatch f (c.toNat + 19) out with
          | some out' => tbcTokens fuel rest' out' f
          | none => none
      | _ => none
    else
      match tbcMatch last (low + 3) out with
      | some out' => tbcTokens fuel rest out' last
      | none => none

/-- `tbc1_decode` of R130: the data unit of a stored block of `n` sectors to its 1,024 bytes, or a format fault. -/
def tbcDecode (s : List Byte) (n : Nat) : Option (List Byte) :=
  if n = 0 then some (List.replicate tbcBlockBytes 0)
  else
    let h := (s.getD 0 0).toNat + 256 * (s.getD 1 0).toNat
    let form := h / 16384
    if h / 4096 % 4 ≠ 0 then none
    else if form = 2 then
      if h % 4096 / 32 ≠ 0 || n ≠ 1 then none
      else
        let p := h % 32 + 1
        some ((List.range tbcBlockBytes).map fun i => s.getD (2 + i % p) 0)
    else if form ≠ 1 || h % 4096 / 1024 ≠ 0 then none
    else
      let m := h % 1024
      if m = 0 || m > 1014 || n ≠ (m + 10 + 63) / 64 then none
      else
        let body := (s.drop 2).take m
        if body.length < m then none else tbcTokens m body [] 8

/-- The longest common beginning of two byte lists: `matchlen` of R132 on the block from `p` and from `p - f`. -/
def commonLen : List Byte → List Byte → Nat
  | a :: as, b :: bs => if a = b then commonLen as bs + 1 else 0
  | _, _ => 0

/-- `matchlen(p, f)` of R132. -/
def tbcMatchLen (d : List Byte) (p f : Nat) : Nat := commonLen (d.drop p) (d.drop (p - f))

/-- The hash h(p) of R132 over the four bytes at `p`. -/
def tbcHash (d : List Byte) (p : Nat) : Nat :=
  let b := fun k => (d.getD (p + k) 0).toNat
  (b 0 ^^^ (b 1 * 2) ^^^ (b 2 * 4) ^^^ (b 3 * 8)) % 512

/-- What the parse of R132 emits: a run of literal bytes, or a match of a length at an offset. -/
inductive TbcSeg where
  | lits (bytes : List Byte)
  | mat (len off : Nat)
deriving DecidableEq, Repr

/-- `advance(p, k)` of R132: every position passed enters the table; an entry holds position + 1, 0 for empty. -/
def tbcAdvance (d : List Byte) (tab : Tab Nat) (p : Nat) : Nat → Tab Nat
  | 0 => tab
  | k + 1 =>
    let tab' := tbcAdvance d tab p k
    if p + k ≤ 1020 then tab'.put (tbcHash d (p + k)) (p + k + 1) else tab'

/-- The candidate match of R132 at position `p`: the last offset's, unless the table's is longer. -/
def tbcCandidate (d : List Byte) (tab : Tab Nat) (p last : Nat) : Option (Nat × Nat) :=
  let c := if last ≤ p && tbcMatchLen d p last ≥ 3 then some (last, tbcMatchLen d p last) else none
  let q := tab.get (tbcHash d p)
  if p ≤ 1020 && q ≠ 0 then
    let off := p - (q - 1)
    let l := tbcMatchLen d p off
    match c with
    | none => if l ≥ 4 then some (off, l) else none
    | some (f, n) => if l ≥ 4 && l > n then some (off, l) else some (f, n)
  else c

/-- The parse of R132; the fuel bounds its steps, each of which moves on by at least one byte. `pending` is newest
first. -/
def tbcParse (d : List Byte) : Nat → Nat → Nat → Tab Nat → List Byte → List TbcSeg
  | 0, _, _, _, pending => [.lits pending.reverse]
  | fuel + 1, p, last, tab, pending =>
    if p < tbcBlockBytes then
      match tbcCandidate d tab p last with
      | none => tbcParse d fuel (p + 1) last (tbcAdvance d tab p 1) (d.getD p 0 :: pending)
      | some (f, n) =>
        .lits pending.reverse :: .mat n f :: tbcParse d fuel (p + n) f (tbcAdvance d tab p n) []
    else [.lits pending.reverse]

/-- Literal runs of 64 bytes, the last run shorter (R132); the fuel bounds the runs. -/
def tbcEmitLits : Nat → List Byte → List Byte
  | 0, _ => []
  | fuel + 1, bs =>
    if bs.isEmpty then []
    else
      let run := bs.take 64
      byteOf (run.length - 1) :: run ++ tbcEmitLits fuel (bs.drop 64)

/-- `emit_match` of R133; the fuel bounds the pieces. -/
def tbcEmitMatch : Nat → Nat → Nat → Nat → List Byte
  | 0, _, _, _ => []
  | fuel + 1, n, f, last =>
    if n = 0 then []
    else if f = last && n ≤ 66 then [byteOf (192 + (n - 3))]
    else if n ≤ 18 then [byteOf (64 + (n - 3) * 4 + (f - 1) / 256), byteOf ((f - 1) % 256)]
    else
      let k := min n 274
      let k := if n - k = 1 || n - k = 2 then n - 3 else k
      [byteOf (128 + (f - 1) / 256), byteOf ((f - 1) % 256), byteOf (k - 19)] ++ tbcEmitMatch fuel (n - k) f f

/-- The body: every segment of the parse in token form. -/
def tbcEmit : List TbcSeg → Nat → List Byte
  | [], _ => []
  | .lits bs :: t, last => tbcEmitLits 17 bs ++ tbcEmit t last
  | .mat n f :: t, last => tbcEmitMatch 8 n f last ++ tbcEmit t f

/-- The LZ body of a block (R132, R133). -/
def tbcBody (d : List Byte) : List Byte := tbcEmit (tbcParse d (tbcBlockBytes + 1) 0 8 Tab.empty []) 8

/-- Whether the block repeats with period `p` (R131 step 2). -/
def tbcHasPeriod (d : List Byte) (p : Nat) : Bool := d.drop p == d.take (tbcBlockBytes - p)

/-- The sectors and the plaintext data unit of a header and body: 64 n - 8 bytes, padded with 0x00 (R125, R126). -/
def tbcUnit (header : Nat) (body : List Byte) : Nat × List Byte :=
  let n := (body.length + 10 + 63) / 64
  (n, byteOf (header % 256) :: byteOf (header / 256) :: body ++ List.replicate (64 * n - 10 - body.length) 0)

/-- The compressor's choice of form (R131) and the limit of R134: the sectors and the plaintext data unit of a block,
or INCOMPRESSIBLE. `maxSect` is the `MAXSECT` field, one less than the sectors allowed. -/
def tbcEncode (patEn : Bool) (maxSect : Nat) (d : List Byte) : Option (Nat × List Byte) :=
  if d.all (· == 0) then some (0, [])
  else match (if patEn then [1, 2, 4, 8, 16, 32].find? (tbcHasPeriod d) else none) with
    | some p => some (tbcUnit (2 * 16384 + (p - 1)) (d.take p))
    | none =>
      let body := tbcBody d
      let u := tbcUnit (16384 + body.length) body
      if u.1 > maxSect + 1 then none else some u

end Sys2Proof.Machine
end

