-- ==== Sys2Proof/Machine/Operands.lean ====
section
/-!
DEFINITION. The forms the block's operands and tables take: fields of a domain entry (Table 02-1), of a page map entry
(Table 05-2) and of a directory entry (Table 04-2), and the address arithmetic that the chapters on domains and tiers give
(R38 to R45, R103, R105).
-/
namespace Sys2Proof.Machine

/-- Bits `hi` to `lo` of a word, as a number. -/
def fld {w : Nat} (x : BitVec w) (hi lo : Nat) : Nat := (x.extractLsb' lo (hi - lo + 1)).toNat

/-- The word with bits `hi` to `lo` replaced by `v`. -/
def setFld {w : Nat} (x : BitVec w) (hi lo : Nat) (v : Nat) : BitVec w :=
  let mask : BitVec w := (BitVec.allOnes (hi - lo + 1)).setWidth w <<< lo
  (x &&& ~~~mask) ||| ((BitVec.ofNat w v <<< lo) &&& mask)

/-- One bit of a word. -/
def bit {w : Nat} (x : BitVec w) (i : Nat) : Bool := x.getLsbD i

/-- The numbers of the bits of a word that are 1, lowest first, below `n`. -/
def bitsOf {w : Nat} (n : Nat) (x : BitVec w) : List Nat := (List.range n).filter fun i => x.getLsbD i

/-- A truth value as a field value. -/
def b2n (b : Bool) : Nat := if b then 1 else 0

/-! ### The domain entry -/

/-- A domain table entry (Table 02-1). -/
abbrev Entry := BitVec 512

/-- The Reset value of an entry: 0 but for KWAYS (R40). -/
def entryReset : Entry := setFld (0 : Entry) 367 352 0xFFFF

def Entry.swtag (e : Entry) : Nat := fld e 511 448
def Entry.mirrorLost (e : Entry) : Bool := bit e 400
def Entry.gen (e : Entry) : Nat := fld e 399 384
def Entry.kways (e : Entry) : Nat := fld e 367 352
def Entry.mapBase (e : Entry) : Nat := fld e 345 320
def Entry.wrPorts (e : Entry) : Nat := fld e 319 288
def Entry.rdPorts (e : Entry) : Nat := fld e 287 256
def Entry.member (e : Entry) (m : Nat) : Nat := fld e (192 + 4 * m + 3) (192 + 4 * m)
def Entry.pgran (e : Entry) : Nat := fld e 133 132
def Entry.pways (e : Entry) : Nat := fld e 130 128
def Entry.size (e : Entry) : Nat := fld e 114 89
def Entry.base (e : Entry) : Nat := fld e 88 64
def Entry.valid (e : Entry) : Bool := bit e 63
def Entry.paced (e : Entry) : Bool := bit e 62
def Entry.encrypt (e : Entry) : Bool := bit e 61
def Entry.tag (e : Entry) : Bool := bit e 60
def Entry.ctrView (e : Entry) : Bool := bit e 59
def Entry.scrub (e : Entry) : Nat := fld e 58 57
def Entry.tierPol (e : Entry) : Nat := fld e 56 55
def Entry.repl (e : Entry) : Bool := bit e 54
def Entry.replDev (e : Entry) : Nat := fld e 53 50
def Entry.qclass (e : Entry) : Nat := fld e 49 44
def Entry.chSize (e : Entry) : Nat := fld e 43 42
def Entry.chBase (e : Entry) : Nat := fld e 41 38

/-- The reserved bits of an entry (the RSV rows of Table 02-1). -/
def entryReserved : List (Nat × Nat) := [(447, 401), (383, 368), (351, 346), (191, 134), (131, 131), (127, 115), (37, 0)]

/-- Channel set size N. -/
def Entry.chans (e : Entry) : Nat := 4 * 2 ^ e.chSize
/-- Pool interleave ways W. -/
def Entry.ways (e : Entry) : Nat := 2 ^ e.pways
/-- Pool interleave granularity G in bytes. -/
def Entry.gran (e : Entry) : Nat := if e.pgran = 0 then 4096 else if e.pgran = 1 then 65536 else 2097152
/-- The domain's base DPA (R39). -/
def Entry.baseAddr (e : Entry) : Nat := e.base * 2097152
/-- The domain's length in bytes. -/
def Entry.bytes (e : Entry) : Nat := e.size * 2097152
/-- Whether a DPA lies in the entry's range (R39). -/
def Entry.covers (e : Entry) (dpa : Nat) : Bool :=
  e.valid && decide (e.baseAddr ≤ dpa) && decide (dpa < e.baseAddr + e.bytes)
/-- The offset of a DPA in its domain (R39). -/
def Entry.offset (e : Entry) (dpa : Nat) : Nat := dpa - e.baseAddr
/-- The interleave member of an offset (R43). -/
def Entry.memberOf (e : Entry) (o : Nat) : Nat := o / e.gran % e.ways
/-- The home device of an offset (R43). -/
def Entry.homeDev (e : Entry) (o : Nat) : Nat := e.member (e.memberOf o)
/-- The share offset of an offset on its home device (R43). -/
def Entry.share (e : Entry) (o : Nat) : Nat := o / (e.gran * e.ways) * e.gran + o % e.gran
/-- The domain offset that a share offset of member `m` is (the inverse of R43). -/
def Entry.unshare (e : Entry) (m sh : Nat) : Nat := sh / e.gran * (e.gran * e.ways) + m * e.gran + sh % e.gran
/-- The share of one member in bytes. -/
def Entry.shareBytes (e : Entry) : Nat := e.bytes / e.ways
/-- Pages of one member's share. -/
def Entry.pages (e : Entry) : Nat := e.shareBytes / 4096
/-- The page map's length in 4 KiB units (R41). -/
def Entry.mapUnits (e : Entry) : Nat := (e.bytes / e.ways / 256 + 4095) / 4096
/-- The exclusive-OR of the nine nibbles of DPA[45:10] (R44). -/
def homeHash (dpa : Nat) : Nat := (List.range 9).foldl (fun h k => h ^^^ (dpa / 2 ^ (10 + 4 * k) % 16)) 0
/-- The home slice of a line on its home device (R44). -/
def Entry.slice (e : Entry) (dpa : Nat) : Nat := (e.chBase + homeHash dpa % e.chans) % 16
/-- The place of a page map entry, in entries from the start of the metadata region (R45). -/
def Entry.mapKey (e : Entry) (dpa : Nat) : Nat := e.mapBase * 256 + e.share (e.offset dpa) / 4096
/-- The map-cache owner of a page: the home slice of its first granule (R45). -/
def Entry.owner (e : Entry) (dpa : Nat) : Nat := e.slice (dpa / 4096 * 4096)
/-- Whether every page of the domain is pinned Firewood (Table 02-1). -/
def Entry.pinned (e : Entry) : Bool := e.tierPol == 1

/-! ### The page map entry (Table 05-2) -/

/-- A page map entry. -/
abbrev PageEntry := BitVec 128

def PageEntry.state (p : PageEntry) : Nat := fld p 127 126
def PageEntry.mig (p : PageEntry) : Bool := bit p 125
def PageEntry.open_ (p : PageEntry) : Bool := bit p 124
def PageEntry.incomp (p : PageEntry) : Bool := bit p 123
def PageEntry.heat (p : PageEntry) : Nat := fld p 119 112
def PageEntry.epoch (p : PageEntry) : Nat := fld p 111 104
def PageEntry.fstripe (p : PageEntry) : Nat := fld p 31 0
def PageEntry.cchan (p : PageEntry) : Nat := fld p 103 100
def PageEntry.slot (p : PageEntry) : Nat := fld p 99 96
def PageEntry.csect (p : PageEntry) : Nat := fld p 95 62
def PageEntry.blen (p : PageEntry) (i : Nat) : Nat := fld p (42 + 5 * i + 4) (42 + 5 * i)
/-- The first sector of a block within its slot: the stored lengths before it (R105). -/
def PageEntry.blockAt (p : PageEntry) (i : Nat) : Nat := (List.range i).foldl (fun a j => a + p.blen j) 0
/-- All stored sectors of a Charcoal page. -/
def PageEntry.sectors (p : PageEntry) : Nat := p.blockAt 4
/-- The entry with its form fields cleared and `STATE` set, heat and flags kept. -/
def PageEntry.form (p : PageEntry) (st : Nat) : PageEntry := setFld (setFld p 127 126 st) 103 0 0
/-- The entry as Firewood at a stripe. -/
def PageEntry.toFirewood (p : PageEntry) (stripe : Nat) : PageEntry := setFld (p.form 1) 31 0 stripe
/-- The entry as Charcoal in a slot, with the four block lengths. -/
def PageEntry.toCharcoal (p : PageEntry) (chan slot csect : Nat) (blens : List Nat) : PageEntry :=
  let q := setFld (setFld (setFld (p.form 2) 103 100 chan) 99 96 slot) 95 62 csect
  (List.range 4).foldl (fun q i => setFld q (42 + 5 * i + 4) (42 + 5 * i) (blens.getD i 0)) q

/-- The channel and channel-local line of a line of a Firewood page (R103), before any redirection. -/
def firewoodLine (e : Entry) (p : PageEntry) (dpa : Nat) : Nat × Nat :=
  let q := dpa % 4096
  let k := q / 256
  ((e.chBase + k % e.chans) % 16, (p.fstripe * 256 + k / e.chans * 256 + q % 256) / 64)

/-! ### The directory entry (Table 04-2) -/

def dirPtr (x : BitVec 64) (i : Nat) : Nat := fld x (44 + 5 * i + 4) (44 + 5 * i)
def dirLs (x : BitVec 64) (i : Nat) : Nat := fld x (32 + 3 * i + 2) (32 + 3 * i)
def dirPeers (x : BitVec 64) : Nat := fld x 31 16
def dirHosts (x : BitVec 64) : Nat := fld x 15 0
def setDirPtr (x : BitVec 64) (i v : Nat) : BitVec 64 := setFld x (44 + 5 * i + 4) (44 + 5 * i) v
def setDirLs (x : BitVec 64) (i v : Nat) : BitVec 64 := setFld x (32 + 3 * i + 2) (32 + 3 * i) v
/-- The entry with line `i` in a state with a pointer. -/
def dirSet (x : BitVec 64) (i st ptr : Nat) : BitVec 64 := setDirLs (setDirPtr x i ptr) i st
/-- The entry with a peer's vector bit set or cleared. -/
def dirPeer (x : BitVec 64) (d : Nat) (v : Bool) : BitVec 64 := setFld x (16 + d) (16 + d) (b2n v)
/-- The entry with a host group's vector bit set or cleared. -/
def dirHost (x : BitVec 64) (g : Nat) (v : Bool) : BitVec 64 := setFld x g g (b2n v)
/-- Whether all four lines are U, so that the entry is free (R75). -/
def dirFree (x : BitVec 64) : Bool := (List.range 4).all fun i => dirLs x i == 0

/-- The line states of Table 04-3. -/
def dirU : Nat := 0
def dirSH : Nat := 1
def dirSF : Nat := 2
def dirPE : Nat := 3
def dirHE : Nat := 4

/-! ### Tweaks and tags -/

/-- The tweak of a Firewood line (Table 07-2). -/
def tweakLine (d o : Nat) : BitVec 128 := BitVec.ofNat 128 (d % 16384 * 2 ^ 64 + o / 64)
/-- The tweak of a Charcoal block. -/
def tweakBlock (d o : Nat) : BitVec 128 := BitVec.ofNat 128 (2 ^ 80 + d % 16384 * 2 ^ 64 + o / 1024)
/-- The tweak of a metadata line. -/
def tweakMeta (off : Nat) : BitVec 128 := BitVec.ofNat 128 (2 ^ 81 + off / 64)
/-- The 16-byte context of a block's tag (Table 07-3). -/
def tagContext (d n o : Nat) : List Byte :=
  leBytes 2 (BitVec.ofNat 16 d) ++ [byteOf n, 0x43, 0, 0, 0, 0] ++ leBytes 8 (BitVec.ofNat 64 (o / 1024))
/-- The tag of a stored data unit (R145): the leftmost 64 bits of its CMAC, first byte first. -/
def blockTag (kt : BitVec 256) (d n o : Nat) (unit : List Byte) : List Byte :=
  (aesCmac kt (tagContext d n o ++ unit)).take 8

/-- The bytes that a mask enables taken from `new`, the others from `old` (R31). -/
def mergeBytes (old new : Line) (be : BitVec 64) : Line :=
  ofLe 512 ((List.range 64).map fun i =>
    if be.getLsbD i then (new >>> (8 * i)).setWidth 8 else (old >>> (8 * i)).setWidth 8)

end Sys2Proof.Machine
end

