-- ==== Sys2Proof/Machine/RegMap.lean ====
section
/-!
DEFINITION. The register map: one row per register of Tables 23-4 to 23-14 (R470, R475, R476), with the
fields, access codes and Reset values of the register's own field table, its reset class (R473), the values a field
takes without being reserved or out of range (R494), and the LOCK bit that guards its RWL fields (R467).
Below the rows, the offset of each register by its index and a name for each field.
-/
namespace Sys2Proof.Machine

/-- The access codes of Table 00-4 (R14). -/
inductive Acc where
  | rw | ro | w1c | wo | rws | rwl
deriving DecidableEq, Repr

/-- The reset classes of Table 23-1 (R473). -/
inductive RegClass where
  | c | w | i | p | f | n | m
deriving DecidableEq, Repr

/-- One field of a register: bits `hi` to `lo`, its access code, its Reset value, whether it keeps its value
through a Warm reset (R17, R473), and the ranges of legal values (none listed: every value is legal). -/
structure FieldRow where
  name : String
  hi : Nat
  lo : Nat
  acc : Acc
  reset : Nat
  keep : Bool
  legal : List (Nat × Nat)
deriving DecidableEq, Repr

/-- One register of the map, existing once for each combination of the indices of `dims` (stride, count). -/
structure RegRow where
  name : String
  base : Nat
  dims : List (Nat × Nat)
  cls : RegClass
  lock : Option Nat
  fields : List FieldRow
deriving DecidableEq, Repr

/-- A field of one register: its register's offset in the control window and its bit range. -/
structure Fld where
  off : Nat
  hi : Nat
  lo : Nat
deriving DecidableEq, Repr

/-- Rows of the register map, part 0. -/
def regRows0 : List RegRow := [
  ⟨"CHIP_CLAIMSTAT", 0x00000180, [], .c, none,
    [⟨"DENIED", 31, 31, .w1c, 0, true, []⟩,
     ⟨"COUNT", 27, 24, .ro, 0, true, []⟩,
     ⟨"RESOURCE", 23, 16, .ro, 0, true, []⟩,
     ⟨"CLAIMANT", 15, 8, .ro, 0, true, []⟩,
     ⟨"HOLDER", 7, 0, .ro, 0, true, []⟩]⟩,
  ⟨"CHIP_DOMSTAGE", 0x00000200, [(0x4, 16)], .w, none,
    [⟨"WORD", 31, 0, .rw, 0, false, []⟩]⟩,
  ⟨"CHIP_DOMCOMMIT", 0x00000240, [], .w, none,
    [⟨"GO", 31, 31, .wo, 0, false, []⟩,
     ⟨"OP", 15, 14, .wo, 0, false, [(0, 1)]⟩,
     ⟨"DOMAIN", 13, 0, .wo, 0, false, []⟩]⟩,
  ⟨"CHIP_DOMSTAT", 0x00000244, [], .w, none,
    [⟨"BUSY", 31, 31, .ro, 0, false, []⟩,
     ⟨"STATUS", 23, 16, .ro, 0, false, []⟩,
     ⟨"DOMAIN", 13, 0, .ro, 0, false, []⟩]⟩,
  ⟨"CHIP_TMCTL", 0x00000300, [], .i, none,
    [⟨"OVC", 31, 26, .rw, 32, false, [(16, 48)]⟩,
     ⟨"LOWPCT", 25, 22, .rw, 4, false, [(2, 15)]⟩,
     ⟨"EPOCH", 21, 18, .rw, 10, false, [(0, 14)]⟩,
     ⟨"RELINT", 17, 14, .rw, 2, false, [(1, 15)]⟩,
     ⟨"RELEN", 13, 13, .rw, 1, false, []⟩]⟩,
  ⟨"CHIP_TMSTAT", 0x00000304, [], .w, none,
    [⟨"STATE", 31, 30, .ro, 0, false, []⟩,
     ⟨"HELDEVT", 29, 29, .w1c, 0, false, []⟩,
     ⟨"RESEVT", 28, 28, .w1c, 0, false, []⟩,
     ⟨"BACKPR", 27, 27, .ro, 0, false, []⟩,
     ⟨"WAITING", 15, 0, .ro, 0, false, []⟩]⟩,
  ⟨"CHIP_TMCAP", 0x00000308, [(0x4, 4)], .w, none,
    [⟨"MIB", 31, 0, .ro, 0, false, []⟩]⟩,
  ⟨"CHIP_TMREL", 0x00000320, [(0x4, 16)], .i, none,
    [⟨"VALID", 31, 31, .rw, 0, false, []⟩,
     ⟨"AUTODEL", 30, 30, .rw, 0, false, []⟩,
     ⟨"RSTATE", 29, 28, .ro, 0, false, []⟩,
     ⟨"DOMAIN", 13, 0, .rw, 0, false, []⟩]⟩,
  ⟨"CHIP_CZCTL", 0x00000380, [], .w, none,
    [⟨"PATEN", 31, 31, .rw, 1, false, []⟩,
     ⟨"MAXSECT", 27, 24, .rw, 15, false, []⟩]⟩,
  ⟨"CHIP_PEERLIM", 0x00000400, [(0x4, 16)], .w, none,
    [⟨"OSNP", 30, 20, .rw, 64, false, [(1, 1024)]⟩,
     ⟨"OWB", 19, 10, .rw, 32, false, [(1, 512)]⟩,
     ⟨"OREQ", 9, 0, .rw, 48, false, [(1, 768)]⟩]⟩,
  ⟨"GA_STAT", 0x00000500, [], .w, none,
    [⟨"STATE", 31, 29, .ro, 0, false, []⟩,
     ⟨"HOSTPRIV", 28, 28, .ro, 0, false, []⟩,
     ⟨"FCAUSE", 27, 24, .ro, 0, false, []⟩,
     ⟨"PC", 17, 0, .ro, 0, false, []⟩]⟩,
  ⟨"CHIP_BOOTSTAT", 0x00000600, [], .w, none,
    [⟨"READY", 31, 31, .ro, 0, false, []⟩,
     ⟨"DISCARD", 30, 30, .ro, 0, false, []⟩,
     ⟨"DEFBUILT", 29, 29, .ro, 0, false, []⟩,
     ⟨"REFBAD", 28, 28, .ro, 0, false, []⟩,
     ⟨"OSCBAD", 27, 27, .ro, 0, false, []⟩,
     ⟨"RSTCAUSE", 26, 24, .ro, 0, false, []⟩,
     ⟨"PHASE", 23, 20, .ro, 0, false, []⟩,
     ⟨"TRNFULL", 15, 0, .ro, 0, false, []⟩]⟩]

/-- Rows of the register map, part 1. -/
def regRows1 : List RegRow := [
  ⟨"CHIP_STRAP", 0x00000604, [], .c, none,
    [⟨"PGMODE", 31, 16, .ro, 0, true, []⟩,
     ⟨"X16", 15, 8, .ro, 0, true, []⟩,
     ⟨"DEVNUM", 7, 4, .ro, 0, true, []⟩]⟩,
  ⟨"CHIP_RSTCTL", 0x00000608, [], .c, none,
    [⟨"WARM", 31, 31, .wo, 0, true, []⟩,
     ⟨"ORDERLY", 30, 30, .wo, 0, true, []⟩,
     ⟨"DRAINLIM", 7, 0, .rws, 10, true, [(1, 100)]⟩]⟩,
  ⟨"CHIP_BOOTTIME", 0x0000060c, [], .w, none,
    [⟨"MS", 31, 0, .ro, 0, false, []⟩]⟩,
  ⟨"CHIP_GTCLO", 0x00000610, [], .c, none,
    [⟨"GTCLO", 31, 0, .ro, 0, true, []⟩]⟩,
  ⟨"CHIP_GTCHI", 0x00000614, [], .c, none,
    [⟨"GTCHI", 31, 0, .ro, 0, true, []⟩]⟩,
  ⟨"CHIP_GTCCTL", 0x00000618, [], .c, none,
    [⟨"SYNCMODE", 31, 30, .rws, 0, true, [(0, 2)]⟩,
     ⟨"LOCKED", 29, 29, .ro, 0, true, []⟩,
     ⟨"LOADREJ", 28, 28, .w1c, 0, true, []⟩,
     ⟨"SYNCOFS", 15, 8, .rws, 0, true, []⟩,
     ⟨"ERR", 7, 0, .ro, 0, true, []⟩]⟩,
  ⟨"CHIP_GTCLOAD0", 0x00000620, [], .w, none,
    [⟨"LOADLO", 31, 0, .rw, 0, false, []⟩]⟩,
  ⟨"CHIP_GTCLOAD1", 0x00000624, [], .w, none,
    [⟨"ARM", 31, 31, .rw, 0, false, []⟩,
     ⟨"LOADHI", 11, 0, .rw, 0, false, []⟩]⟩,
  ⟨"FD_STAT", 0x00010000, [], .f, none,
    [⟨"PG", 31, 31, .ro, 0, true, []⟩,
     ⟨"PFW", 30, 30, .ro, 0, true, []⟩,
     ⟨"TLATCH", 29, 29, .ro, 0, true, []⟩,
     ⟨"PFWSRC", 28, 28, .ro, 0, true, []⟩,
     ⟨"STATEA", 27, 25, .ro, 0, true, []⟩,
     ⟨"STATEB", 24, 22, .ro, 0, true, []⟩,
     ⟨"TRIPA", 21, 19, .ro, 0, true, []⟩,
     ⟨"TRIPB", 18, 16, .ro, 0, true, []⟩,
     ⟨"EVHEAD", 3, 0, .ro, 0, true, []⟩]⟩,
  ⟨"FD_CMD", 0x00010004, [], .f, none,
    [⟨"CLRA", 31, 31, .wo, 0, true, []⟩,
     ⟨"CLRB", 30, 30, .wo, 0, true, []⟩,
     ⟨"CLRT", 29, 29, .wo, 0, true, []⟩]⟩,
  ⟨"FD_COMMIT", 0x00010040, [], .f, none,
    [⟨"GO", 31, 31, .wo, 0, true, []⟩,
     ⟨"OP", 30, 30, .wo, 0, true, []⟩,
     ⟨"BUSY", 29, 29, .ro, 0, true, []⟩,
     ⟨"STATUS", 23, 16, .ro, 0, true, []⟩]⟩,
  ⟨"FD_WIN", 0x00010008, [], .f, some 26,
    [⟨"UVOFF", 31, 25, .rwl, 0, true, []⟩,
     ⟨"UVON", 24, 18, .rwl, 20, true, []⟩,
     ⟨"OVON", 17, 11, .rwl, 72, true, []⟩,
     ⟨"OVOFF", 10, 4, .rwl, 80, true, []⟩]⟩]

/-- Rows of the register map, part 2. -/
def regRows2 : List RegRow := [
  ⟨"FD_PFW", 0x0001000c, [], .f, some 26,
    [⟨"VPFW", 31, 25, .rwl, 16, true, []⟩,
     ⟨"PFWFILT", 24, 21, .rwl, 2, true, []⟩]⟩,
  ⟨"FD_SEQ", 0x00010010, [], .f, some 26,
    [⟨"INSDLY", 31, 24, .rwl, 25, true, []⟩,
     ⟨"INRUSH", 23, 17, .rwl, 20, true, []⟩,
     ⟨"TSTART", 16, 10, .rwl, 10, true, []⟩]⟩,
  ⟨"FD_RETRY", 0x00010014, [], .f, some 26,
    [⟨"RETRIES", 31, 29, .rwl, 3, true, []⟩,
     ⟨"RETRYDLY", 28, 21, .rwl, 10, true, []⟩,
     ⟨"COOL", 20, 17, .rwl, 1, true, []⟩]⟩,
  ⟨"FD_SHUNT", 0x00010018, [], .f, some 26,
    [⟨"SHUNT", 31, 25, .rwl, 20, true, []⟩,
     ⟨"FAST", 24, 15, .rwl, 500, true, []⟩]⟩,
  ⟨"FD_BP0", 0x00010020, [], .f, some 26,
    [⟨"CUR", 31, 22, .rwl, 160, true, []⟩,
     ⟨"TIME", 21, 0, .rwl, 2000000, true, []⟩]⟩,
  ⟨"FD_BP1", 0x00010024, [], .f, some 26,
    [⟨"CUR", 31, 22, .rwl, 180, true, []⟩,
     ⟨"TIME", 21, 0, .rwl, 500000, true, []⟩]⟩,
  ⟨"FD_BP2", 0x00010028, [], .f, some 26,
    [⟨"CUR", 31, 22, .rwl, 210, true, []⟩,
     ⟨"TIME", 21, 0, .rwl, 100000, true, []⟩]⟩,
  ⟨"FD_BP3", 0x0001002c, [], .f, some 26,
    [⟨"CUR", 31, 22, .rwl, 250, true, []⟩,
     ⟨"TIME", 21, 0, .rwl, 20000, true, []⟩]⟩,
  ⟨"FD_BP4", 0x00010030, [], .f, some 26,
    [⟨"CUR", 31, 22, .rwl, 300, true, []⟩,
     ⟨"TIME", 21, 0, .rwl, 5000, true, []⟩]⟩,
  ⟨"FD_BP5", 0x00010034, [], .f, some 26,
    [⟨"CUR", 31, 22, .rwl, 350, true, []⟩,
     ⟨"TIME", 21, 0, .rwl, 1000, true, []⟩]⟩,
  ⟨"FD_BP6", 0x00010038, [], .f, some 26,
    [⟨"CUR", 31, 22, .rwl, 400, true, []⟩,
     ⟨"TIME", 21, 0, .rwl, 200, true, []⟩]⟩,
  ⟨"FD_BP7", 0x0001003c, [], .f, some 26,
    [⟨"CUR", 31, 22, .rwl, 450, true, []⟩,
     ⟨"TIME", 21, 0, .rwl, 50, true, []⟩]⟩]

/-- Rows of the register map, part 3. -/
def regRows3 : List RegRow := [
  ⟨"FD_TELA", 0x00010048, [], .f, none,
    [⟨"VIN", 31, 21, .ro, 0, true, []⟩,
     ⟨"IIN", 20, 11, .ro, 0, true, []⟩]⟩,
  ⟨"FD_TELB", 0x0001004c, [], .f, none,
    [⟨"VIN", 31, 21, .ro, 0, true, []⟩,
     ⟨"IIN", 20, 11, .ro, 0, true, []⟩]⟩,
  ⟨"FD_TELBULK", 0x00010050, [], .f, none,
    [⟨"VBULK", 31, 21, .ro, 0, true, []⟩,
     ⟨"TEMP", 20, 13, .ro, 0, true, []⟩]⟩,
  ⟨"FD_EVT", 0x00010060, [(0x4, 16)], .f, none,
    [⟨"CODE", 31, 24, .ro, 0, true, []⟩,
     ⟨"FEED", 23, 22, .ro, 0, true, []⟩,
     ⟨"ARG", 21, 19, .ro, 0, true, []⟩,
     ⟨"MS", 18, 0, .ro, 0, true, []⟩]⟩,
  ⟨"FD_OTPCTL", 0x000100c0, [], .f, none,
    [⟨"BURN", 31, 31, .wo, 0, true, []⟩,
     ⟨"PROG", 30, 30, .ro, 0, true, []⟩,
     ⟨"KEY", 7, 0, .wo, 0, true, []⟩]⟩,
  ⟨"FD_LINK", 0x000100fc, [], .w, none,
    [⟨"LOST", 31, 31, .ro, 0, false, []⟩]⟩,
  ⟨"PS_CTL", 0x00020000, [], .m, none,
    [⟨"MAXSTATE", 31, 30, .rws, 3, true, []⟩,
     ⟨"PTOLSCALE", 29, 27, .rw, 2, false, [(0, 5)]⟩,
     ⟨"PTOLVAL", 26, 17, .rw, 50, false, []⟩]⟩,
  ⟨"PS_STAT", 0x00020004, [], .w, none,
    [⟨"STATE", 31, 30, .ro, 0, false, []⟩,
     ⟨"LIMIT", 29, 28, .ro, 0, false, []⟩,
     ⟨"PACEHOLD", 27, 27, .ro, 0, false, []⟩,
     ⟨"TOLHOLD", 26, 26, .ro, 0, false, []⟩,
     ⟨"BUSY", 25, 25, .ro, 0, false, []⟩,
     ⟨"WAKEEVT", 24, 24, .w1c, 0, false, []⟩,
     ⟨"WAKESRC", 23, 20, .ro, 0, false, []⟩]⟩,
  ⟨"PS_TOLMIN", 0x00020008, [], .w, none,
    [⟨"TMIN", 31, 0, .ro, 4294967295, false, []⟩]⟩,
  ⟨"PS_RES", 0x00020010, [(0x4, 4)], .c, none,
    [⟨"MS", 31, 0, .ro, 0, true, []⟩]⟩,
  ⟨"CF_STAT", 0x00030000, [], .m, none,
    [⟨"DEVLOST", 31, 31, .ro, 0, false, []⟩,
     ⟨"THERMTRIP", 30, 30, .ro, 0, true, []⟩,
     ⟨"NEWREC", 29, 29, .w1c, 0, false, []⟩,
     ⟨"CAUSE", 23, 16, .ro, 0, false, []⟩,
     ⟨"PEERLOST", 15, 0, .ro, 0, false, []⟩]⟩,
  ⟨"CF_CTL", 0x00030004, [], .w, none,
    [⟨"DECLARE", 31, 31, .wo, 0, false, []⟩,
     ⟨"KILL", 30, 30, .wo, 0, false, []⟩,
     ⟨"PEER", 27, 24, .rw, 0, false, []⟩,
     ⟨"FAULTSEV", 23, 21, .rw, 3, false, [(0, 4)]⟩]⟩]

/-- Rows of the register map, part 4. -/
def regRows4 : List RegRow := [
  ⟨"CF_NEXT", 0x00030008, [], .c, none,
    [⟨"NEXT", 31, 0, .ro, 0, true, []⟩]⟩,
  ⟨"CF_RECIDX", 0x0003000c, [], .w, none,
    [⟨"IDX", 31, 0, .rw, 0, false, []⟩]⟩,
  ⟨"CF_REC", 0x00030040, [(0x4, 16)], .c, none,
    [⟨"BYTES", 31, 0, .ro, 0, true, []⟩]⟩,
  ⟨"PL_CTL", 0x00040000, [], .c, none,
    [⟨"GO", 31, 31, .wo, 0, true, []⟩,
     ⟨"OP", 30, 28, .wo, 0, true, [(0, 1)]⟩,
     ⟨"PACE", 19, 12, .rws, 16, true, [(1, 255)]⟩]⟩,
  ⟨"PL_STAT", 0x00040004, [], .w, none,
    [⟨"STATE", 31, 30, .ro, 0, false, []⟩,
     ⟨"LASTOK", 29, 29, .ro, 0, false, []⟩,
     ⟨"BUSY", 28, 28, .ro, 0, false, []⟩,
     ⟨"PEND", 27, 27, .ro, 0, false, []⟩,
     ⟨"WEAR90", 26, 26, .ro, 0, false, []⟩,
     ⟨"RETIRED", 25, 16, .ro, 0, false, []⟩,
     ⟨"DROP", 15, 0, .ro, 0, false, []⟩]⟩,
  ⟨"PL_WEAR", 0x00040008, [], .n, none,
    [⟨"LAPS", 26, 0, .ro, 0, true, []⟩]⟩,
  ⟨"PL_LIFE", 0x00040040, [(0x4, 8)], .n, none,
    [⟨"COUNT", 31, 0, .ro, 0, true, []⟩]⟩,
  ⟨"MG_ID", 0x00050000, [], .c, none,
    [⟨"DEVID", 31, 16, .ro, 296, true, []⟩,
     ⟨"REV", 15, 8, .ro, 1, true, []⟩]⟩,
  ⟨"MG_SERIALLO", 0x00050004, [], .n, none,
    [⟨"SERIAL", 31, 0, .ro, 0, true, []⟩]⟩,
  ⟨"MG_SERIALHI", 0x00050008, [], .n, none,
    [⟨"SERIAL", 31, 0, .ro, 0, true, []⟩]⟩,
  ⟨"MG_SBCTL", 0x00050010, [], .w, some 24,
    [⟨"SMBADDR", 31, 25, .rwl, 0, false, []⟩,
     ⟨"SMBEN", 24, 24, .rwl, 1, false, []⟩,
     ⟨"I3CEN", 23, 23, .rwl, 1, false, []⟩,
     ⟨"PECREQ", 22, 22, .rwl, 0, false, []⟩,
     ⟨"ALERTMASK", 21, 19, .rw, 1, false, []⟩]⟩,
  ⟨"MG_LOCK", 0x00050020, [], .w, none,
    [⟨"BARWR", 31, 31, .rwl, 0, false, []⟩,
     ⟨"SBWR", 30, 30, .rwl, 0, false, []⟩,
     ⟨"PORTLK", 29, 29, .rwl, 0, false, []⟩,
     ⟨"SECLK", 28, 28, .rwl, 0, false, []⟩,
     ⟨"INJLK", 27, 27, .rwl, 0, false, []⟩,
     ⟨"FEEDLK", 26, 26, .rwl, 0, false, []⟩,
     ⟨"TAPLK", 25, 25, .rwl, 0, false, []⟩,
     ⟨"MGLK", 24, 24, .rwl, 0, false, []⟩]⟩]

/-- Rows of the register map, part 5. -/
def regRows5 : List RegRow := [
  ⟨"MG_THERM", 0x00050030, [], .w, none,
    [⟨"TREG", 31, 0, .ro, 0, false, []⟩]⟩,
  ⟨"MG_THCTL", 0x00050034, [], .w, some 24,
    [⟨"THWARN", 31, 24, .rwl, 105, false, [(60, 114)]⟩]⟩,
  ⟨"MG_THSTAT", 0x00050038, [], .w, none,
    [⟨"WARN", 31, 31, .w1c, 0, false, []⟩,
     ⟨"TMAX", 7, 0, .ro, 0, false, []⟩]⟩,
  ⟨"MG_PWR", 0x00050040, [(0x4, 4)], .w, none,
    [⟨"PWR", 15, 0, .ro, 0, false, []⟩]⟩,
  ⟨"SEC_KEYSTAGE", 0x00050100, [(0x4, 30)], .w, none,
    [⟨"WORD", 31, 0, .rw, 0, false, []⟩]⟩,
  ⟨"SEC_KEYOP", 0x00050180, [], .w, none,
    [⟨"GO", 31, 31, .wo, 0, false, []⟩,
     ⟨"OP", 30, 28, .wo, 0, false, [(0, 3)]⟩,
     ⟨"DOMAIN", 13, 0, .wo, 0, false, []⟩]⟩,
  ⟨"SEC_KEYSTAT", 0x00050184, [], .w, none,
    [⟨"BUSY", 31, 31, .ro, 0, false, []⟩,
     ⟨"STATUS", 23, 16, .ro, 0, false, []⟩,
     ⟨"DOMAIN", 13, 0, .ro, 0, false, []⟩]⟩,
  ⟨"SEC_KEYCTL", 0x00050188, [], .i, some 28,
    [⟨"REQHOST", 31, 31, .rwl, 0, false, []⟩]⟩,
  ⟨"SEC_KEYMAP", 0x00051000, [(0x4, 1024)], .c, none,
    [⟨"STATE", 31, 0, .ro, 0, true, []⟩]⟩,
  ⟨"RGL_CTL", 0x00200000, [], .i, none,
    [⟨"EN", 31, 31, .rw, 1, false, []⟩,
     ⟨"WINDOW", 9, 0, .rw, 10, false, [(1, 1000)]⟩]⟩,
  ⟨"RGL_FLOOR", 0x00200004, [], .w, none,
    [⟨"HEALTHY", 31, 27, .ro, 0, false, []⟩,
     ⟨"FLOOR", 24, 0, .ro, 0, false, []⟩]⟩,
  ⟨"RGL_COMMIT", 0x00200008, [], .w, none,
    [⟨"GO", 31, 31, .wo, 0, false, []⟩,
     ⟨"OP", 30, 30, .wo, 0, false, []⟩]⟩]

/-- Rows of the register map, part 6. -/
def regRows6 : List RegRow := [
  ⟨"RGL_STAT", 0x0020000c, [], .w, none,
    [⟨"BUSY", 31, 31, .ro, 0, false, []⟩,
     ⟨"DEGRADED", 30, 30, .ro, 0, false, []⟩,
     ⟨"PACEOVER", 29, 29, .ro, 0, false, []⟩,
     ⟨"DEGEVT", 28, 28, .w1c, 0, false, []⟩,
     ⟨"STATUS", 23, 16, .ro, 0, false, []⟩,
     ⟨"WINDOW", 9, 0, .ro, 10, false, []⟩]⟩,
  ⟨"RGL_MST", 0x00201000, [(0x4, 256)], .i, none,
    [⟨"WEIGHT", 31, 24, .rw, 1, false, []⟩,
     ⟨"MIN", 23, 0, .rw, 0, false, []⟩]⟩,
  ⟨"RGL_PEER", 0x00201400, [(0x4, 16)], .i, none,
    [⟨"WEIGHT", 31, 24, .rw, 1, false, []⟩,
     ⟨"MIN", 23, 0, .rw, 0, false, []⟩]⟩,
  ⟨"RGL_PACE", 0x00201480, [(0x4, 48)], .i, none,
    [⟨"PQW", 31, 28, .rw, 0, false, [(0, 8)]⟩,
     ⟨"PQR", 27, 24, .rw, 0, false, []⟩,
     ⟨"PBUDGET", 23, 0, .rw, 0, false, []⟩]⟩,
  ⟨"RGL_CLS", 0x00201600, [(0x4, 64)], .i, none,
    [⟨"CAP", 23, 0, .rw, 0, false, []⟩]⟩,
  ⟨"RGL_CLSCNT", 0x00201700, [(0x4, 64)], .w, none,
    [⟨"CAPHIT", 31, 31, .ro, 0, false, []⟩,
     ⟨"COUNT", 24, 0, .ro, 0, false, []⟩]⟩,
  ⟨"RGL_RGMAP", 0x00201800, [(0x4, 32)], .i, none,
    [⟨"GRP", 23, 0, .rw, 0, false, []⟩]⟩,
  ⟨"CHIP_CBSTAT", 0x00300000, [], .w, none,
    [⟨"LOST", 31, 31, .w1c, 0, false, []⟩,
     ⟨"FROZEN", 30, 30, .ro, 0, false, []⟩]⟩,
  ⟨"CHIP_COVF0", 0x00300004, [], .w, none,
    [⟨"OVF", 31, 0, .w1c, 0, false, []⟩]⟩,
  ⟨"CHIP_C_CTL", 0x00300100, [(0x10, 32)], .i, none,
    [⟨"EN", 31, 31, .rw, 0, false, []⟩,
     ⟨"CLR", 30, 30, .wo, 0, false, []⟩,
     ⟨"SAT", 29, 29, .rw, 0, false, []⟩,
     ⟨"MODE", 28, 27, .rw, 0, false, [(0, 2)]⟩,
     ⟨"UNIT", 26, 24, .rw, 0, false, [(0, 4)]⟩,
     ⟨"EVENT", 23, 16, .rw, 0, false, []⟩,
     ⟨"THRESH", 11, 0, .rw, 0, false, []⟩]⟩,
  ⟨"CHIP_C_FILT", 0x00300104, [(0x10, 32)], .i, none,
    [⟨"DOMEN", 31, 31, .rw, 0, false, []⟩,
     ⟨"CLSEN", 30, 30, .rw, 0, false, []⟩,
     ⟨"VIEW", 29, 29, .rw, 0, false, []⟩,
     ⟨"DOMAIN", 27, 14, .rw, 0, false, []⟩,
     ⟨"QCLASS", 5, 0, .rw, 0, false, []⟩]⟩,
  ⟨"CHIP_C_LO", 0x00300108, [(0x10, 32)], .w, none,
    [⟨"CNTLO", 31, 0, .ro, 0, false, []⟩]⟩]

/-- Rows of the register map, part 7. -/
def regRows7 : List RegRow := [
  ⟨"CHIP_C_HI", 0x0030010c, [(0x10, 32)], .w, none,
    [⟨"CNTHI", 15, 0, .ro, 0, false, []⟩]⟩,
  ⟨"CHIP_C_SLO", 0x00300800, [(0x8, 32)], .w, none,
    [⟨"CNTLO", 31, 0, .ro, 0, false, []⟩]⟩,
  ⟨"CHIP_C_SHI", 0x00300804, [(0x8, 32)], .w, none,
    [⟨"CNTHI", 15, 0, .ro, 0, false, []⟩]⟩,
  ⟨"CHIP_HALCTL", 0x00301000, [], .w, none,
    [⟨"GO", 31, 31, .wo, 0, false, []⟩,
     ⟨"SRC", 30, 29, .rw, 0, false, []⟩,
     ⟨"FREEZE", 28, 28, .rw, 0, false, []⟩,
     ⟨"RELEASE", 27, 27, .wo, 0, false, []⟩]⟩,
  ⟨"CHIP_HALTGT", 0x00301008, [(0x4, 2)], .w, none,
    [⟨"T", 31, 0, .rw, 0, false, []⟩]⟩,
  ⟨"CHIP_HALSTAT", 0x00301010, [], .w, none,
    [⟨"ARMED", 31, 31, .ro, 0, false, []⟩,
     ⟨"LATE", 30, 30, .w1c, 0, false, []⟩]⟩,
  ⟨"CHIP_HALLAST", 0x00301018, [(0x4, 2)], .w, none,
    [⟨"LAST", 31, 0, .ro, 0, false, []⟩]⟩,
  ⟨"CR_CTL", 0x00400000, [(0x20, 8)], .w, none,
    [⟨"EN", 31, 31, .rw, 0, false, []⟩,
     ⟨"IEN", 30, 30, .rw, 0, false, []⟩,
     ⟨"PORT", 29, 25, .rw, 0, false, []⟩,
     ⟨"VEC", 24, 14, .rw, 0, false, []⟩]⟩,
  ⟨"CR_SQ", 0x00400004, [(0x20, 8)], .w, none,
    [⟨"SQTAIL", 23, 16, .rw, 0, false, []⟩,
     ⟨"SQHEAD", 15, 8, .ro, 0, false, []⟩]⟩,
  ⟨"CR_CQ", 0x00400008, [(0x20, 8)], .w, none,
    [⟨"CQHEAD", 23, 16, .rw, 0, false, []⟩,
     ⟨"CQTAIL", 15, 8, .ro, 0, false, []⟩]⟩,
  ⟨"CR_STAT", 0x0040000c, [(0x20, 8)], .w, none,
    [⟨"BUSY", 31, 31, .ro, 0, false, []⟩,
     ⟨"CQFULL", 30, 30, .ro, 0, false, []⟩]⟩,
  ⟨"CHIP_EVRING", 0x00400100, [], .w, none,
    [⟨"EVHEAD", 25, 16, .rw, 0, false, []⟩,
     ⟨"EVTAIL", 9, 0, .ro, 0, false, []⟩]⟩]

/-- Rows of the register map, part 8. -/
def regRows8 : List RegRow := [
  ⟨"SQ_SLOT", 0x00410000, [(0x10000, 8), (0x4, 8192)], .w, none,
    [⟨"WORD", 31, 0, .rw, 0, false, []⟩]⟩,
  ⟨"CQ_SLOT", 0x00418000, [(0x10000, 8), (0x4, 8192)], .w, none,
    [⟨"WORD", 31, 0, .ro, 0, false, []⟩]⟩,
  ⟨"EV_SLOT", 0x00490000, [(0x4, 4096)], .w, none,
    [⟨"WORD", 31, 0, .ro, 0, false, []⟩]⟩,
  ⟨"STAGE", 0x00500000, [(0x4, 196608)], .w, none,
    [⟨"WORD", 31, 0, .rw, 0, false, []⟩]⟩,
  ⟨"PG_SDCTL", 0x01000000, [(0x400000, 4), (0x40000, 4)], .m, none,
    [⟨"MODE", 31, 30, .rws, 0, true, []⟩,
     ⟨"RATE", 29, 27, .rws, 0, true, []⟩,
     ⟨"SRIS", 26, 26, .rws, 0, true, []⟩,
     ⟨"SPAREPWR", 25, 25, .rw, 1, false, []⟩,
     ⟨"SPAREEN", 24, 24, .rw, 1, false, []⟩,
     ⟨"WAKEEN", 23, 23, .rw, 1, false, []⟩,
     ⟨"WAKETX", 22, 22, .rw, 0, false, []⟩,
     ⟨"WAKEMIN", 21, 19, .rw, 1, false, []⟩,
     ⟨"ERRTH", 15, 8, .rw, 64, false, [(1, 255)]⟩]⟩,
  ⟨"PG_SDSTAT", 0x01000004, [(0x400000, 4), (0x40000, 4)], .w, none,
    [⟨"REV", 31, 31, .ro, 0, false, []⟩,
     ⟨"SPAREUSE", 30, 30, .ro, 0, false, []⟩,
     ⟨"SPAREFLT", 29, 29, .ro, 0, false, []⟩,
     ⟨"WAKEDET", 28, 28, .w1c, 0, false, []⟩,
     ⟨"LNEVT", 27, 27, .w1c, 0, false, []⟩,
     ⟨"LNFAIL", 26, 18, .ro, 0, false, []⟩,
     ⟨"POL", 17, 9, .ro, 0, false, []⟩,
     ⟨"RATECUR", 8, 6, .ro, 0, false, []⟩,
     ⟨"EXCL", 3, 0, .ro, 8, false, []⟩]⟩,
  ⟨"PG_LN_TXEQ", 0x01000100, [(0x400000, 4), (0x40000, 4), (0x40, 9)], .w, none,
    [⟨"OVR", 31, 31, .rw, 0, false, []⟩,
     ⟨"MAIN", 23, 18, .ro, 63, false, []⟩,
     ⟨"PRE2", 17, 15, .rw, 0, false, []⟩,
     ⟨"PRE1", 14, 11, .rw, 0, false, []⟩,
     ⟨"POST1", 10, 6, .rw, 0, false, [(0, 21)]⟩,
     ⟨"POST2", 5, 3, .rw, 0, false, []⟩]⟩,
  ⟨"PG_LN_RXEQ", 0x01000104, [(0x400000, 4), (0x40000, 4), (0x40, 9)], .w, none,
    [⟨"ADAPT", 31, 30, .rw, 0, false, [(0, 2)]⟩,
     ⟨"CTLE", 21, 16, .rw, 0, false, [(0, 40)]⟩,
     ⟨"VGA", 12, 8, .rw, 8, false, []⟩]⟩,
  ⟨"PG_LN_DFE", 0x01000108, [(0x400000, 4), (0x40000, 4), (0x40, 9), (0x4, 4)], .w, none,
    [⟨"TAP4", 31, 24, .rw, 0, false, [(0, 63), (192, 255)]⟩,
     ⟨"TAP3", 23, 16, .rw, 0, false, [(0, 63), (192, 255)]⟩,
     ⟨"TAP2", 15, 8, .rw, 0, false, [(0, 63), (192, 255)]⟩,
     ⟨"TAP1", 7, 0, .rw, 0, false, []⟩]⟩,
  ⟨"PG_LN_PRBSCTL", 0x01000118, [(0x400000, 4), (0x40000, 4), (0x40, 9)], .w, none,
    [⟨"CLR", 31, 31, .wo, 0, false, []⟩,
     ⟨"GEN", 30, 28, .rw, 0, false, [(0, 6)]⟩,
     ⟨"CHK", 27, 25, .rw, 0, false, [(0, 5)]⟩,
     ⟨"GINV", 24, 24, .rw, 0, false, []⟩,
     ⟨"CINV", 23, 23, .rw, 0, false, []⟩,
     ⟨"LOCK", 22, 22, .ro, 0, false, []⟩,
     ⟨"LOSSCNT", 21, 14, .ro, 0, false, []⟩]⟩,
  ⟨"PG_LN_PRBSERR", 0x0100011c, [(0x400000, 4), (0x40000, 4), (0x40, 9)], .w, none,
    [⟨"ERRLO", 31, 0, .ro, 0, false, []⟩]⟩,
  ⟨"PG_LN_PRBSCNT", 0x01000120, [(0x400000, 4), (0x40000, 4), (0x40, 9)], .w, none,
    [⟨"CNTLO", 31, 0, .ro, 0, false, []⟩]⟩]

/-- Rows of the register map, part 9. -/
def regRows9 : List RegRow := [
  ⟨"PG_LN_PRBSHI", 0x01000124, [(0x400000, 4), (0x40000, 4), (0x40, 9)], .w, none,
    [⟨"CNTHI", 31, 16, .ro, 0, false, []⟩,
     ⟨"ERRHI", 15, 0, .ro, 0, false, []⟩]⟩,
  ⟨"PG_LN_MARGCTL", 0x01000128, [(0x400000, 4), (0x40000, 4), (0x40, 9)], .w, none,
    [⟨"GO", 31, 31, .wo, 0, false, []⟩,
     ⟨"EYE", 30, 29, .rw, 0, false, [(0, 2)]⟩,
     ⟨"TOFF", 28, 23, .rw, 0, false, []⟩,
     ⟨"VOFF", 22, 15, .rw, 0, false, [(0, 127), (129, 255)]⟩,
     ⟨"DWELL", 14, 10, .rw, 20, false, [(16, 31)]⟩]⟩,
  ⟨"PG_LN_MARGSTAT", 0x0100012c, [(0x400000, 4), (0x40000, 4), (0x40, 9)], .p, none,
    [⟨"BUSY", 31, 31, .ro, 0, false, []⟩,
     ⟨"RESULT", 30, 29, .ro, 0, false, []⟩,
     ⟨"ERRS", 23, 0, .ro, 0, false, []⟩]⟩,
  ⟨"PG_LN_STAT", 0x01000130, [(0x400000, 4), (0x40000, 4), (0x40, 9)], .p, none,
    [⟨"STATE", 31, 29, .ro, 0, false, []⟩,
     ⟨"CDRLOCK", 28, 28, .ro, 0, false, []⟩,
     ⟨"FLTEVT", 27, 27, .w1c, 0, false, []⟩,
     ⟨"FCLASS", 26, 25, .ro, 0, false, []⟩,
     ⟨"SYMERR", 15, 0, .ro, 0, false, []⟩]⟩,
  ⟨"PG_LN_DETECT", 0x01000134, [(0x400000, 4), (0x40000, 4), (0x40, 9)], .p, none,
    [⟨"GO", 31, 31, .wo, 0, false, []⟩,
     ⟨"BUSY", 30, 30, .ro, 0, false, []⟩,
     ⟨"TXRES", 29, 27, .ro, 0, false, []⟩,
     ⟨"RXRES", 26, 24, .ro, 0, false, []⟩]⟩,
  ⟨"PG_LKCTL", 0x01000400, [(0x400000, 4), (0x40000, 4)], .w, none,
    [⟨"RETRAIN", 31, 31, .wo, 0, false, []⟩,
     ⟨"RESET", 30, 30, .wo, 0, false, []⟩,
     ⟨"VC8", 29, 29, .rw, 0, false, []⟩,
     ⟨"MINW", 28, 27, .rw, 0, false, [(0, 2)]⟩,
     ⟨"RPLTO", 26, 21, .rw, 4, false, [(1, 63)]⟩,
     ⟨"MAXRPL", 20, 17, .rw, 8, false, [(1, 15)]⟩,
     ⟨"DOWNLIM", 16, 3, .rw, 100, false, [(1, 10000)]⟩]⟩,
  ⟨"PG_LKSTAT", 0x01000404, [(0x400000, 4), (0x40000, 4)], .w, none,
    [⟨"LTSTATE", 31, 28, .ro, 0, false, []⟩,
     ⟨"WIDTH", 27, 26, .ro, 3, false, []⟩,
     ⟨"LEADER", 25, 25, .ro, 0, false, []⟩,
     ⟨"VCS8", 24, 24, .ro, 0, false, []⟩,
     ⟨"PEERDEV", 23, 20, .ro, 0, false, []⟩,
     ⟨"PEERGRP", 19, 16, .ro, 0, false, []⟩,
     ⟨"PEERRST", 15, 15, .w1c, 0, false, []⟩,
     ⟨"DOWNEVT", 14, 14, .w1c, 0, false, []⟩,
     ⟨"OVRUN", 13, 13, .w1c, 0, false, []⟩,
     ⟨"MISRT", 12, 12, .w1c, 0, false, []⟩,
     ⟨"ACKRNG", 11, 11, .w1c, 0, false, []⟩]⟩,
  ⟨"PG_LKSEQ", 0x01000408, [(0x400000, 4), (0x40000, 4)], .w, none,
    [⟨"NEXT", 31, 20, .ro, 0, false, []⟩,
     ⟨"EXP", 19, 8, .ro, 0, false, []⟩]⟩,
  ⟨"PG_LKCNT", 0x0100040c, [(0x400000, 4), (0x40000, 4)], .c, none,
    [⟨"OUTST", 31, 21, .ro, 0, true, []⟩,
     ⟨"RETRAINS", 20, 13, .ro, 0, true, []⟩,
     ⟨"NAKS", 12, 0, .ro, 0, true, []⟩]⟩,
  ⟨"PG_LKERR", 0x01000410, [(0x400000, 4), (0x40000, 4)], .w, none,
    [⟨"CRCERR", 31, 16, .ro, 0, false, []⟩,
     ⟨"FECUNC", 15, 0, .ro, 0, false, []⟩]⟩,
  ⟨"PG_CXLCFG", 0x01000500, [(0x400000, 4), (0x40000, 4)], .m, some 29,
    [⟨"WIDTH", 31, 30, .rws, 0, true, [(0, 2)]⟩,
     ⟨"PNUM0", 29, 25, .rws, 0, true, []⟩,
     ⟨"PNUM1", 24, 20, .rws, 0, true, []⟩,
     ⟨"CTLBAR", 19, 19, .rwl, 1, false, []⟩,
     ⟨"MBXEN", 18, 18, .rwl, 1, false, []⟩,
     ⟨"HRSCOPE", 17, 17, .rwl, 0, false, []⟩,
     ⟨"PRST", 16, 16, .wo, 0, false, []⟩,
     ⟨"EVTVERB", 15, 15, .rw, 0, false, []⟩,
     ⟨"BISTALL", 14, 7, .rw, 10, false, [(1, 255)]⟩]⟩,
  ⟨"PG_CXLSTAT", 0x01000504, [(0x400000, 4), (0x40000, 4)], .p, none,
    [⟨"FLIT0", 31, 30, .ro, 0, false, []⟩,
     ⟨"FLIT1", 29, 28, .ro, 0, false, []⟩,
     ⟨"DB0", 27, 27, .ro, 0, false, []⟩,
     ⟨"DB1", 26, 26, .ro, 0, false, []⟩,
     ⟨"CFGERR", 25, 25, .w1c, 0, false, []⟩,
     ⟨"BISTL", 24, 24, .w1c, 0, false, []⟩,
     ⟨"BIOUT0", 12, 7, .ro, 0, false, []⟩,
     ⟨"BIOUT1", 6, 1, .ro, 0, false, []⟩]⟩]

/-- Rows of the register map, part 10. -/
def regRows10 : List RegRow := [
  ⟨"CH_CFG", 0x01100000, [(0x400000, 4), (0x20000, 4)], .w, none,
    [⟨"STATE", 31, 28, .ro, 0, false, []⟩,
     ⟨"TYPE", 27, 26, .ro, 0, false, []⟩,
     ⟨"DPC", 25, 25, .ro, 0, false, []⟩,
     ⟨"WIDTH", 24, 24, .ro, 0, false, []⟩,
     ⟨"DENS", 23, 21, .ro, 0, false, []⟩,
     ⟨"RANKS", 20, 16, .ro, 0, false, []⟩,
     ⟨"RATE", 15, 8, .ro, 0, false, []⟩,
     ⟨"REJECT", 7, 0, .ro, 0, false, []⟩]⟩,
  ⟨"CH_CTL", 0x01100004, [(0x400000, 4), (0x20000, 4)], .m, none,
    [⟨"MAXRATE", 31, 24, .rws, 0, true, []⟩,
     ⟨"PAGEPOL", 23, 23, .rw, 0, false, []⟩,
     ⟨"PGTIMEOUT", 22, 16, .rw, 16, false, [(1, 127)]⟩]⟩,
  ⟨"CH_SCHED", 0x01100008, [(0x400000, 4), (0x20000, 4)], .w, none,
    [⟨"HIWM", 31, 26, .rw, 48, false, [(8, 56)]⟩,
     ⟨"LOWM", 25, 20, .rw, 16, false, []⟩,
     ⟨"AGECAP", 19, 12, .rw, 100, false, [(1, 255)]⟩,
     ⟨"BGSHARE", 11, 8, .rw, 2, false, [(1, 15)]⟩]⟩,
  ⟨"CH_REFCTL", 0x0110000c, [(0x400000, 4), (0x20000, 4)], .w, none,
    [⟨"SBMODE", 31, 31, .rw, 0, false, []⟩,
     ⟨"FORCE2X", 30, 30, .rw, 0, false, []⟩,
     ⟨"HOTLIM", 29, 22, .rw, 95, false, [(86, 100)]⟩,
     ⟨"MR4INT", 21, 16, .rw, 8, false, [(1, 63)]⟩]⟩,
  ⟨"CH_REFSTAT", 0x01100010, [(0x400000, 4), (0x20000, 4)], .w, none,
    [⟨"RATE2X", 31, 31, .ro, 0, false, []⟩,
     ⟨"SBEFF", 30, 30, .ro, 0, false, []⟩,
     ⟨"HOT", 29, 29, .w1c, 0, false, []⟩,
     ⟨"TSFAIL", 28, 28, .w1c, 0, false, []⟩,
     ⟨"THROTTLE", 27, 27, .ro, 0, false, []⟩,
     ⟨"TEMP", 15, 8, .ro, 255, false, []⟩]⟩,
  ⟨"CH_RHTHRESH", 0x01100014, [(0x400000, 4), (0x20000, 4)], .w, none,
    [⟨"RFMEN", 31, 31, .rw, 1, false, []⟩,
     ⟨"DRFM", 30, 30, .ro, 0, false, []⟩,
     ⟨"THRESH", 14, 0, .rw, 1024, false, [(128, 16384)]⟩]⟩,
  ⟨"CH_RHSTAT", 0x01100018, [(0x400000, 4), (0x20000, 4)], .m, none,
    [⟨"PRESSURE", 31, 31, .w1c, 0, false, []⟩,
     ⟨"MITCNT", 30, 15, .ro, 0, true, []⟩,
     ⟨"MAXF", 14, 0, .ro, 0, false, []⟩]⟩,
  ⟨"CH_ALERTSTAT", 0x0110001c, [(0x400000, 4), (0x20000, 4)], .w, none,
    [⟨"CAPAR", 31, 31, .w1c, 0, false, []⟩,
     ⟨"WRCRC", 30, 30, .w1c, 0, false, []⟩,
     ⟨"ESCAL", 29, 29, .w1c, 0, false, []⟩,
     ⟨"LASTING", 23, 16, .ro, 0, false, []⟩,
     ⟨"TRANSIENT", 15, 0, .ro, 0, false, []⟩]⟩,
  ⟨"CH_MAINT", 0x01100020, [(0x400000, 4), (0x20000, 4)], .w, none,
    [⟨"GO", 31, 31, .wo, 0, false, []⟩,
     ⟨"OP", 30, 29, .wo, 0, false, [(0, 2)]⟩,
     ⟨"BUSY", 28, 28, .ro, 0, false, []⟩,
     ⟨"STATUS", 23, 16, .ro, 0, false, []⟩]⟩,
  ⟨"CH_MAINTADDR", 0x01100024, [(0x400000, 4), (0x20000, 4)], .w, none,
    [⟨"SUB", 31, 31, .rw, 0, false, []⟩,
     ⟨"RANK", 30, 27, .rw, 0, false, []⟩,
     ⟨"BG", 26, 24, .rw, 0, false, []⟩,
     ⟨"BANK", 23, 22, .rw, 0, false, []⟩,
     ⟨"ROW", 21, 0, .rw, 0, false, []⟩]⟩,
  ⟨"CH_ECCCTL", 0x01100040, [(0x400000, 4), (0x20000, 4)], .w, none,
    [⟨"PATROLEN", 31, 31, .rw, 1, false, []⟩,
     ⟨"PERIOD", 30, 21, .rw, 24, false, [(1, 720)]⟩,
     ⟨"TLIM", 20, 17, .rw, 8, false, [(0, 8)]⟩]⟩,
  ⟨"CH_ECCSTAT", 0x01100044, [(0x400000, 4), (0x20000, 4)], .m, none,
    [⟨"UE", 31, 31, .w1c, 0, false, []⟩,
     ⟨"CE", 30, 30, .w1c, 0, false, []⟩,
     ⟨"ZMARGIN", 29, 29, .ro, 0, false, []⟩,
     ⟨"PLFULL", 28, 28, .ro, 0, false, []⟩,
     ⟨"UECNT", 23, 16, .ro, 0, true, []⟩,
     ⟨"CECNT", 15, 0, .ro, 0, true, []⟩]⟩]

/-- Rows of the register map, part 11. -/
def regRows11 : List RegRow := [
  ⟨"CH_PATROLSTAT", 0x01100048, [(0x400000, 4), (0x20000, 4)], .m, none,
    [⟨"RUN", 31, 31, .ro, 0, false, []⟩,
     ⟨"PAUSED", 30, 30, .ro, 0, false, []⟩,
     ⟨"PASSES", 29, 16, .ro, 0, true, []⟩,
     ⟨"PROG", 9, 0, .ro, 0, false, []⟩]⟩,
  ⟨"CH_PASSGTC", 0x0110004c, [(0x400000, 4), (0x20000, 4)], .w, none,
    [⟨"GTCHI", 31, 0, .ro, 0, false, []⟩]⟩,
  ⟨"CH_INJCTL", 0x01100050, [(0x400000, 4), (0x20000, 4)], .w, some 27,
    [⟨"GO", 31, 31, .wo, 0, false, []⟩,
     ⟨"OP", 30, 29, .wo, 0, false, [(0, 2)]⟩,
     ⟨"BUSY", 28, 28, .ro, 0, false, []⟩,
     ⟨"INJEN", 27, 27, .rwl, 0, false, []⟩,
     ⟨"ENT", 26, 25, .rwl, 0, false, []⟩,
     ⟨"RESULT", 24, 22, .ro, 0, false, []⟩,
     ⟨"ERRS", 21, 16, .ro, 0, false, []⟩]⟩,
  ⟨"CH_INJADDRLO", 0x01100054, [(0x400000, 4), (0x20000, 4)], .w, none,
    [⟨"LINELO", 31, 0, .rw, 0, false, []⟩]⟩,
  ⟨"CH_INJADDRHI", 0x01100058, [(0x400000, 4), (0x20000, 4)], .w, none,
    [⟨"LINEHI", 1, 0, .rw, 0, false, []⟩]⟩,
  ⟨"CH_INJDATA", 0x01100080, [(0x400000, 4), (0x20000, 4), (0x4, 16)], .w, none,
    [⟨"BYTES", 31, 0, .rw, 0, false, []⟩]⟩,
  ⟨"CH_INJCHK", 0x011000c0, [(0x400000, 4), (0x20000, 4), (0x4, 4)], .w, none,
    [⟨"BYTES", 31, 0, .rw, 0, false, []⟩]⟩,
  ⟨"CH_MARK", 0x01100100, [(0x400000, 4), (0x20000, 4), (0x4, 32)], .c, none,
    [⟨"SRC", 31, 31, .ro, 0, true, []⟩,
     ⟨"MASK", 9, 0, .rws, 0, true, []⟩]⟩,
  ⟨"KS_OPCTL", 0x01180000, [(0x400000, 4), (0x10000, 4)], .w, none,
    [⟨"GO", 31, 31, .wo, 0, false, []⟩,
     ⟨"OP", 30, 29, .wo, 0, false, [(0, 1)]⟩,
     ⟨"SCOPE", 28, 28, .wo, 0, false, []⟩,
     ⟨"DOMAIN", 13, 0, .wo, 0, false, []⟩]⟩,
  ⟨"KS_OPSTAT", 0x01180004, [(0x400000, 4), (0x10000, 4)], .w, none,
    [⟨"BUSY", 31, 31, .ro, 0, false, []⟩,
     ⟨"POISONED", 16, 16, .w1c, 0, false, []⟩,
     ⟨"SETS", 13, 0, .ro, 0, false, []⟩]⟩,
  ⟨"KS_SPILLWAYS", 0x01180008, [(0x400000, 4), (0x10000, 4)], .w, none,
    [⟨"WAYS", 15, 0, .rw, 65535, false, []⟩]⟩,
  ⟨"KS_WAYDIS", 0x0118000c, [(0x400000, 4), (0x10000, 4)], .c, none,
    [⟨"WAYS", 15, 0, .rws, 0, true, []⟩]⟩]

/-- Rows of the register map, part 12. -/
def regRows12 : List RegRow := [
  ⟨"ENG_CZCTL", 0x011c0000, [(0x400000, 4), (0x10000, 4)], .c, none,
    [⟨"CDIS", 31, 31, .rws, 0, true, []⟩,
     ⟨"DDIS", 30, 30, .rws, 0, true, []⟩]⟩,
  ⟨"ENG_CZSTAT", 0x011c0004, [(0x400000, 4), (0x10000, 4)], .w, none,
    [⟨"CFAULT", 31, 31, .w1c, 0, false, []⟩,
     ⟨"DFAULT", 30, 30, .w1c, 0, false, []⟩,
     ⟨"FMTERR", 29, 29, .w1c, 0, false, []⟩,
     ⟨"CQ", 10, 8, .ro, 0, false, []⟩,
     ⟨"DQ", 7, 5, .ro, 0, false, []⟩]⟩,
  ⟨"ENG_XCTL", 0x011c0010, [(0x400000, 4), (0x10000, 4)], .c, none,
    [⟨"XEDIS", 31, 31, .rws, 0, true, []⟩,
     ⟨"XDDIS", 30, 30, .rws, 0, true, []⟩]⟩,
  ⟨"ENG_XSTAT", 0x011c0014, [(0x400000, 4), (0x10000, 4)], .m, none,
    [⟨"TAGFAIL", 31, 31, .w1c, 0, false, []⟩,
     ⟨"XFAULT", 30, 30, .w1c, 0, false, []⟩,
     ⟨"TAGCNT", 15, 0, .ro, 0, true, []⟩]⟩,
  ⟨"SH_CTL", 0x01240000, [(0x400000, 4), (0x800, 8)], .i, none,
    [⟨"EN", 31, 31, .rw, 1, false, []⟩,
     ⟨"SAMPLE", 25, 16, .rw, 99, false, []⟩,
     ⟨"OVH", 7, 0, .rw, 0, false, []⟩]⟩,
  ⟨"SH_BKT", 0x01240200, [(0x400000, 4), (0x800, 8), (0x4, 64)], .i, none,
    [⟨"RATE", 31, 16, .rw, 0, false, []⟩,
     ⟨"BURST", 15, 0, .rw, 1024, false, [(1, 65535)]⟩]⟩,
  ⟨"SH_SAMP", 0x01240400, [(0x400000, 4), (0x800, 8), (0x4, 64)], .w, none,
    [⟨"MAXDLY", 31, 16, .ro, 0, false, []⟩,
     ⟨"DEPTH", 11, 0, .ro, 0, false, []⟩]⟩,
  ⟨"RC_BSTAT", 0x01280000, [(0x400000, 4)], .w, none,
    [⟨"LOST", 31, 31, .w1c, 0, false, []⟩,
     ⟨"FROZEN", 30, 30, .ro, 0, false, []⟩]⟩,
  ⟨"RC_OVF", 0x01280004, [(0x400000, 4), (0x4, 3)], .w, none,
    [⟨"OVF", 31, 0, .w1c, 0, false, []⟩]⟩,
  ⟨"RC_C_CTL", 0x01280100, [(0x400000, 4), (0x10, 80)], .i, none,
    [⟨"EN", 31, 31, .rw, 0, false, []⟩,
     ⟨"CLR", 30, 30, .wo, 0, false, []⟩,
     ⟨"SAT", 29, 29, .rw, 0, false, []⟩,
     ⟨"MODE", 28, 27, .rw, 0, false, [(0, 2)]⟩,
     ⟨"UNIT", 26, 24, .rw, 0, false, [(0, 4)]⟩,
     ⟨"EVENT", 23, 16, .rw, 0, false, []⟩,
     ⟨"THRESH", 11, 0, .rw, 0, false, []⟩]⟩,
  ⟨"RC_C_FILT", 0x01280104, [(0x400000, 4), (0x10, 80)], .i, none,
    [⟨"DOMEN", 31, 31, .rw, 0, false, []⟩,
     ⟨"CLSEN", 30, 30, .rw, 0, false, []⟩,
     ⟨"VIEW", 29, 29, .rw, 0, false, []⟩,
     ⟨"DOMAIN", 27, 14, .rw, 0, false, []⟩,
     ⟨"QCLASS", 5, 0, .rw, 0, false, []⟩]⟩,
  ⟨"RC_C_LO", 0x01280108, [(0x400000, 4), (0x10, 80)], .w, none,
    [⟨"CNTLO", 31, 0, .ro, 0, false, []⟩]⟩]

/-- Rows of the register map, part 13. -/
def regRows13 : List RegRow := [
  ⟨"RC_C_HI", 0x0128010c, [(0x400000, 4), (0x10, 80)], .w, none,
    [⟨"CNTHI", 15, 0, .ro, 0, false, []⟩]⟩,
  ⟨"RC_C_SLO", 0x01280800, [(0x400000, 4), (0x8, 80)], .w, none,
    [⟨"CNTLO", 31, 0, .ro, 0, false, []⟩]⟩,
  ⟨"RC_C_SHI", 0x01280804, [(0x400000, 4), (0x8, 80)], .w, none,
    [⟨"CNTHI", 15, 0, .ro, 0, false, []⟩]⟩,
  ⟨"TR_CTL", 0x01281000, [(0x400000, 4)], .w, none,
    [⟨"EN", 31, 31, .rw, 0, false, []⟩,
     ⟨"WRAP", 30, 30, .rw, 1, false, []⟩,
     ⟨"HALSTOP", 29, 29, .rw, 0, false, []⟩,
     ⟨"TRIGSTOP", 28, 28, .rw, 0, false, []⟩,
     ⟨"K", 27, 23, .rw, 10, false, [(6, 20)]⟩]⟩,
  ⟨"TR_SEED", 0x01281004, [(0x400000, 4)], .w, none,
    [⟨"SEED", 31, 0, .rw, 1, false, []⟩]⟩,
  ⟨"TR_STAT", 0x01281008, [(0x400000, 4)], .w, none,
    [⟨"FULL", 31, 31, .ro, 0, false, []⟩,
     ⟨"STOPPED", 30, 30, .ro, 0, false, []⟩,
     ⟨"WPTR", 27, 16, .ro, 0, false, []⟩,
     ⟨"DROP", 15, 0, .ro, 0, false, []⟩]⟩,
  ⟨"TR_IDX", 0x0128100c, [(0x400000, 4)], .w, none,
    [⟨"IDX", 11, 0, .rw, 0, false, []⟩]⟩,
  ⟨"TR_DATA", 0x01281040, [(0x400000, 4), (0x4, 16)], .w, none,
    [⟨"BYTES", 31, 0, .ro, 0, false, []⟩]⟩,
  ⟨"G_STAT", 0x012c0000, [(0x400000, 4), (0x10000, 2)], .w, none,
    [⟨"STATE", 31, 29, .ro, 0, false, []⟩,
     ⟨"HOSTPRIV", 28, 28, .ro, 0, false, []⟩,
     ⟨"FCAUSE", 27, 24, .ro, 0, false, []⟩,
     ⟨"PC", 17, 0, .ro, 0, false, []⟩]⟩,
  ⟨"RF_STAT", 0x01300000, [(0x400000, 4)], .c, none,
    [⟨"ESCEVT", 31, 31, .w1c, 0, true, []⟩,
     ⟨"BNDEVT", 30, 30, .w1c, 0, true, []⟩,
     ⟨"SPROWS", 23, 16, .ro, 0, true, []⟩,
     ⟨"CONTAINED", 15, 0, .ro, 0, true, []⟩]⟩]

/-- Every register of the map (R476). -/
def regRows : List RegRow :=
  regRows0 ++ regRows1 ++ regRows2 ++ regRows3 ++ regRows4 ++ regRows5 ++ regRows6 ++ regRows7 ++ regRows8 ++ regRows9 ++ regRows10 ++ regRows11 ++ regRows12 ++ regRows13

/-- Whether an offset is `rem` words into the index space of `dims`. -/
def hitDims : List (Nat × Nat) → Nat → Bool
  | [], rem => rem == 0
  | (stride, count) :: ds, rem => decide (rem / stride < count) && hitDims ds (rem % stride)

/-- The row of the register at a control-window offset, if a table assigns the offset (R472). -/
def regRow (off : Nat) : Option RegRow :=
  regRows.find? fun r => decide (r.base ≤ off) && hitDims r.dims (off - r.base)

/-- The indices of the register at `rem`, highest stride first. -/
def dimIndices : List (Nat × Nat) → Nat → List Nat
  | [], _ => []
  | (stride, _) :: ds, rem => (rem / stride) :: dimIndices ds (rem % stride)

/-- The Reset value of a register: its fields' Reset values in their places (R17). -/
def RegRow.resetVal (r : RegRow) : Nat :=
  r.fields.foldl (fun acc f => acc + f.reset * 2 ^ f.lo) 0

/-- The Reset value of the register at an offset; 0 at an unassigned offset, which reads 0 (R472). The staging word that holds
`KWAYS` stages its Reset value. -/
def regReset (off : Nat) : BitVec 32 :=
  if off = 0x22C then 0xFFFF
  else
    match regRow off with
    | some r => BitVec.ofNat 32 r.resetVal
    | none => 0

namespace R

def CHIP_CLAIMSTAT : Nat := 0x180
def CHIP_CLAIMSTAT_DENIED : Fld := ⟨CHIP_CLAIMSTAT, 31, 31⟩
def CHIP_CLAIMSTAT_COUNT : Fld := ⟨CHIP_CLAIMSTAT, 27, 24⟩
def CHIP_CLAIMSTAT_RESOURCE : Fld := ⟨CHIP_CLAIMSTAT, 23, 16⟩
def CHIP_CLAIMSTAT_CLAIMANT : Fld := ⟨CHIP_CLAIMSTAT, 15, 8⟩
def CHIP_CLAIMSTAT_HOLDER : Fld := ⟨CHIP_CLAIMSTAT, 7, 0⟩
def CHIP_DOMSTAGE (k : Nat) : Nat := 0x200 + 0x4 * k
def CHIP_DOMSTAGE_WORD (k : Nat) : Fld := ⟨CHIP_DOMSTAGE k, 31, 0⟩
def CHIP_DOMCOMMIT : Nat := 0x240
def CHIP_DOMCOMMIT_GO : Fld := ⟨CHIP_DOMCOMMIT, 31, 31⟩
def CHIP_DOMCOMMIT_OP : Fld := ⟨CHIP_DOMCOMMIT, 15, 14⟩
def CHIP_DOMCOMMIT_DOMAIN : Fld := ⟨CHIP_DOMCOMMIT, 13, 0⟩
def CHIP_DOMSTAT : Nat := 0x244
def CHIP_DOMSTAT_BUSY : Fld := ⟨CHIP_DOMSTAT, 31, 31⟩
def CHIP_DOMSTAT_STATUS : Fld := ⟨CHIP_DOMSTAT, 23, 16⟩
def CHIP_DOMSTAT_DOMAIN : Fld := ⟨CHIP_DOMSTAT, 13, 0⟩
def CHIP_TMCTL : Nat := 0x300
def CHIP_TMCTL_OVC : Fld := ⟨CHIP_TMCTL, 31, 26⟩
def CHIP_TMCTL_LOWPCT : Fld := ⟨CHIP_TMCTL, 25, 22⟩
def CHIP_TMCTL_EPOCH : Fld := ⟨CHIP_TMCTL, 21, 18⟩
def CHIP_TMCTL_RELINT : Fld := ⟨CHIP_TMCTL, 17, 14⟩
def CHIP_TMCTL_RELEN : Fld := ⟨CHIP_TMCTL, 13, 13⟩
def CHIP_TMSTAT : Nat := 0x304
def CHIP_TMSTAT_STATE : Fld := ⟨CHIP_TMSTAT, 31, 30⟩
def CHIP_TMSTAT_HELDEVT : Fld := ⟨CHIP_TMSTAT, 29, 29⟩
def CHIP_TMSTAT_RESEVT : Fld := ⟨CHIP_TMSTAT, 28, 28⟩
def CHIP_TMSTAT_BACKPR : Fld := ⟨CHIP_TMSTAT, 27, 27⟩
def CHIP_TMSTAT_WAITING : Fld := ⟨CHIP_TMSTAT, 15, 0⟩
def CHIP_TMCAP (k : Nat) : Nat := 0x308 + 0x4 * k
def CHIP_TMCAP_MIB (k : Nat) : Fld := ⟨CHIP_TMCAP k, 31, 0⟩
def CHIP_TMREL (k : Nat) : Nat := 0x320 + 0x4 * k
def CHIP_TMREL_VALID (k : Nat) : Fld := ⟨CHIP_TMREL k, 31, 31⟩
def CHIP_TMREL_AUTODEL (k : Nat) : Fld := ⟨CHIP_TMREL k, 30, 30⟩
def CHIP_TMREL_RSTATE (k : Nat) : Fld := ⟨CHIP_TMREL k, 29, 28⟩
def CHIP_TMREL_DOMAIN (k : Nat) : Fld := ⟨CHIP_TMREL k, 13, 0⟩
def CHIP_CZCTL : Nat := 0x380
def CHIP_CZCTL_PATEN : Fld := ⟨CHIP_CZCTL, 31, 31⟩
def CHIP_CZCTL_MAXSECT : Fld := ⟨CHIP_CZCTL, 27, 24⟩
def CHIP_PEERLIM (k : Nat) : Nat := 0x400 + 0x4 * k
def CHIP_PEERLIM_OSNP (k : Nat) : Fld := ⟨CHIP_PEERLIM k, 30, 20⟩
def CHIP_PEERLIM_OWB (k : Nat) : Fld := ⟨CHIP_PEERLIM k, 19, 10⟩
def CHIP_PEERLIM_OREQ (k : Nat) : Fld := ⟨CHIP_PEERLIM k, 9, 0⟩
def GA_STAT : Nat := 0x500
def GA_STAT_STATE : Fld := ⟨GA_STAT, 31, 29⟩
def GA_STAT_HOSTPRIV : Fld := ⟨GA_STAT, 28, 28⟩
def GA_STAT_FCAUSE : Fld := ⟨GA_STAT, 27, 24⟩
def GA_STAT_PC : Fld := ⟨GA_STAT, 17, 0⟩
def CHIP_BOOTSTAT : Nat := 0x600
def CHIP_BOOTSTAT_READY : Fld := ⟨CHIP_BOOTSTAT, 31, 31⟩
def CHIP_BOOTSTAT_DISCARD : Fld := ⟨CHIP_BOOTSTAT, 30, 30⟩
def CHIP_BOOTSTAT_DEFBUILT : Fld := ⟨CHIP_BOOTSTAT, 29, 29⟩
def CHIP_BOOTSTAT_REFBAD : Fld := ⟨CHIP_BOOTSTAT, 28, 28⟩
def CHIP_BOOTSTAT_OSCBAD : Fld := ⟨CHIP_BOOTSTAT, 27, 27⟩
def CHIP_BOOTSTAT_RSTCAUSE : Fld := ⟨CHIP_BOOTSTAT, 26, 24⟩
def CHIP_BOOTSTAT_PHASE : Fld := ⟨CHIP_BOOTSTAT, 23, 20⟩
def CHIP_BOOTSTAT_TRNFULL : Fld := ⟨CHIP_BOOTSTAT, 15, 0⟩
def CHIP_STRAP : Nat := 0x604
def CHIP_STRAP_PGMODE : Fld := ⟨CHIP_STRAP, 31, 16⟩
def CHIP_STRAP_X16 : Fld := ⟨CHIP_STRAP, 15, 8⟩
def CHIP_STRAP_DEVNUM : Fld := ⟨CHIP_STRAP, 7, 4⟩
def CHIP_RSTCTL : Nat := 0x608
def CHIP_RSTCTL_WARM : Fld := ⟨CHIP_RSTCTL, 31, 31⟩
def CHIP_RSTCTL_ORDERLY : Fld := ⟨CHIP_RSTCTL, 30, 30⟩
def CHIP_RSTCTL_DRAINLIM : Fld := ⟨CHIP_RSTCTL, 7, 0⟩
def CHIP_BOOTTIME : Nat := 0x60c
def CHIP_BOOTTIME_MS : Fld := ⟨CHIP_BOOTTIME, 31, 0⟩
def CHIP_GTCLO : Nat := 0x610
def CHIP_GTCLO_GTCLO : Fld := ⟨CHIP_GTCLO, 31, 0⟩
def CHIP_GTCHI : Nat := 0x614
def CHIP_GTCHI_GTCHI : Fld := ⟨CHIP_GTCHI, 31, 0⟩
def CHIP_GTCCTL : Nat := 0x618
def CHIP_GTCCTL_SYNCMODE : Fld := ⟨CHIP_GTCCTL, 31, 30⟩
def CHIP_GTCCTL_LOCKED : Fld := ⟨CHIP_GTCCTL, 29, 29⟩
def CHIP_GTCCTL_LOADREJ : Fld := ⟨CHIP_GTCCTL, 28, 28⟩
def CHIP_GTCCTL_SYNCOFS : Fld := ⟨CHIP_GTCCTL, 15, 8⟩
def CHIP_GTCCTL_ERR : Fld := ⟨CHIP_GTCCTL, 7, 0⟩
def CHIP_GTCLOAD0 : Nat := 0x620
def CHIP_GTCLOAD0_LOADLO : Fld := ⟨CHIP_GTCLOAD0, 31, 0⟩
def CHIP_GTCLOAD1 : Nat := 0x624
def CHIP_GTCLOAD1_ARM : Fld := ⟨CHIP_GTCLOAD1, 31, 31⟩
def CHIP_GTCLOAD1_LOADHI : Fld := ⟨CHIP_GTCLOAD1, 11, 0⟩
def FD_STAT : Nat := 0x10000
def FD_STAT_PG : Fld := ⟨FD_STAT, 31, 31⟩
def FD_STAT_PFW : Fld := ⟨FD_STAT, 30, 30⟩
def FD_STAT_TLATCH : Fld := ⟨FD_STAT, 29, 29⟩
def FD_STAT_PFWSRC : Fld := ⟨FD_STAT, 28, 28⟩
def FD_STAT_STATEA : Fld := ⟨FD_STAT, 27, 25⟩
def FD_STAT_STATEB : Fld := ⟨FD_STAT, 24, 22⟩
def FD_STAT_TRIPA : Fld := ⟨FD_STAT, 21, 19⟩
def FD_STAT_TRIPB : Fld := ⟨FD_STAT, 18, 16⟩
def FD_STAT_EVHEAD : Fld := ⟨FD_STAT, 3, 0⟩
def FD_CMD : Nat := 0x10004
def FD_CMD_CLRA : Fld := ⟨FD_CMD, 31, 31⟩
def FD_CMD_CLRB : Fld := ⟨FD_CMD, 30, 30⟩
def FD_CMD_CLRT : Fld := ⟨FD_CMD, 29, 29⟩
def FD_COMMIT : Nat := 0x10040
def FD_COMMIT_GO : Fld := ⟨FD_COMMIT, 31, 31⟩
def FD_COMMIT_OP : Fld := ⟨FD_COMMIT, 30, 30⟩
def FD_COMMIT_BUSY : Fld := ⟨FD_COMMIT, 29, 29⟩
def FD_COMMIT_STATUS : Fld := ⟨FD_COMMIT, 23, 16⟩
def FD_WIN : Nat := 0x10008
def FD_WIN_UVOFF : Fld := ⟨FD_WIN, 31, 25⟩
def FD_WIN_UVON : Fld := ⟨FD_WIN, 24, 18⟩
def FD_WIN_OVON : Fld := ⟨FD_WIN, 17, 11⟩
def FD_WIN_OVOFF : Fld := ⟨FD_WIN, 10, 4⟩
def FD_PFW : Nat := 0x1000c
def FD_PFW_VPFW : Fld := ⟨FD_PFW, 31, 25⟩
def FD_PFW_PFWFILT : Fld := ⟨FD_PFW, 24, 21⟩
def FD_SEQ : Nat := 0x10010
def FD_SEQ_INSDLY : Fld := ⟨FD_SEQ, 31, 24⟩
def FD_SEQ_INRUSH : Fld := ⟨FD_SEQ, 23, 17⟩
def FD_SEQ_TSTART : Fld := ⟨FD_SEQ, 16, 10⟩
def FD_RETRY : Nat := 0x10014
def FD_RETRY_RETRIES : Fld := ⟨FD_RETRY, 31, 29⟩
def FD_RETRY_RETRYDLY : Fld := ⟨FD_RETRY, 28, 21⟩
def FD_RETRY_COOL : Fld := ⟨FD_RETRY, 20, 17⟩
def FD_SHUNT : Nat := 0x10018
def FD_SHUNT_SHUNT : Fld := ⟨FD_SHUNT, 31, 25⟩
def FD_SHUNT_FAST : Fld := ⟨FD_SHUNT, 24, 15⟩
def FD_BP0 : Nat := 0x10020
def FD_BP0_CUR : Fld := ⟨FD_BP0, 31, 22⟩
def FD_BP0_TIME : Fld := ⟨FD_BP0, 21, 0⟩
def FD_BP1 : Nat := 0x10024
def FD_BP1_CUR : Fld := ⟨FD_BP1, 31, 22⟩
def FD_BP1_TIME : Fld := ⟨FD_BP1, 21, 0⟩
def FD_BP2 : Nat := 0x10028
def FD_BP2_CUR : Fld := ⟨FD_BP2, 31, 22⟩
def FD_BP2_TIME : Fld := ⟨FD_BP2, 21, 0⟩
def FD_BP3 : Nat := 0x1002c
def FD_BP3_CUR : Fld := ⟨FD_BP3, 31, 22⟩
def FD_BP3_TIME : Fld := ⟨FD_BP3, 21, 0⟩
def FD_BP4 : Nat := 0x10030
def FD_BP4_CUR : Fld := ⟨FD_BP4, 31, 22⟩
def FD_BP4_TIME : Fld := ⟨FD_BP4, 21, 0⟩
def FD_BP5 : Nat := 0x10034
def FD_BP5_CUR : Fld := ⟨FD_BP5, 31, 22⟩
def FD_BP5_TIME : Fld := ⟨FD_BP5, 21, 0⟩
def FD_BP6 : Nat := 0x10038
def FD_BP6_CUR : Fld := ⟨FD_BP6, 31, 22⟩
def FD_BP6_TIME : Fld := ⟨FD_BP6, 21, 0⟩
def FD_BP7 : Nat := 0x1003c
def FD_BP7_CUR : Fld := ⟨FD_BP7, 31, 22⟩
def FD_BP7_TIME : Fld := ⟨FD_BP7, 21, 0⟩
def FD_TELA : Nat := 0x10048
def FD_TELA_VIN : Fld := ⟨FD_TELA, 31, 21⟩
def FD_TELA_IIN : Fld := ⟨FD_TELA, 20, 11⟩
def FD_TELB : Nat := 0x1004c
def FD_TELB_VIN : Fld := ⟨FD_TELB, 31, 21⟩
def FD_TELB_IIN : Fld := ⟨FD_TELB, 20, 11⟩
def FD_TELBULK : Nat := 0x10050
def FD_TELBULK_VBULK : Fld := ⟨FD_TELBULK, 31, 21⟩
def FD_TELBULK_TEMP : Fld := ⟨FD_TELBULK, 20, 13⟩
def FD_EVT (k : Nat) : Nat := 0x10060 + 0x4 * k
def FD_EVT_CODE (k : Nat) : Fld := ⟨FD_EVT k, 31, 24⟩
def FD_EVT_FEED (k : Nat) : Fld := ⟨FD_EVT k, 23, 22⟩
def FD_EVT_ARG (k : Nat) : Fld := ⟨FD_EVT k, 21, 19⟩
def FD_EVT_MS (k : Nat) : Fld := ⟨FD_EVT k, 18, 0⟩
def FD_OTPCTL : Nat := 0x100c0
def FD_OTPCTL_BURN : Fld := ⟨FD_OTPCTL, 31, 31⟩
def FD_OTPCTL_PROG : Fld := ⟨FD_OTPCTL, 30, 30⟩
def FD_OTPCTL_KEY : Fld := ⟨FD_OTPCTL, 7, 0⟩
def FD_LINK : Nat := 0x100fc
def FD_LINK_LOST : Fld := ⟨FD_LINK, 31, 31⟩
def PS_CTL : Nat := 0x20000
def PS_CTL_MAXSTATE : Fld := ⟨PS_CTL, 31, 30⟩
def PS_CTL_PTOLSCALE : Fld := ⟨PS_CTL, 29, 27⟩
def PS_CTL_PTOLVAL : Fld := ⟨PS_CTL, 26, 17⟩
def PS_STAT : Nat := 0x20004
def PS_STAT_STATE : Fld := ⟨PS_STAT, 31, 30⟩
def PS_STAT_LIMIT : Fld := ⟨PS_STAT, 29, 28⟩
def PS_STAT_PACEHOLD : Fld := ⟨PS_STAT, 27, 27⟩
def PS_STAT_TOLHOLD : Fld := ⟨PS_STAT, 26, 26⟩
def PS_STAT_BUSY : Fld := ⟨PS_STAT, 25, 25⟩
def PS_STAT_WAKEEVT : Fld := ⟨PS_STAT, 24, 24⟩
def PS_STAT_WAKESRC : Fld := ⟨PS_STAT, 23, 20⟩
def PS_TOLMIN : Nat := 0x20008
def PS_TOLMIN_TMIN : Fld := ⟨PS_TOLMIN, 31, 0⟩
def PS_RES (k : Nat) : Nat := 0x20010 + 0x4 * k
def PS_RES_MS (k : Nat) : Fld := ⟨PS_RES k, 31, 0⟩
def CF_STAT : Nat := 0x30000
def CF_STAT_DEVLOST : Fld := ⟨CF_STAT, 31, 31⟩
def CF_STAT_THERMTRIP : Fld := ⟨CF_STAT, 30, 30⟩
def CF_STAT_NEWREC : Fld := ⟨CF_STAT, 29, 29⟩
def CF_STAT_CAUSE : Fld := ⟨CF_STAT, 23, 16⟩
def CF_STAT_PEERLOST : Fld := ⟨CF_STAT, 15, 0⟩
def CF_CTL : Nat := 0x30004
def CF_CTL_DECLARE : Fld := ⟨CF_CTL, 31, 31⟩
def CF_CTL_KILL : Fld := ⟨CF_CTL, 30, 30⟩
def CF_CTL_PEER : Fld := ⟨CF_CTL, 27, 24⟩
def CF_CTL_FAULTSEV : Fld := ⟨CF_CTL, 23, 21⟩
def CF_NEXT : Nat := 0x30008
def CF_NEXT_NEXT : Fld := ⟨CF_NEXT, 31, 0⟩
def CF_RECIDX : Nat := 0x3000c
def CF_RECIDX_IDX : Fld := ⟨CF_RECIDX, 31, 0⟩
def CF_REC (k : Nat) : Nat := 0x30040 + 0x4 * k
def CF_REC_BYTES (k : Nat) : Fld := ⟨CF_REC k, 31, 0⟩
def PL_CTL : Nat := 0x40000
def PL_CTL_GO : Fld := ⟨PL_CTL, 31, 31⟩
def PL_CTL_OP : Fld := ⟨PL_CTL, 30, 28⟩
def PL_CTL_PACE : Fld := ⟨PL_CTL, 19, 12⟩
def PL_STAT : Nat := 0x40004
def PL_STAT_STATE : Fld := ⟨PL_STAT, 31, 30⟩
def PL_STAT_LASTOK : Fld := ⟨PL_STAT, 29, 29⟩
def PL_STAT_BUSY : Fld := ⟨PL_STAT, 28, 28⟩
def PL_STAT_PEND : Fld := ⟨PL_STAT, 27, 27⟩
def PL_STAT_WEAR90 : Fld := ⟨PL_STAT, 26, 26⟩
def PL_STAT_RETIRED : Fld := ⟨PL_STAT, 25, 16⟩
def PL_STAT_DROP : Fld := ⟨PL_STAT, 15, 0⟩
def PL_WEAR : Nat := 0x40008
def PL_WEAR_LAPS : Fld := ⟨PL_WEAR, 26, 0⟩
def PL_LIFE (k : Nat) : Nat := 0x40040 + 0x4 * k
def PL_LIFE_COUNT (k : Nat) : Fld := ⟨PL_LIFE k, 31, 0⟩
def MG_ID : Nat := 0x50000
def MG_ID_DEVID : Fld := ⟨MG_ID, 31, 16⟩
def MG_ID_REV : Fld := ⟨MG_ID, 15, 8⟩
def MG_SERIALLO : Nat := 0x50004
def MG_SERIALLO_SERIAL : Fld := ⟨MG_SERIALLO, 31, 0⟩
def MG_SERIALHI : Nat := 0x50008
def MG_SERIALHI_SERIAL : Fld := ⟨MG_SERIALHI, 31, 0⟩
def MG_SBCTL : Nat := 0x50010
def MG_SBCTL_SMBADDR : Fld := ⟨MG_SBCTL, 31, 25⟩
def MG_SBCTL_SMBEN : Fld := ⟨MG_SBCTL, 24, 24⟩
def MG_SBCTL_I3CEN : Fld := ⟨MG_SBCTL, 23, 23⟩
def MG_SBCTL_PECREQ : Fld := ⟨MG_SBCTL, 22, 22⟩
def MG_SBCTL_ALERTMASK : Fld := ⟨MG_SBCTL, 21, 19⟩
def MG_LOCK : Nat := 0x50020
def MG_LOCK_BARWR : Fld := ⟨MG_LOCK, 31, 31⟩
def MG_LOCK_SBWR : Fld := ⟨MG_LOCK, 30, 30⟩
def MG_LOCK_PORTLK : Fld := ⟨MG_LOCK, 29, 29⟩
def MG_LOCK_SECLK : Fld := ⟨MG_LOCK, 28, 28⟩
def MG_LOCK_INJLK : Fld := ⟨MG_LOCK, 27, 27⟩
def MG_LOCK_FEEDLK : Fld := ⟨MG_LOCK, 26, 26⟩
def MG_LOCK_TAPLK : Fld := ⟨MG_LOCK, 25, 25⟩
def MG_LOCK_MGLK : Fld := ⟨MG_LOCK, 24, 24⟩
def MG_THERM : Nat := 0x50030
def MG_THERM_TREG : Fld := ⟨MG_THERM, 31, 0⟩
def MG_THCTL : Nat := 0x50034
def MG_THCTL_THWARN : Fld := ⟨MG_THCTL, 31, 24⟩
def MG_THSTAT : Nat := 0x50038
def MG_THSTAT_WARN : Fld := ⟨MG_THSTAT, 31, 31⟩
def MG_THSTAT_TMAX : Fld := ⟨MG_THSTAT, 7, 0⟩
def MG_PWR (k : Nat) : Nat := 0x50040 + 0x4 * k
def MG_PWR_PWR (k : Nat) : Fld := ⟨MG_PWR k, 15, 0⟩
def SEC_KEYSTAGE (k : Nat) : Nat := 0x50100 + 0x4 * k
def SEC_KEYSTAGE_WORD (k : Nat) : Fld := ⟨SEC_KEYSTAGE k, 31, 0⟩
def SEC_KEYOP : Nat := 0x50180
def SEC_KEYOP_GO : Fld := ⟨SEC_KEYOP, 31, 31⟩
def SEC_KEYOP_OP : Fld := ⟨SEC_KEYOP, 30, 28⟩
def SEC_KEYOP_DOMAIN : Fld := ⟨SEC_KEYOP, 13, 0⟩
def SEC_KEYSTAT : Nat := 0x50184
def SEC_KEYSTAT_BUSY : Fld := ⟨SEC_KEYSTAT, 31, 31⟩
def SEC_KEYSTAT_STATUS : Fld := ⟨SEC_KEYSTAT, 23, 16⟩
def SEC_KEYSTAT_DOMAIN : Fld := ⟨SEC_KEYSTAT, 13, 0⟩
def SEC_KEYCTL : Nat := 0x50188
def SEC_KEYCTL_REQHOST : Fld := ⟨SEC_KEYCTL, 31, 31⟩
def SEC_KEYMAP (k : Nat) : Nat := 0x51000 + 0x4 * k
def SEC_KEYMAP_STATE (k : Nat) : Fld := ⟨SEC_KEYMAP k, 31, 0⟩
def RGL_CTL : Nat := 0x200000
def RGL_CTL_EN : Fld := ⟨RGL_CTL, 31, 31⟩
def RGL_CTL_WINDOW : Fld := ⟨RGL_CTL, 9, 0⟩
def RGL_FLOOR : Nat := 0x200004
def RGL_FLOOR_HEALTHY : Fld := ⟨RGL_FLOOR, 31, 27⟩
def RGL_FLOOR_FLOOR : Fld := ⟨RGL_FLOOR, 24, 0⟩
def RGL_COMMIT : Nat := 0x200008
def RGL_COMMIT_GO : Fld := ⟨RGL_COMMIT, 31, 31⟩
def RGL_COMMIT_OP : Fld := ⟨RGL_COMMIT, 30, 30⟩
def RGL_STAT : Nat := 0x20000c
def RGL_STAT_BUSY : Fld := ⟨RGL_STAT, 31, 31⟩
def RGL_STAT_DEGRADED : Fld := ⟨RGL_STAT, 30, 30⟩
def RGL_STAT_PACEOVER : Fld := ⟨RGL_STAT, 29, 29⟩
def RGL_STAT_DEGEVT : Fld := ⟨RGL_STAT, 28, 28⟩
def RGL_STAT_STATUS : Fld := ⟨RGL_STAT, 23, 16⟩
def RGL_STAT_WINDOW : Fld := ⟨RGL_STAT, 9, 0⟩
def RGL_MST (k : Nat) : Nat := 0x201000 + 0x4 * k
def RGL_MST_WEIGHT (k : Nat) : Fld := ⟨RGL_MST k, 31, 24⟩
def RGL_MST_MIN (k : Nat) : Fld := ⟨RGL_MST k, 23, 0⟩
def RGL_PEER (k : Nat) : Nat := 0x201400 + 0x4 * k
def RGL_PEER_WEIGHT (k : Nat) : Fld := ⟨RGL_PEER k, 31, 24⟩
def RGL_PEER_MIN (k : Nat) : Fld := ⟨RGL_PEER k, 23, 0⟩
def RGL_PACE (k : Nat) : Nat := 0x201480 + 0x4 * k
def RGL_PACE_PQW (k : Nat) : Fld := ⟨RGL_PACE k, 31, 28⟩
def RGL_PACE_PQR (k : Nat) : Fld := ⟨RGL_PACE k, 27, 24⟩
def RGL_PACE_PBUDGET (k : Nat) : Fld := ⟨RGL_PACE k, 23, 0⟩
def RGL_CLS (k : Nat) : Nat := 0x201600 + 0x4 * k
def RGL_CLS_CAP (k : Nat) : Fld := ⟨RGL_CLS k, 23, 0⟩
def RGL_CLSCNT (k : Nat) : Nat := 0x201700 + 0x4 * k
def RGL_CLSCNT_CAPHIT (k : Nat) : Fld := ⟨RGL_CLSCNT k, 31, 31⟩
def RGL_CLSCNT_COUNT (k : Nat) : Fld := ⟨RGL_CLSCNT k, 24, 0⟩
def RGL_RGMAP (k : Nat) : Nat := 0x201800 + 0x4 * k
def RGL_RGMAP_GRP (k : Nat) : Fld := ⟨RGL_RGMAP k, 23, 0⟩
def CHIP_CBSTAT : Nat := 0x300000
def CHIP_CBSTAT_LOST : Fld := ⟨CHIP_CBSTAT, 31, 31⟩
def CHIP_CBSTAT_FROZEN : Fld := ⟨CHIP_CBSTAT, 30, 30⟩
def CHIP_COVF0 : Nat := 0x300004
def CHIP_COVF0_OVF : Fld := ⟨CHIP_COVF0, 31, 0⟩
def CHIP_C_CTL (k : Nat) : Nat := 0x300100 + 0x10 * k
def CHIP_C_CTL_EN (k : Nat) : Fld := ⟨CHIP_C_CTL k, 31, 31⟩
def CHIP_C_CTL_CLR (k : Nat) : Fld := ⟨CHIP_C_CTL k, 30, 30⟩
def CHIP_C_CTL_SAT (k : Nat) : Fld := ⟨CHIP_C_CTL k, 29, 29⟩
def CHIP_C_CTL_MODE (k : Nat) : Fld := ⟨CHIP_C_CTL k, 28, 27⟩
def CHIP_C_CTL_UNIT (k : Nat) : Fld := ⟨CHIP_C_CTL k, 26, 24⟩
def CHIP_C_CTL_EVENT (k : Nat) : Fld := ⟨CHIP_C_CTL k, 23, 16⟩
def CHIP_C_CTL_THRESH (k : Nat) : Fld := ⟨CHIP_C_CTL k, 11, 0⟩
def CHIP_C_FILT (k : Nat) : Nat := 0x300104 + 0x10 * k
def CHIP_C_FILT_DOMEN (k : Nat) : Fld := ⟨CHIP_C_FILT k, 31, 31⟩
def CHIP_C_FILT_CLSEN (k : Nat) : Fld := ⟨CHIP_C_FILT k, 30, 30⟩
def CHIP_C_FILT_VIEW (k : Nat) : Fld := ⟨CHIP_C_FILT k, 29, 29⟩
def CHIP_C_FILT_DOMAIN (k : Nat) : Fld := ⟨CHIP_C_FILT k, 27, 14⟩
def CHIP_C_FILT_QCLASS (k : Nat) : Fld := ⟨CHIP_C_FILT k, 5, 0⟩
def CHIP_C_LO (k : Nat) : Nat := 0x300108 + 0x10 * k
def CHIP_C_LO_CNTLO (k : Nat) : Fld := ⟨CHIP_C_LO k, 31, 0⟩
def CHIP_C_HI (k : Nat) : Nat := 0x30010c + 0x10 * k
def CHIP_C_HI_CNTHI (k : Nat) : Fld := ⟨CHIP_C_HI k, 15, 0⟩
def CHIP_C_SLO (k : Nat) : Nat := 0x300800 + 0x8 * k
def CHIP_C_SLO_CNTLO (k : Nat) : Fld := ⟨CHIP_C_SLO k, 31, 0⟩
def CHIP_C_SHI (k : Nat) : Nat := 0x300804 + 0x8 * k
def CHIP_C_SHI_CNTHI (k : Nat) : Fld := ⟨CHIP_C_SHI k, 15, 0⟩
def CHIP_HALCTL : Nat := 0x301000
def CHIP_HALCTL_GO : Fld := ⟨CHIP_HALCTL, 31, 31⟩
def CHIP_HALCTL_SRC : Fld := ⟨CHIP_HALCTL, 30, 29⟩
def CHIP_HALCTL_FREEZE : Fld := ⟨CHIP_HALCTL, 28, 28⟩
def CHIP_HALCTL_RELEASE : Fld := ⟨CHIP_HALCTL, 27, 27⟩
def CHIP_HALTGT (k : Nat) : Nat := 0x301008 + 0x4 * k
def CHIP_HALTGT_T (k : Nat) : Fld := ⟨CHIP_HALTGT k, 31, 0⟩
def CHIP_HALSTAT : Nat := 0x301010
def CHIP_HALSTAT_ARMED : Fld := ⟨CHIP_HALSTAT, 31, 31⟩
def CHIP_HALSTAT_LATE : Fld := ⟨CHIP_HALSTAT, 30, 30⟩
def CHIP_HALLAST (k : Nat) : Nat := 0x301018 + 0x4 * k
def CHIP_HALLAST_LAST (k : Nat) : Fld := ⟨CHIP_HALLAST k, 31, 0⟩
def CR_CTL (k : Nat) : Nat := 0x400000 + 0x20 * k
def CR_CTL_EN (k : Nat) : Fld := ⟨CR_CTL k, 31, 31⟩
def CR_CTL_IEN (k : Nat) : Fld := ⟨CR_CTL k, 30, 30⟩
def CR_CTL_PORT (k : Nat) : Fld := ⟨CR_CTL k, 29, 25⟩
def CR_CTL_VEC (k : Nat) : Fld := ⟨CR_CTL k, 24, 14⟩
def CR_SQ (k : Nat) : Nat := 0x400004 + 0x20 * k
def CR_SQ_SQTAIL (k : Nat) : Fld := ⟨CR_SQ k, 23, 16⟩
def CR_SQ_SQHEAD (k : Nat) : Fld := ⟨CR_SQ k, 15, 8⟩
def CR_CQ (k : Nat) : Nat := 0x400008 + 0x20 * k
def CR_CQ_CQHEAD (k : Nat) : Fld := ⟨CR_CQ k, 23, 16⟩
def CR_CQ_CQTAIL (k : Nat) : Fld := ⟨CR_CQ k, 15, 8⟩
def CR_STAT (k : Nat) : Nat := 0x40000c + 0x20 * k
def CR_STAT_BUSY (k : Nat) : Fld := ⟨CR_STAT k, 31, 31⟩
def CR_STAT_CQFULL (k : Nat) : Fld := ⟨CR_STAT k, 30, 30⟩
def CHIP_EVRING : Nat := 0x400100
def CHIP_EVRING_EVHEAD : Fld := ⟨CHIP_EVRING, 25, 16⟩
def CHIP_EVRING_EVTAIL : Fld := ⟨CHIP_EVRING, 9, 0⟩
def SQ_SLOT (k : Nat) (j : Nat) : Nat := 0x410000 + 0x10000 * k + 0x4 * j
def SQ_SLOT_WORD (k : Nat) (j : Nat) : Fld := ⟨SQ_SLOT k j, 31, 0⟩
def CQ_SLOT (k : Nat) (j : Nat) : Nat := 0x418000 + 0x10000 * k + 0x4 * j
def CQ_SLOT_WORD (k : Nat) (j : Nat) : Fld := ⟨CQ_SLOT k j, 31, 0⟩
def EV_SLOT (k : Nat) : Nat := 0x490000 + 0x4 * k
def EV_SLOT_WORD (k : Nat) : Fld := ⟨EV_SLOT k, 31, 0⟩
def STAGE (k : Nat) : Nat := 0x500000 + 0x4 * k
def STAGE_WORD (k : Nat) : Fld := ⟨STAGE k, 31, 0⟩
def PG_SDCTL (n : Nat) : Nat := 0x1000000 + n / 4 * 0x400000 + n % 4 * 0x40000
def PG_SDCTL_MODE (n : Nat) : Fld := ⟨PG_SDCTL n, 31, 30⟩
def PG_SDCTL_RATE (n : Nat) : Fld := ⟨PG_SDCTL n, 29, 27⟩
def PG_SDCTL_SRIS (n : Nat) : Fld := ⟨PG_SDCTL n, 26, 26⟩
def PG_SDCTL_SPAREPWR (n : Nat) : Fld := ⟨PG_SDCTL n, 25, 25⟩
def PG_SDCTL_SPAREEN (n : Nat) : Fld := ⟨PG_SDCTL n, 24, 24⟩
def PG_SDCTL_WAKEEN (n : Nat) : Fld := ⟨PG_SDCTL n, 23, 23⟩
def PG_SDCTL_WAKETX (n : Nat) : Fld := ⟨PG_SDCTL n, 22, 22⟩
def PG_SDCTL_WAKEMIN (n : Nat) : Fld := ⟨PG_SDCTL n, 21, 19⟩
def PG_SDCTL_ERRTH (n : Nat) : Fld := ⟨PG_SDCTL n, 15, 8⟩
def PG_SDSTAT (n : Nat) : Nat := 0x1000004 + n / 4 * 0x400000 + n % 4 * 0x40000
def PG_SDSTAT_REV (n : Nat) : Fld := ⟨PG_SDSTAT n, 31, 31⟩
def PG_SDSTAT_SPAREUSE (n : Nat) : Fld := ⟨PG_SDSTAT n, 30, 30⟩
def PG_SDSTAT_SPAREFLT (n : Nat) : Fld := ⟨PG_SDSTAT n, 29, 29⟩
def PG_SDSTAT_WAKEDET (n : Nat) : Fld := ⟨PG_SDSTAT n, 28, 28⟩
def PG_SDSTAT_LNEVT (n : Nat) : Fld := ⟨PG_SDSTAT n, 27, 27⟩
def PG_SDSTAT_LNFAIL (n : Nat) : Fld := ⟨PG_SDSTAT n, 26, 18⟩
def PG_SDSTAT_POL (n : Nat) : Fld := ⟨PG_SDSTAT n, 17, 9⟩
def PG_SDSTAT_RATECUR (n : Nat) : Fld := ⟨PG_SDSTAT n, 8, 6⟩
def PG_SDSTAT_EXCL (n : Nat) : Fld := ⟨PG_SDSTAT n, 3, 0⟩
def PG_LN_TXEQ (n : Nat) (l : Nat) : Nat := 0x1000100 + n / 4 * 0x400000 + n % 4 * 0x40000 + 0x40 * l
def PG_LN_TXEQ_OVR (n : Nat) (l : Nat) : Fld := ⟨PG_LN_TXEQ n l, 31, 31⟩
def PG_LN_TXEQ_MAIN (n : Nat) (l : Nat) : Fld := ⟨PG_LN_TXEQ n l, 23, 18⟩
def PG_LN_TXEQ_PRE2 (n : Nat) (l : Nat) : Fld := ⟨PG_LN_TXEQ n l, 17, 15⟩
def PG_LN_TXEQ_PRE1 (n : Nat) (l : Nat) : Fld := ⟨PG_LN_TXEQ n l, 14, 11⟩
def PG_LN_TXEQ_POST1 (n : Nat) (l : Nat) : Fld := ⟨PG_LN_TXEQ n l, 10, 6⟩
def PG_LN_TXEQ_POST2 (n : Nat) (l : Nat) : Fld := ⟨PG_LN_TXEQ n l, 5, 3⟩
def PG_LN_RXEQ (n : Nat) (l : Nat) : Nat := 0x1000104 + n / 4 * 0x400000 + n % 4 * 0x40000 + 0x40 * l
def PG_LN_RXEQ_ADAPT (n : Nat) (l : Nat) : Fld := ⟨PG_LN_RXEQ n l, 31, 30⟩
def PG_LN_RXEQ_CTLE (n : Nat) (l : Nat) : Fld := ⟨PG_LN_RXEQ n l, 21, 16⟩
def PG_LN_RXEQ_VGA (n : Nat) (l : Nat) : Fld := ⟨PG_LN_RXEQ n l, 12, 8⟩
def PG_LN_DFE (n : Nat) (l : Nat) (k : Nat) : Nat := 0x1000108 + n / 4 * 0x400000 + n % 4 * 0x40000 + 0x40 * l + 0x4 * k
def PG_LN_DFE_TAP4 (n : Nat) (l : Nat) (k : Nat) : Fld := ⟨PG_LN_DFE n l k, 31, 24⟩
def PG_LN_DFE_TAP3 (n : Nat) (l : Nat) (k : Nat) : Fld := ⟨PG_LN_DFE n l k, 23, 16⟩
def PG_LN_DFE_TAP2 (n : Nat) (l : Nat) (k : Nat) : Fld := ⟨PG_LN_DFE n l k, 15, 8⟩
def PG_LN_DFE_TAP1 (n : Nat) (l : Nat) (k : Nat) : Fld := ⟨PG_LN_DFE n l k, 7, 0⟩
def PG_LN_PRBSCTL (n : Nat) (l : Nat) : Nat := 0x1000118 + n / 4 * 0x400000 + n % 4 * 0x40000 + 0x40 * l
def PG_LN_PRBSCTL_CLR (n : Nat) (l : Nat) : Fld := ⟨PG_LN_PRBSCTL n l, 31, 31⟩
def PG_LN_PRBSCTL_GEN (n : Nat) (l : Nat) : Fld := ⟨PG_LN_PRBSCTL n l, 30, 28⟩
def PG_LN_PRBSCTL_CHK (n : Nat) (l : Nat) : Fld := ⟨PG_LN_PRBSCTL n l, 27, 25⟩
def PG_LN_PRBSCTL_GINV (n : Nat) (l : Nat) : Fld := ⟨PG_LN_PRBSCTL n l, 24, 24⟩
def PG_LN_PRBSCTL_CINV (n : Nat) (l : Nat) : Fld := ⟨PG_LN_PRBSCTL n l, 23, 23⟩
def PG_LN_PRBSCTL_LOCK (n : Nat) (l : Nat) : Fld := ⟨PG_LN_PRBSCTL n l, 22, 22⟩
def PG_LN_PRBSCTL_LOSSCNT (n : Nat) (l : Nat) : Fld := ⟨PG_LN_PRBSCTL n l, 21, 14⟩
def PG_LN_PRBSERR (n : Nat) (l : Nat) : Nat := 0x100011c + n / 4 * 0x400000 + n % 4 * 0x40000 + 0x40 * l
def PG_LN_PRBSERR_ERRLO (n : Nat) (l : Nat) : Fld := ⟨PG_LN_PRBSERR n l, 31, 0⟩
def PG_LN_PRBSCNT (n : Nat) (l : Nat) : Nat := 0x1000120 + n / 4 * 0x400000 + n % 4 * 0x40000 + 0x40 * l
def PG_LN_PRBSCNT_CNTLO (n : Nat) (l : Nat) : Fld := ⟨PG_LN_PRBSCNT n l, 31, 0⟩
def PG_LN_PRBSHI (n : Nat) (l : Nat) : Nat := 0x1000124 + n / 4 * 0x400000 + n % 4 * 0x40000 + 0x40 * l
def PG_LN_PRBSHI_CNTHI (n : Nat) (l : Nat) : Fld := ⟨PG_LN_PRBSHI n l, 31, 16⟩
def PG_LN_PRBSHI_ERRHI (n : Nat) (l : Nat) : Fld := ⟨PG_LN_PRBSHI n l, 15, 0⟩
def PG_LN_MARGCTL (n : Nat) (l : Nat) : Nat := 0x1000128 + n / 4 * 0x400000 + n % 4 * 0x40000 + 0x40 * l
def PG_LN_MARGCTL_GO (n : Nat) (l : Nat) : Fld := ⟨PG_LN_MARGCTL n l, 31, 31⟩
def PG_LN_MARGCTL_EYE (n : Nat) (l : Nat) : Fld := ⟨PG_LN_MARGCTL n l, 30, 29⟩
def PG_LN_MARGCTL_TOFF (n : Nat) (l : Nat) : Fld := ⟨PG_LN_MARGCTL n l, 28, 23⟩
def PG_LN_MARGCTL_VOFF (n : Nat) (l : Nat) : Fld := ⟨PG_LN_MARGCTL n l, 22, 15⟩
def PG_LN_MARGCTL_DWELL (n : Nat) (l : Nat) : Fld := ⟨PG_LN_MARGCTL n l, 14, 10⟩
def PG_LN_MARGSTAT (n : Nat) (l : Nat) : Nat := 0x100012c + n / 4 * 0x400000 + n % 4 * 0x40000 + 0x40 * l
def PG_LN_MARGSTAT_BUSY (n : Nat) (l : Nat) : Fld := ⟨PG_LN_MARGSTAT n l, 31, 31⟩
def PG_LN_MARGSTAT_RESULT (n : Nat) (l : Nat) : Fld := ⟨PG_LN_MARGSTAT n l, 30, 29⟩
def PG_LN_MARGSTAT_ERRS (n : Nat) (l : Nat) : Fld := ⟨PG_LN_MARGSTAT n l, 23, 0⟩
def PG_LN_STAT (n : Nat) (l : Nat) : Nat := 0x1000130 + n / 4 * 0x400000 + n % 4 * 0x40000 + 0x40 * l
def PG_LN_STAT_STATE (n : Nat) (l : Nat) : Fld := ⟨PG_LN_STAT n l, 31, 29⟩
def PG_LN_STAT_CDRLOCK (n : Nat) (l : Nat) : Fld := ⟨PG_LN_STAT n l, 28, 28⟩
def PG_LN_STAT_FLTEVT (n : Nat) (l : Nat) : Fld := ⟨PG_LN_STAT n l, 27, 27⟩
def PG_LN_STAT_FCLASS (n : Nat) (l : Nat) : Fld := ⟨PG_LN_STAT n l, 26, 25⟩
def PG_LN_STAT_SYMERR (n : Nat) (l : Nat) : Fld := ⟨PG_LN_STAT n l, 15, 0⟩
def PG_LN_DETECT (n : Nat) (l : Nat) : Nat := 0x1000134 + n / 4 * 0x400000 + n % 4 * 0x40000 + 0x40 * l
def PG_LN_DETECT_GO (n : Nat) (l : Nat) : Fld := ⟨PG_LN_DETECT n l, 31, 31⟩
def PG_LN_DETECT_BUSY (n : Nat) (l : Nat) : Fld := ⟨PG_LN_DETECT n l, 30, 30⟩
def PG_LN_DETECT_TXRES (n : Nat) (l : Nat) : Fld := ⟨PG_LN_DETECT n l, 29, 27⟩
def PG_LN_DETECT_RXRES (n : Nat) (l : Nat) : Fld := ⟨PG_LN_DETECT n l, 26, 24⟩
def PG_LKCTL (n : Nat) : Nat := 0x1000400 + n / 4 * 0x400000 + n % 4 * 0x40000
def PG_LKCTL_RETRAIN (n : Nat) : Fld := ⟨PG_LKCTL n, 31, 31⟩
def PG_LKCTL_RESET (n : Nat) : Fld := ⟨PG_LKCTL n, 30, 30⟩
def PG_LKCTL_VC8 (n : Nat) : Fld := ⟨PG_LKCTL n, 29, 29⟩
def PG_LKCTL_MINW (n : Nat) : Fld := ⟨PG_LKCTL n, 28, 27⟩
def PG_LKCTL_RPLTO (n : Nat) : Fld := ⟨PG_LKCTL n, 26, 21⟩
def PG_LKCTL_MAXRPL (n : Nat) : Fld := ⟨PG_LKCTL n, 20, 17⟩
def PG_LKCTL_DOWNLIM (n : Nat) : Fld := ⟨PG_LKCTL n, 16, 3⟩
def PG_LKSTAT (n : Nat) : Nat := 0x1000404 + n / 4 * 0x400000 + n % 4 * 0x40000
def PG_LKSTAT_LTSTATE (n : Nat) : Fld := ⟨PG_LKSTAT n, 31, 28⟩
def PG_LKSTAT_WIDTH (n : Nat) : Fld := ⟨PG_LKSTAT n, 27, 26⟩
def PG_LKSTAT_LEADER (n : Nat) : Fld := ⟨PG_LKSTAT n, 25, 25⟩
def PG_LKSTAT_VCS8 (n : Nat) : Fld := ⟨PG_LKSTAT n, 24, 24⟩
def PG_LKSTAT_PEERDEV (n : Nat) : Fld := ⟨PG_LKSTAT n, 23, 20⟩
def PG_LKSTAT_PEERGRP (n : Nat) : Fld := ⟨PG_LKSTAT n, 19, 16⟩
def PG_LKSTAT_PEERRST (n : Nat) : Fld := ⟨PG_LKSTAT n, 15, 15⟩
def PG_LKSTAT_DOWNEVT (n : Nat) : Fld := ⟨PG_LKSTAT n, 14, 14⟩
def PG_LKSTAT_OVRUN (n : Nat) : Fld := ⟨PG_LKSTAT n, 13, 13⟩
def PG_LKSTAT_MISRT (n : Nat) : Fld := ⟨PG_LKSTAT n, 12, 12⟩
def PG_LKSTAT_ACKRNG (n : Nat) : Fld := ⟨PG_LKSTAT n, 11, 11⟩
def PG_LKSEQ (n : Nat) : Nat := 0x1000408 + n / 4 * 0x400000 + n % 4 * 0x40000
def PG_LKSEQ_NEXT (n : Nat) : Fld := ⟨PG_LKSEQ n, 31, 20⟩
def PG_LKSEQ_EXP (n : Nat) : Fld := ⟨PG_LKSEQ n, 19, 8⟩
def PG_LKCNT (n : Nat) : Nat := 0x100040c + n / 4 * 0x400000 + n % 4 * 0x40000
def PG_LKCNT_OUTST (n : Nat) : Fld := ⟨PG_LKCNT n, 31, 21⟩
def PG_LKCNT_RETRAINS (n : Nat) : Fld := ⟨PG_LKCNT n, 20, 13⟩
def PG_LKCNT_NAKS (n : Nat) : Fld := ⟨PG_LKCNT n, 12, 0⟩
def PG_LKERR (n : Nat) : Nat := 0x1000410 + n / 4 * 0x400000 + n % 4 * 0x40000
def PG_LKERR_CRCERR (n : Nat) : Fld := ⟨PG_LKERR n, 31, 16⟩
def PG_LKERR_FECUNC (n : Nat) : Fld := ⟨PG_LKERR n, 15, 0⟩
def PG_CXLCFG (n : Nat) : Nat := 0x1000500 + n / 4 * 0x400000 + n % 4 * 0x40000
def PG_CXLCFG_WIDTH (n : Nat) : Fld := ⟨PG_CXLCFG n, 31, 30⟩
def PG_CXLCFG_PNUM0 (n : Nat) : Fld := ⟨PG_CXLCFG n, 29, 25⟩
def PG_CXLCFG_PNUM1 (n : Nat) : Fld := ⟨PG_CXLCFG n, 24, 20⟩
def PG_CXLCFG_CTLBAR (n : Nat) : Fld := ⟨PG_CXLCFG n, 19, 19⟩
def PG_CXLCFG_MBXEN (n : Nat) : Fld := ⟨PG_CXLCFG n, 18, 18⟩
def PG_CXLCFG_HRSCOPE (n : Nat) : Fld := ⟨PG_CXLCFG n, 17, 17⟩
def PG_CXLCFG_PRST (n : Nat) : Fld := ⟨PG_CXLCFG n, 16, 16⟩
def PG_CXLCFG_EVTVERB (n : Nat) : Fld := ⟨PG_CXLCFG n, 15, 15⟩
def PG_CXLCFG_BISTALL (n : Nat) : Fld := ⟨PG_CXLCFG n, 14, 7⟩
def PG_CXLSTAT (n : Nat) : Nat := 0x1000504 + n / 4 * 0x400000 + n % 4 * 0x40000
def PG_CXLSTAT_FLIT0 (n : Nat) : Fld := ⟨PG_CXLSTAT n, 31, 30⟩
def PG_CXLSTAT_FLIT1 (n : Nat) : Fld := ⟨PG_CXLSTAT n, 29, 28⟩
def PG_CXLSTAT_DB0 (n : Nat) : Fld := ⟨PG_CXLSTAT n, 27, 27⟩
def PG_CXLSTAT_DB1 (n : Nat) : Fld := ⟨PG_CXLSTAT n, 26, 26⟩
def PG_CXLSTAT_CFGERR (n : Nat) : Fld := ⟨PG_CXLSTAT n, 25, 25⟩
def PG_CXLSTAT_BISTL (n : Nat) : Fld := ⟨PG_CXLSTAT n, 24, 24⟩
def PG_CXLSTAT_BIOUT0 (n : Nat) : Fld := ⟨PG_CXLSTAT n, 12, 7⟩
def PG_CXLSTAT_BIOUT1 (n : Nat) : Fld := ⟨PG_CXLSTAT n, 6, 1⟩
def CH_CFG (n : Nat) : Nat := 0x1100000 + n / 4 * 0x400000 + n % 4 * 0x20000
def CH_CFG_STATE (n : Nat) : Fld := ⟨CH_CFG n, 31, 28⟩
def CH_CFG_TYPE (n : Nat) : Fld := ⟨CH_CFG n, 27, 26⟩
def CH_CFG_DPC (n : Nat) : Fld := ⟨CH_CFG n, 25, 25⟩
def CH_CFG_WIDTH (n : Nat) : Fld := ⟨CH_CFG n, 24, 24⟩
def CH_CFG_DENS (n : Nat) : Fld := ⟨CH_CFG n, 23, 21⟩
def CH_CFG_RANKS (n : Nat) : Fld := ⟨CH_CFG n, 20, 16⟩
def CH_CFG_RATE (n : Nat) : Fld := ⟨CH_CFG n, 15, 8⟩
def CH_CFG_REJECT (n : Nat) : Fld := ⟨CH_CFG n, 7, 0⟩
def CH_CTL (n : Nat) : Nat := 0x1100004 + n / 4 * 0x400000 + n % 4 * 0x20000
def CH_CTL_MAXRATE (n : Nat) : Fld := ⟨CH_CTL n, 31, 24⟩
def CH_CTL_PAGEPOL (n : Nat) : Fld := ⟨CH_CTL n, 23, 23⟩
def CH_CTL_PGTIMEOUT (n : Nat) : Fld := ⟨CH_CTL n, 22, 16⟩
def CH_SCHED (n : Nat) : Nat := 0x1100008 + n / 4 * 0x400000 + n % 4 * 0x20000
def CH_SCHED_HIWM (n : Nat) : Fld := ⟨CH_SCHED n, 31, 26⟩
def CH_SCHED_LOWM (n : Nat) : Fld := ⟨CH_SCHED n, 25, 20⟩
def CH_SCHED_AGECAP (n : Nat) : Fld := ⟨CH_SCHED n, 19, 12⟩
def CH_SCHED_BGSHARE (n : Nat) : Fld := ⟨CH_SCHED n, 11, 8⟩
def CH_REFCTL (n : Nat) : Nat := 0x110000c + n / 4 * 0x400000 + n % 4 * 0x20000
def CH_REFCTL_SBMODE (n : Nat) : Fld := ⟨CH_REFCTL n, 31, 31⟩
def CH_REFCTL_FORCE2X (n : Nat) : Fld := ⟨CH_REFCTL n, 30, 30⟩
def CH_REFCTL_HOTLIM (n : Nat) : Fld := ⟨CH_REFCTL n, 29, 22⟩
def CH_REFCTL_MR4INT (n : Nat) : Fld := ⟨CH_REFCTL n, 21, 16⟩
def CH_REFSTAT (n : Nat) : Nat := 0x1100010 + n / 4 * 0x400000 + n % 4 * 0x20000
def CH_REFSTAT_RATE2X (n : Nat) : Fld := ⟨CH_REFSTAT n, 31, 31⟩
def CH_REFSTAT_SBEFF (n : Nat) : Fld := ⟨CH_REFSTAT n, 30, 30⟩
def CH_REFSTAT_HOT (n : Nat) : Fld := ⟨CH_REFSTAT n, 29, 29⟩
def CH_REFSTAT_TSFAIL (n : Nat) : Fld := ⟨CH_REFSTAT n, 28, 28⟩
def CH_REFSTAT_THROTTLE (n : Nat) : Fld := ⟨CH_REFSTAT n, 27, 27⟩
def CH_REFSTAT_TEMP (n : Nat) : Fld := ⟨CH_REFSTAT n, 15, 8⟩
def CH_RHTHRESH (n : Nat) : Nat := 0x1100014 + n / 4 * 0x400000 + n % 4 * 0x20000
def CH_RHTHRESH_RFMEN (n : Nat) : Fld := ⟨CH_RHTHRESH n, 31, 31⟩
def CH_RHTHRESH_DRFM (n : Nat) : Fld := ⟨CH_RHTHRESH n, 30, 30⟩
def CH_RHTHRESH_THRESH (n : Nat) : Fld := ⟨CH_RHTHRESH n, 14, 0⟩
def CH_RHSTAT (n : Nat) : Nat := 0x1100018 + n / 4 * 0x400000 + n % 4 * 0x20000
def CH_RHSTAT_PRESSURE (n : Nat) : Fld := ⟨CH_RHSTAT n, 31, 31⟩
def CH_RHSTAT_MITCNT (n : Nat) : Fld := ⟨CH_RHSTAT n, 30, 15⟩
def CH_RHSTAT_MAXF (n : Nat) : Fld := ⟨CH_RHSTAT n, 14, 0⟩
def CH_ALERTSTAT (n : Nat) : Nat := 0x110001c + n / 4 * 0x400000 + n % 4 * 0x20000
def CH_ALERTSTAT_CAPAR (n : Nat) : Fld := ⟨CH_ALERTSTAT n, 31, 31⟩
def CH_ALERTSTAT_WRCRC (n : Nat) : Fld := ⟨CH_ALERTSTAT n, 30, 30⟩
def CH_ALERTSTAT_ESCAL (n : Nat) : Fld := ⟨CH_ALERTSTAT n, 29, 29⟩
def CH_ALERTSTAT_LASTING (n : Nat) : Fld := ⟨CH_ALERTSTAT n, 23, 16⟩
def CH_ALERTSTAT_TRANSIENT (n : Nat) : Fld := ⟨CH_ALERTSTAT n, 15, 0⟩
def CH_MAINT (n : Nat) : Nat := 0x1100020 + n / 4 * 0x400000 + n % 4 * 0x20000
def CH_MAINT_GO (n : Nat) : Fld := ⟨CH_MAINT n, 31, 31⟩
def CH_MAINT_OP (n : Nat) : Fld := ⟨CH_MAINT n, 30, 29⟩
def CH_MAINT_BUSY (n : Nat) : Fld := ⟨CH_MAINT n, 28, 28⟩
def CH_MAINT_STATUS (n : Nat) : Fld := ⟨CH_MAINT n, 23, 16⟩
def CH_MAINTADDR (n : Nat) : Nat := 0x1100024 + n / 4 * 0x400000 + n % 4 * 0x20000
def CH_MAINTADDR_SUB (n : Nat) : Fld := ⟨CH_MAINTADDR n, 31, 31⟩
def CH_MAINTADDR_RANK (n : Nat) : Fld := ⟨CH_MAINTADDR n, 30, 27⟩
def CH_MAINTADDR_BG (n : Nat) : Fld := ⟨CH_MAINTADDR n, 26, 24⟩
def CH_MAINTADDR_BANK (n : Nat) : Fld := ⟨CH_MAINTADDR n, 23, 22⟩
def CH_MAINTADDR_ROW (n : Nat) : Fld := ⟨CH_MAINTADDR n, 21, 0⟩
def CH_ECCCTL (n : Nat) : Nat := 0x1100040 + n / 4 * 0x400000 + n % 4 * 0x20000
def CH_ECCCTL_PATROLEN (n : Nat) : Fld := ⟨CH_ECCCTL n, 31, 31⟩
def CH_ECCCTL_PERIOD (n : Nat) : Fld := ⟨CH_ECCCTL n, 30, 21⟩
def CH_ECCCTL_TLIM (n : Nat) : Fld := ⟨CH_ECCCTL n, 20, 17⟩
def CH_ECCSTAT (n : Nat) : Nat := 0x1100044 + n / 4 * 0x400000 + n % 4 * 0x20000
def CH_ECCSTAT_UE (n : Nat) : Fld := ⟨CH_ECCSTAT n, 31, 31⟩
def CH_ECCSTAT_CE (n : Nat) : Fld := ⟨CH_ECCSTAT n, 30, 30⟩
def CH_ECCSTAT_ZMARGIN (n : Nat) : Fld := ⟨CH_ECCSTAT n, 29, 29⟩
def CH_ECCSTAT_PLFULL (n : Nat) : Fld := ⟨CH_ECCSTAT n, 28, 28⟩
def CH_ECCSTAT_UECNT (n : Nat) : Fld := ⟨CH_ECCSTAT n, 23, 16⟩
def CH_ECCSTAT_CECNT (n : Nat) : Fld := ⟨CH_ECCSTAT n, 15, 0⟩
def CH_PATROLSTAT (n : Nat) : Nat := 0x1100048 + n / 4 * 0x400000 + n % 4 * 0x20000
def CH_PATROLSTAT_RUN (n : Nat) : Fld := ⟨CH_PATROLSTAT n, 31, 31⟩
def CH_PATROLSTAT_PAUSED (n : Nat) : Fld := ⟨CH_PATROLSTAT n, 30, 30⟩
def CH_PATROLSTAT_PASSES (n : Nat) : Fld := ⟨CH_PATROLSTAT n, 29, 16⟩
def CH_PATROLSTAT_PROG (n : Nat) : Fld := ⟨CH_PATROLSTAT n, 9, 0⟩
def CH_PASSGTC (n : Nat) : Nat := 0x110004c + n / 4 * 0x400000 + n % 4 * 0x20000
def CH_PASSGTC_GTCHI (n : Nat) : Fld := ⟨CH_PASSGTC n, 31, 0⟩
def CH_INJCTL (n : Nat) : Nat := 0x1100050 + n / 4 * 0x400000 + n % 4 * 0x20000
def CH_INJCTL_GO (n : Nat) : Fld := ⟨CH_INJCTL n, 31, 31⟩
def CH_INJCTL_OP (n : Nat) : Fld := ⟨CH_INJCTL n, 30, 29⟩
def CH_INJCTL_BUSY (n : Nat) : Fld := ⟨CH_INJCTL n, 28, 28⟩
def CH_INJCTL_INJEN (n : Nat) : Fld := ⟨CH_INJCTL n, 27, 27⟩
def CH_INJCTL_ENT (n : Nat) : Fld := ⟨CH_INJCTL n, 26, 25⟩
def CH_INJCTL_RESULT (n : Nat) : Fld := ⟨CH_INJCTL n, 24, 22⟩
def CH_INJCTL_ERRS (n : Nat) : Fld := ⟨CH_INJCTL n, 21, 16⟩
def CH_INJADDRLO (n : Nat) : Nat := 0x1100054 + n / 4 * 0x400000 + n % 4 * 0x20000
def CH_INJADDRLO_LINELO (n : Nat) : Fld := ⟨CH_INJADDRLO n, 31, 0⟩
def CH_INJADDRHI (n : Nat) : Nat := 0x1100058 + n / 4 * 0x400000 + n % 4 * 0x20000
def CH_INJADDRHI_LINEHI (n : Nat) : Fld := ⟨CH_INJADDRHI n, 1, 0⟩
def CH_INJDATA (n : Nat) (k : Nat) : Nat := 0x1100080 + n / 4 * 0x400000 + n % 4 * 0x20000 + 0x4 * k
def CH_INJDATA_BYTES (n : Nat) (k : Nat) : Fld := ⟨CH_INJDATA n k, 31, 0⟩
def CH_INJCHK (n : Nat) (k : Nat) : Nat := 0x11000c0 + n / 4 * 0x400000 + n % 4 * 0x20000 + 0x4 * k
def CH_INJCHK_BYTES (n : Nat) (k : Nat) : Fld := ⟨CH_INJCHK n k, 31, 0⟩
def CH_MARK (n : Nat) (k : Nat) : Nat := 0x1100100 + n / 4 * 0x400000 + n % 4 * 0x20000 + 0x4 * k
def CH_MARK_SRC (n : Nat) (k : Nat) : Fld := ⟨CH_MARK n k, 31, 31⟩
def CH_MARK_MASK (n : Nat) (k : Nat) : Fld := ⟨CH_MARK n k, 9, 0⟩
def KS_OPCTL (n : Nat) : Nat := 0x1180000 + n / 4 * 0x400000 + n % 4 * 0x10000
def KS_OPCTL_GO (n : Nat) : Fld := ⟨KS_OPCTL n, 31, 31⟩
def KS_OPCTL_OP (n : Nat) : Fld := ⟨KS_OPCTL n, 30, 29⟩
def KS_OPCTL_SCOPE (n : Nat) : Fld := ⟨KS_OPCTL n, 28, 28⟩
def KS_OPCTL_DOMAIN (n : Nat) : Fld := ⟨KS_OPCTL n, 13, 0⟩
def KS_OPSTAT (n : Nat) : Nat := 0x1180004 + n / 4 * 0x400000 + n % 4 * 0x10000
def KS_OPSTAT_BUSY (n : Nat) : Fld := ⟨KS_OPSTAT n, 31, 31⟩
def KS_OPSTAT_POISONED (n : Nat) : Fld := ⟨KS_OPSTAT n, 16, 16⟩
def KS_OPSTAT_SETS (n : Nat) : Fld := ⟨KS_OPSTAT n, 13, 0⟩
def KS_SPILLWAYS (n : Nat) : Nat := 0x1180008 + n / 4 * 0x400000 + n % 4 * 0x10000
def KS_SPILLWAYS_WAYS (n : Nat) : Fld := ⟨KS_SPILLWAYS n, 15, 0⟩
def KS_WAYDIS (n : Nat) : Nat := 0x118000c + n / 4 * 0x400000 + n % 4 * 0x10000
def KS_WAYDIS_WAYS (n : Nat) : Fld := ⟨KS_WAYDIS n, 15, 0⟩
def ENG_CZCTL (n : Nat) : Nat := 0x11c0000 + n / 4 * 0x400000 + n % 4 * 0x10000
def ENG_CZCTL_CDIS (n : Nat) : Fld := ⟨ENG_CZCTL n, 31, 31⟩
def ENG_CZCTL_DDIS (n : Nat) : Fld := ⟨ENG_CZCTL n, 30, 30⟩
def ENG_CZSTAT (n : Nat) : Nat := 0x11c0004 + n / 4 * 0x400000 + n % 4 * 0x10000
def ENG_CZSTAT_CFAULT (n : Nat) : Fld := ⟨ENG_CZSTAT n, 31, 31⟩
def ENG_CZSTAT_DFAULT (n : Nat) : Fld := ⟨ENG_CZSTAT n, 30, 30⟩
def ENG_CZSTAT_FMTERR (n : Nat) : Fld := ⟨ENG_CZSTAT n, 29, 29⟩
def ENG_CZSTAT_CQ (n : Nat) : Fld := ⟨ENG_CZSTAT n, 10, 8⟩
def ENG_CZSTAT_DQ (n : Nat) : Fld := ⟨ENG_CZSTAT n, 7, 5⟩
def ENG_XCTL (n : Nat) : Nat := 0x11c0010 + n / 4 * 0x400000 + n % 4 * 0x10000
def ENG_XCTL_XEDIS (n : Nat) : Fld := ⟨ENG_XCTL n, 31, 31⟩
def ENG_XCTL_XDDIS (n : Nat) : Fld := ⟨ENG_XCTL n, 30, 30⟩
def ENG_XSTAT (n : Nat) : Nat := 0x11c0014 + n / 4 * 0x400000 + n % 4 * 0x10000
def ENG_XSTAT_TAGFAIL (n : Nat) : Fld := ⟨ENG_XSTAT n, 31, 31⟩
def ENG_XSTAT_XFAULT (n : Nat) : Fld := ⟨ENG_XSTAT n, 30, 30⟩
def ENG_XSTAT_TAGCNT (n : Nat) : Fld := ⟨ENG_XSTAT n, 15, 0⟩
def SH_CTL (n : Nat) : Nat := 0x1240000 + n / 8 * 0x400000 + n % 8 * 0x800
def SH_CTL_EN (n : Nat) : Fld := ⟨SH_CTL n, 31, 31⟩
def SH_CTL_SAMPLE (n : Nat) : Fld := ⟨SH_CTL n, 25, 16⟩
def SH_CTL_OVH (n : Nat) : Fld := ⟨SH_CTL n, 7, 0⟩
def SH_BKT (n : Nat) (k : Nat) : Nat := 0x1240200 + n / 8 * 0x400000 + n % 8 * 0x800 + 0x4 * k
def SH_BKT_RATE (n : Nat) (k : Nat) : Fld := ⟨SH_BKT n k, 31, 16⟩
def SH_BKT_BURST (n : Nat) (k : Nat) : Fld := ⟨SH_BKT n k, 15, 0⟩
def SH_SAMP (n : Nat) (k : Nat) : Nat := 0x1240400 + n / 8 * 0x400000 + n % 8 * 0x800 + 0x4 * k
def SH_SAMP_MAXDLY (n : Nat) (k : Nat) : Fld := ⟨SH_SAMP n k, 31, 16⟩
def SH_SAMP_DEPTH (n : Nat) (k : Nat) : Fld := ⟨SH_SAMP n k, 11, 0⟩
def RC_BSTAT (r : Nat) : Nat := 0x1280000 + 0x400000 * r
def RC_BSTAT_LOST (r : Nat) : Fld := ⟨RC_BSTAT r, 31, 31⟩
def RC_BSTAT_FROZEN (r : Nat) : Fld := ⟨RC_BSTAT r, 30, 30⟩
def RC_OVF (r : Nat) (k : Nat) : Nat := 0x1280004 + 0x400000 * r + 0x4 * k
def RC_OVF_OVF (r : Nat) (k : Nat) : Fld := ⟨RC_OVF r k, 31, 0⟩
def RC_C_CTL (r : Nat) (k : Nat) : Nat := 0x1280100 + 0x400000 * r + 0x10 * k
def RC_C_CTL_EN (r : Nat) (k : Nat) : Fld := ⟨RC_C_CTL r k, 31, 31⟩
def RC_C_CTL_CLR (r : Nat) (k : Nat) : Fld := ⟨RC_C_CTL r k, 30, 30⟩
def RC_C_CTL_SAT (r : Nat) (k : Nat) : Fld := ⟨RC_C_CTL r k, 29, 29⟩
def RC_C_CTL_MODE (r : Nat) (k : Nat) : Fld := ⟨RC_C_CTL r k, 28, 27⟩
def RC_C_CTL_UNIT (r : Nat) (k : Nat) : Fld := ⟨RC_C_CTL r k, 26, 24⟩
def RC_C_CTL_EVENT (r : Nat) (k : Nat) : Fld := ⟨RC_C_CTL r k, 23, 16⟩
def RC_C_CTL_THRESH (r : Nat) (k : Nat) : Fld := ⟨RC_C_CTL r k, 11, 0⟩
def RC_C_FILT (r : Nat) (k : Nat) : Nat := 0x1280104 + 0x400000 * r + 0x10 * k
def RC_C_FILT_DOMEN (r : Nat) (k : Nat) : Fld := ⟨RC_C_FILT r k, 31, 31⟩
def RC_C_FILT_CLSEN (r : Nat) (k : Nat) : Fld := ⟨RC_C_FILT r k, 30, 30⟩
def RC_C_FILT_VIEW (r : Nat) (k : Nat) : Fld := ⟨RC_C_FILT r k, 29, 29⟩
def RC_C_FILT_DOMAIN (r : Nat) (k : Nat) : Fld := ⟨RC_C_FILT r k, 27, 14⟩
def RC_C_FILT_QCLASS (r : Nat) (k : Nat) : Fld := ⟨RC_C_FILT r k, 5, 0⟩
def RC_C_LO (r : Nat) (k : Nat) : Nat := 0x1280108 + 0x400000 * r + 0x10 * k
def RC_C_LO_CNTLO (r : Nat) (k : Nat) : Fld := ⟨RC_C_LO r k, 31, 0⟩
def RC_C_HI (r : Nat) (k : Nat) : Nat := 0x128010c + 0x400000 * r + 0x10 * k
def RC_C_HI_CNTHI (r : Nat) (k : Nat) : Fld := ⟨RC_C_HI r k, 15, 0⟩
def RC_C_SLO (r : Nat) (k : Nat) : Nat := 0x1280800 + 0x400000 * r + 0x8 * k
def RC_C_SLO_CNTLO (r : Nat) (k : Nat) : Fld := ⟨RC_C_SLO r k, 31, 0⟩
def RC_C_SHI (r : Nat) (k : Nat) : Nat := 0x1280804 + 0x400000 * r + 0x8 * k
def RC_C_SHI_CNTHI (r : Nat) (k : Nat) : Fld := ⟨RC_C_SHI r k, 15, 0⟩
def TR_CTL (r : Nat) : Nat := 0x1281000 + 0x400000 * r
def TR_CTL_EN (r : Nat) : Fld := ⟨TR_CTL r, 31, 31⟩
def TR_CTL_WRAP (r : Nat) : Fld := ⟨TR_CTL r, 30, 30⟩
def TR_CTL_HALSTOP (r : Nat) : Fld := ⟨TR_CTL r, 29, 29⟩
def TR_CTL_TRIGSTOP (r : Nat) : Fld := ⟨TR_CTL r, 28, 28⟩
def TR_CTL_K (r : Nat) : Fld := ⟨TR_CTL r, 27, 23⟩
def TR_SEED (r : Nat) : Nat := 0x1281004 + 0x400000 * r
def TR_SEED_SEED (r : Nat) : Fld := ⟨TR_SEED r, 31, 0⟩
def TR_STAT (r : Nat) : Nat := 0x1281008 + 0x400000 * r
def TR_STAT_FULL (r : Nat) : Fld := ⟨TR_STAT r, 31, 31⟩
def TR_STAT_STOPPED (r : Nat) : Fld := ⟨TR_STAT r, 30, 30⟩
def TR_STAT_WPTR (r : Nat) : Fld := ⟨TR_STAT r, 27, 16⟩
def TR_STAT_DROP (r : Nat) : Fld := ⟨TR_STAT r, 15, 0⟩
def TR_IDX (r : Nat) : Nat := 0x128100c + 0x400000 * r
def TR_IDX_IDX (r : Nat) : Fld := ⟨TR_IDX r, 11, 0⟩
def TR_DATA (r : Nat) (k : Nat) : Nat := 0x1281040 + 0x400000 * r + 0x4 * k
def TR_DATA_BYTES (r : Nat) (k : Nat) : Fld := ⟨TR_DATA r k, 31, 0⟩
def G_STAT (n : Nat) : Nat := 0x12c0000 + n / 2 * 0x400000 + n % 2 * 0x10000
def G_STAT_STATE (n : Nat) : Fld := ⟨G_STAT n, 31, 29⟩
def G_STAT_HOSTPRIV (n : Nat) : Fld := ⟨G_STAT n, 28, 28⟩
def G_STAT_FCAUSE (n : Nat) : Fld := ⟨G_STAT n, 27, 24⟩
def G_STAT_PC (n : Nat) : Fld := ⟨G_STAT n, 17, 0⟩
def RF_STAT (r : Nat) : Nat := 0x1300000 + 0x400000 * r
def RF_STAT_ESCEVT (r : Nat) : Fld := ⟨RF_STAT r, 31, 31⟩
def RF_STAT_BNDEVT (r : Nat) : Fld := ⟨RF_STAT r, 30, 30⟩
def RF_STAT_SPROWS (r : Nat) : Fld := ⟨RF_STAT r, 23, 16⟩
def RF_STAT_CONTAINED (r : Nat) : Fld := ⟨RF_STAT r, 15, 0⟩

end R

end Sys2Proof.Machine
end

