-- ==== Sys2Proof/Machine/State.lean ====
section
/-!
DEFINITION. The state of the block: every register, memory, queue, buffer, counter, mode and pin the spec gives it, as plain
data. Registers of the control window are held once, in `regs`, by their offset; the structures below hold what has no
register, or more than its register shows. A field that the model adds for itself says so.
-/
namespace Sys2Proof.Machine

/-- Why a command stops with a fault. Nobody raises it: every command of the table has an effect in every state. Safe. -/
inductive Fault where
  /-- Raised by no meaning; the type must not be empty. Safe. -/
  | none
deriving DecidableEq, Repr, Inhabited

/-- Why a command is refused. -/
inductive Refusal where
  /-- Raised by a command of the table whose meaning has not been written. Safe. -/
  | notModelled (mnemonic : String)
  /-- Raised by a command whose operands name nothing the interface can carry (`Instr.wf`). Safe. -/
  | illFormed
deriving DecidableEq, Repr, Inhabited
/-! ### Chapters 00 to 09, 16 and 17 -/

/-- The states of a cached line (Table 03-2). -/
inductive LState where
  | invalid | homeClean | homeDirty | peerS | peerF | peerE | peerM
deriving DecidableEq, Repr, Inhabited

/-- One way of one set of a Kindling slice (R58, R59): its state, the granule number that is its tag, the block bit, and
the line. `poison` marks data that arrived poisoned or was found uncorrectable here; `upset` marks the latter (R69). -/
structure KLine where
  st : LState
  tag : Nat
  blk : Bool
  poison : Bool
  data : Line
  upset : Bool := false
deriving DecidableEq, Repr, Inhabited

/-- One way of one set of the directory: the tag and the 64-bit sector entry of Table 04-2 (R75, R76). -/
structure DirEntry where
  tag : Nat
  bits : BitVec 64
deriving DecidableEq, Repr, Inhabited

/-- Who asks: the host on a logical port, or a pool device. -/
inductive Agent where
  | host (port : Nat)
  | peer (dev : Nat)
deriving DecidableEq, Repr, Inhabited

/-- What a request asks of a home (Tables 04-5 and 04-9; R96 for the paced forms). -/
inductive ReqOp where
  | hostRd (mv : MetaValue)
  | hostWr (mv : MetaValue)
  | hostPtl (mv : MetaValue)
  | rdS | rdOwn | rdCur | wrCur | wrPtl
  | pRd | pWr
deriving DecidableEq, Repr, Inhabited

/-- What a request's trace record needs (R371 to R373): whether it is tagged, the ingress stamp, the stage stamps it has
passed, and the fields of `WHO` and `PATH`. -/
structure Trace where
  on : Bool
  t0 : Nat
  reg : Option Nat
  home : Option Nat
  cache : Option Nat
  tier : Option Nat
  eng : Option Nat
  dram : Option Nat
  admTier : Nat
  master : Nat
  cls : Nat
  kindling : Nat
  form : Nat
  chan : Nat
  mapMiss : Bool
  redir : Bool
  reread : Bool
  peerHome : Bool
  group : Nat
deriving DecidableEq, Repr, Inhabited

/-- A request, with the domain entry it decoded under (R53, R56), its trace, and an SRAM word found uncorrectable when it is
served. `paced` ones that were accepted are answered on the paced path; `credit` is the paced credit it holds (1 read,
2 write). -/
structure Req where
  op : ReqOp
  agent : Agent
  tag : Nat
  dom : Nat
  entry : Entry
  addr : Nat
  data : Line
  be : BitVec 64
  poison : Bool
  upset : Upset
  credit : Nat
  tr : Trace
  evicts : Bool := false       -- a directory eviction has been begun for it (R91)
deriving DecidableEq, Repr, Inhabited

/-- A message of Table 04-5 with the fields of Table 04-4, or an MGT message of *Pennant Peer Link* whose payload lies in
`data`. -/
structure Msg where
  opc : Nat
  src : Nat
  dst : Nat
  txn : Nat
  addr : Nat
  reqDev : Nat
  reqTxn : Nat
  ord : Bool
  grant : Nat
  wbp : Bool
  held : Nat
  poison : Bool
  be : BitVec 64
  err : Nat
  data : Line
deriving DecidableEq, Repr, Inhabited

/-- What a home transaction is for: a request, a directory eviction (R91), an uncorrectable entry (R77), the recall of a domain by
a commit (step 4 of Table 02-5) or a destroy (step 3 of Table 07-9), the snoops of one line of a sector for the transaction
`parent`, returned data that has yet to find its place (R86), or a partner's mirror write (R57). -/
inductive TxPurpose where
  | serve
  | dirEvict
  | dirLost
  | recall (dom : Nat) (drop : Bool)
  | part (parent : Nat)
  | absorb
  | mirIn
deriving DecidableEq, Repr, Inhabited

/-- Where a home transaction stands. -/
inductive TxPhase where
  | snoop          -- waiting for responses
  | memory         -- waiting for read data from the channel
  | block          -- waiting for a block fill
  | backing        -- waiting for backing (R120)
  | mirror         -- waiting for the partner's Cmp (R57)
  | mirrorRead     -- waiting for the partner's copy (R57)
  | install        -- its data, in `got`, waits for a victim to leave (R65); with none, it waits to be served again
deriving DecidableEq, Repr, Inhabited

/-- A transaction entry of a home slice (R82). `line` is the line's DPA; `peers` and `ports` have yet to answer; `wbWait`
are devices whose WbData a response announced (R86); `wbSeen` those whose WbData has been absorbed in it. A transaction over a
sector has one of purpose `part` for each line it snoops. `busy` is 0 for paced requests and for what needs no entry. -/
structure HomeTx where
  id : Nat
  slice : Nat
  line : Nat
  purpose : TxPurpose
  phase : TxPhase
  req : Req
  peers : List Nat
  ports : List Nat
  wbWait : List Nat
  wbSeen : List Nat
  fwd : Option Nat          -- the device a forwarding snoop went to
  fwded : Bool              -- the forward happened
  hostShared : Bool         -- a recalled host answered BIRspS
  got : Option (Line × Bool)   -- read data that waits for what is left to do
  busy : Bool               -- the entry is in use
  lost : Bool := false      -- its directory entry was found uncorrectable (R77)
deriving DecidableEq, Repr, Inhabited

/-- The states of a requesting device for a peer-homed line (R83). -/
inductive PeerWait where
  | isd | imd | smd | iwa | mia | evt
deriving DecidableEq, Repr, Inhabited

/-- A requester tracker entry (R80): the line, its transient state, the host request that waits, and a snoop held under
R88. `home` is the line's home device. -/
structure ReqTrack where
  txn : Nat
  home : Nat
  line : Nat
  wait : PeerWait
  req : Req
  held : Option Msg
  got : Option (Nat × Line × Bool) := none   -- GRANT, data and poison that wait for a way (R65)
deriving DecidableEq, Repr, Inhabited

/-- A recall of this device's own hosts before it answers a snoop or evicts a peer-homed line (R74). -/
structure HostRecall where
  line : Nat
  ports : List Nat
  snoop : Option Msg           -- the snoop to answer; none for an eviction
  st : LState
  poison : Bool
  data : Line
deriving DecidableEq, Repr, Inhabited

/-- A block fill (R61): the granule, the entry it decoded under, the stored form being read, what it has been turned
into, and the hold it keeps. `staged` uses a staging buffer (R63), where writes merge into `out`: `dirty` until the block is
rewritten, `poison` for its poisoned lines; `second` is the second attempt of R138 or R147. -/
structure Fill where
  id : Nat
  slice : Nat
  dom : Nat
  entry : Entry
  granule : Nat
  chan : Nat
  csect : Nat
  n : Nat
  index : Nat := 0
  got : List (Nat × Line)
  bad : Bool
  unit : List Byte
  out : List Byte
  ready : Bool
  staged : Bool
  second : Bool
  cause : Nat                -- what the first attempt met: 0 nothing, 1 a tag failure, 2 parity, 3 a format fault
  first : Option Nat         -- the decompressor of that attempt
  dirty : Bool := false
  poison : BitVec 16 := 0
  asked : Bool := false      -- its install has been begun and waits for a victim to leave (R65)
deriving DecidableEq, Repr, Inhabited

/-- Where a block in a compressor's hands stays until it is taken (R65, R139): in its way, in a staging buffer, or nowhere else. -/
inductive JobAt where
  | way
  | staged (fill : Nat)
  | out
deriving DecidableEq, Repr, Inhabited

/-- Work in a compressor queue (R135): an evicted dirty block, or a block of a demotion. `limit` is what was in force when its
compression started (R134, R141): `MAXSECT` and `PATEN`. -/
structure CzJob where
  dom : Nat
  entry : Entry
  granule : Nat
  data : List Byte
  poison : Bool                -- a line of the block is poisoned (R310)
  mig : Option Nat
  first : Option Nat           -- the compressor on which a first attempt failed (R138)
  place : JobAt := .out
  limit : Option (Nat × Bool) := none
deriving DecidableEq, Repr, Inhabited

/-- A compressed block ready to be written: its sectors, and the stored bytes (R125, R142). -/
structure Stored where
  n : Nat
  bytes : List Byte
deriving DecidableEq, Repr, Inhabited

/-- The kinds of migration (R110). -/
inductive MigKind where
  | demote | promote | relocate
deriving DecidableEq, Repr, Inhabited

/-- Who issued a migration: a ticket of a core, a job, or the tier manager. -/
inductive MigBy where
  | ticket (core : Nat) (tk : Nat)
  | job (id : Nat)
  | manager
deriving DecidableEq, Repr, Inhabited

/-- Where a migration stands in Table 05-4. -/
inductive MigPhase where
  | copying | written | held
deriving DecidableEq, Repr, Inhabited

/-- One migration (R111): the page by its map entry and its first DPA, its issuer, the copied blocks of a demotion, the redo
bits, and the destination: a frame stripe or a slot's first sector, with `dslot` 0 for a frame. `want` is the channel asked
for, 16 for any (R327). -/
structure Mig where
  id : Nat
  dom : Nat
  entry : Entry
  page : Nat
  dpa : Nat
  kind : MigKind
  by_ : MigBy
  phase : MigPhase
  redo : BitVec 4
  blocks : List (Nat × Stored)
  forced : Bool
  want : Nat
  dest : Nat
  dchan : Nat
  dslot : Nat
  copied : Nat := 0            -- granules copied (step 2); 4 and up once the copy is made
deriving DecidableEq, Repr, Inhabited

/-- The dedication of a 2 MiB extent (R104). `used` counts its frames or slots; `noAlloc` closes it (R386). -/
structure Extent where
  kind : Nat            -- 0 free, 1 Firewood group extent, 2 bin extent
  arg : Nat             -- group base * 32 + N, or the bin
  used : Nat
  auditOnly : Bool
  noAlloc : Bool
deriving DecidableEq, Repr, Inhabited

/-- The domain table, its decode caches and its commits in progress (chapter 02). -/
structure Commit where
  dom : Nat
  path : Option Path          -- a register path, whose DOMSTAT it drives
  src : Nat                   -- 0 register path, 1 mailbox, 2 ring, 3 Grihar group, 4 the device itself
  arg : Nat                   -- port, ring or ticket to answer
  old : Entry
  new : Entry
  inval : Bool                -- the invalidation of step 3 has reached every decode cache and home slice
  recalled : Bool             -- a deletion has asked for its key's erase
  swept : Bool := false       -- the copies that requests of the old entry left have been recalled
deriving DecidableEq, Repr, Inhabited

structure DomState where
  entries : Tab Entry
  dcache : Tab (List (Nat × Entry))      -- per port group, newest first
  commits : List Commit                       -- past the commit point, not complete
  waiting : List Commit                       -- behind a commit of the same domain
  decl : List (Nat × Nat)                     -- (port, domain): Add Capacity held until the mailbox is enabled
  release : List (Nat × Nat × List Nat × List Nat)   -- (TMREL index, domain, ports asked, ports yet to release)
deriving DecidableEq, Repr, Inhabited

/-- The Kindling slices (chapter 03). Lines are keyed (slice * 12288 + set) * 16 + way. -/
structure KindState where
  lines : Tab KLine
  setTree : Tab (BitVec 16)
  grpTree : Tab (BitVec 16)
  fills : List Fill
  op : Tab (Nat)               -- per slice: 0 none, else 1 + OP * 2 + SCOPE
  opDom : Tab Nat
  opSet : Tab Nat              -- next set of the operation
  sramErr : Tab (List (Nat × Bool))   -- per slice * 16 + way: (GTC, uncorrectable) of lasting words
  drain : List Nat             -- slice * 16 + way: ways that are being emptied before they leave service (R67)
deriving DecidableEq, Repr, Inhabited

/-- The eight message classes of the mesh, each with buffers of its own (R25). -/
inductive MeshClass where
  | req
  | snp
  | rsp
  | dat
  | wb
  | mgt
  | preq
  | pdat
deriving DecidableEq, Repr, Inhabited

/-- The ports of a mesh stop: toward its four neighbours, and its own blocks' (R23, R24). -/
inductive MeshPort where
  | west
  | east
  | down
  | up
  | own
deriving DecidableEq, Repr, Inhabited

/-- What a mesh message carries: a request that was admitted, or a message that a peer sent. -/
inductive MeshLoad where
  | req (r : Req)
  | msg (m : Msg)
deriving DecidableEq, Repr, Inhabited

/-- A message in the mesh: its class, the stop (x, y) and input port whose buffer holds it, and the stop it goes to (R24, R25). -/
structure MeshMsg where
  cls : MeshClass
  x : Nat
  y : Nat
  port : MeshPort
  tox : Nat
  toy : Nat
  load : MeshLoad
deriving DecidableEq, Repr, Inhabited

/-- The mesh (R23 to R26): its messages, oldest first within each buffer; for each output (`8 * (8 * y + x) + port`) and class, as
`8 * output + class`, the mesh clocks it has waited with a message ready; and the input port granted last. -/
structure MeshState where
  msgs : List MeshMsg
  waits : Tab Nat
  last : Tab Nat
deriving DecidableEq, Repr, Inhabited

/-- The coherence state of the home slices and of this device as a requester (chapter 04). -/
structure CohState where
  dir : Tab DirEntry
  dirTree : Tab (BitVec 16)
  txs : List HomeTx
  ordq : Tab (List Req)        -- per home slice
  reqs : List ReqTrack
  recalls : List HostRecall
  snpWait : List Msg                      -- snoops that wait for this device's own work on their line
  biOut : List (Nat × Nat × Nat × Nat)    -- (port, line, kind, sent): outstanding back-invalidations, oldest first
  biWait : List (Nat × Nat × Nat)         -- (port, line, kind) waiting for a BISnp credit
  biCredit : Tab Nat                      -- BISnp credits the host of a port has given (R302)
  mirOut : List (Nat × Nat × Nat)         -- (TXN, transaction, partner): mirror writes and reads outstanding (R57)
deriving DecidableEq, Repr, Inhabited

/-- The tier manager and the page map (chapter 05). -/
structure TierState where
  pmap : Tab PageEntry      -- by metadata-region offset / 16
  mcache : Tab (List (Nat × Bool))   -- map cache, per slice * 4096 + set, newest first: entry, and whether it is dirty (R46)
  inDram : Tab Bool            -- entries that only DRAM holds (R46): by metadata-region offset / 16
  extents : Tab Extent         -- channel * 2^20 + extent
  frames : Tab Bool            -- CHBASE * 2^33 + FSTRIPE in use
  slots : Tab Bool             -- channel * 2^34 + first sector in use
  lostBack : Nat               -- backing lost under R386, in sectors
  epoch : Nat                  -- heat epoch count
  resync : Tab Nat             -- per map owner: 0 none, else 1 + next entry of its resync pass
  sweep : Tab Nat              -- per map owner: the sweep's place
  migs : List Mig
  nextMig : Nat
  reports : List (Nat × Nat)   -- job and status: results of ended migrations not yet taken by their jobs
  waitq : Tab (List Nat)       -- per home slice: transactions in the allocation wait list
  overq : Tab (List Nat)       -- per home slice: allocating requests returned to the ordering queue
  nextSlice : Nat              -- round-robin place of the backing grants
  backPr : Tab Bool            -- back-pressure per home slice
  tagHeld : List (Nat × Nat × Bool)   -- (domain, granule) with a lasting tag failure; whether TAG_HOLD has been raised
  region : Nat                 -- metadata region size in 2 MiB extents, fixed at the default configuration
  metaChans : List Nat         -- the channels populated when the default configuration was built (R100)
  place : Tab Nat              -- metadata extents moved since: extent -> 1 + channel * 2^20 + extent
deriving DecidableEq, Repr, Inhabited

/-- A key slot (R150): state code of Table 07-4 and its three keys. -/
structure KeySlot where
  st : Nat
  k1 : BitVec 256
  k2 : BitVec 256
  kt : BitVec 256
deriving DecidableEq, Repr, Inhabited

/-- A destroy in progress (Table 07-9): the slot, the register path or mailbox port that started it. -/
structure Erase where
  dom : Nat
  entry : Entry              -- the entry when it began
  path : Option Path
  port : Option Nat
deriving DecidableEq, Repr, Inhabited

/-- Keys and engines (chapters 06 and 07). -/
structure EngState where
  cq : Tab (List CzJob)        -- per engine: compressor queue, at most 4
  dq : Tab (List Nat)          -- per engine: decompressor queue, fills
  czWait : List CzJob          -- blocks that found no compressor queue with room
  czHeld : List CzJob          -- dirty blocks kept for their page's promotion (R139)
  dzWait : List Nat
  czTurn : Tab Nat             -- per compressor: 1 + the home slice whose block it took last (R135)
  dzTurn : Tab Nat             -- per decompressor
  slots : Tab KeySlot
  dk : Tab (Option (BitVec 256))    -- DK0 to DK7
  seq : Tab Nat                -- sequence counter of DK0 and DK4
  erases : List Erase
  kcache : Tab (List Nat)      -- key caches: encrypt pipelines 0 to 15, decrypt 16 to 31; newest first
  kpin : List Nat              -- slots pinned in every cache
deriving DecidableEq, Repr, Inhabited

/-- What a DRAM read is for. -/
inductive RdFor where
  | demand (tx : Nat)
  | sector (fill : Nat) (i : Nat)
  | paced (tx : Nat)
  | merge (entry : Nat)
deriving DecidableEq, Repr, Inhabited

/-- A read-queue entry of a subchannel (R165): the channel-local line, its use, when it arrived, and its place in the order
of accesses (R168). An issued one holds the code word it met, and the marks, limit and poison-list result in force then
(R198, R199), and counts the replays it has taken part in (R180). A re-read (R202) carries the first decode, the nibbles it found in
error, and whether it was answered. -/
structure RdEntry where
  line : Nat
  use : RdFor
  at_ : Nat
  seq : Nat
  word : CodeWord := 0
  mask : BitVec 10 := 0
  tlim : Nat := 0
  listed : Bool := false
  first : Option Decoded := none
  nibbles : BitVec 10 := 0
  answered : Bool := false
  tries : Nat := 0
deriving DecidableEq, Repr, Inhabited

/-- A write-queue entry (R165). Plain data is encrypted as it issues (R157); `raw` holds stored bytes as they are.
`tweak` is that of Table 07-2 and `dom` the domain whose keys apply. -/
structure WrEntry where
  id : Nat
  line : Nat
  data : Line
  raw : Bool
  poison : Bool
  dom : Nat
  enc : Bool
  tweak : BitVec 128
  paced : Bool
  bg : Bool
  issued : Bool
  addr : Nat                   -- DPA of the line, or of the block of stored bytes
  credit : Nat := 0            -- 1 + the paced source whose write credit the entry holds (R226)
  full : Bool := false         -- a full-line write, whose stored line is classified (R204)
deriving DecidableEq, Repr, Inhabited

/-- A merge-buffer entry (R31, R204): a narrow write whose stored line is being read, or has been: `got` is its stored bytes, and whether
they are poison. -/
structure MergeEntry where
  id : Nat
  line : Nat
  addr : Nat
  dom : Nat
  enc : Bool
  data : Line
  be : BitVec 64
  poison : Bool
  paced : Bool
  credit : Nat
  got : Option (Line × Bool) := none
deriving DecidableEq, Repr, Inhabited

/-- A command in the retry buffer (R177); a bank is numbered rank * 32 + bank, and a refresh names the bank of each group that it
refreshes, or 4 for all. -/
inductive DramCmd where
  | activate (bank row : Nat)
  | precharge (bank : Nat)
  | read (e : RdEntry)
  | write (id : Nat)
  | refresh (rank bank : Nat)
  | mitigate (bank row : Nat)
  | manage (bank : Nat)
  | repair (bank row : Nat)
deriving DecidableEq, Repr, Inhabited

/-- One bank of one rank of one subchannel: its open row, the clock of its last access (R166), its activate-count table (R173) and its
rolling activate count (R175). -/
structure Bank where
  row : Option Nat
  act : List (Nat × Nat)
  floor : Nat
  flagged : Bool
  mits : List Nat
  owed : List Nat              -- rows at T that find four mitigations queued (R173)
  fresh : Bool                 -- the open row has not been accessed since its activate
  last : Nat
  raa : Nat
deriving DecidableEq, Repr, Inhabited

/-- The alert sequence of a subchannel (R178, R179). -/
inductive AlertPhase where
  | none | stopped | replay | restore | lowerRate
deriving DecidableEq, Repr, Inhabited

/-- One subchannel (R165 to R180). -/
structure Sub where
  rq : List RdEntry
  prq : List RdEntry           -- paced reads
  wq : List WrEntry
  inflight : List RdEntry      -- reads issued, data not yet at the PHY
  rereads : List RdEntry       -- re-reads holding or waiting for a retry entry
  retry : List DramCmd
  alert : AlertPhase
  replays : Nat
  implicated : List DramCmd
  draining : Bool
  bgUsed : Nat
  clock : Nat                  -- controller clocks
deriving DecidableEq, Repr, Inhabited

/-- A row being soft-repaired: its coordinates, and its lines in the row save buffer (Table 08-7). -/
structure RowSave where
  sub : Nat
  rank : Nat
  bank : Nat
  row : Nat
  lines : Tab CodeWord
deriving DecidableEq, Repr, Inhabited

/-- An extent being copied (step 3 of Table 08-9): the extent, the target channel and extent, and the lines still to be copied. -/
structure ExtCopy where
  ext : Nat
  chan : Nat
  target : Nat
  left : List Nat
deriving DecidableEq, Repr, Inhabited

/-- An injection operation in progress (R211, R212): its code, its line, what the registers held at `GO`, and its place in the order of
accesses once no write to its line is queued. -/
structure Injection where
  op : Nat
  line : Nat
  word : CodeWord
  at_ : Option Nat
deriving DecidableEq, Repr, Inhabited

/-- The patrol pass of a channel (R206): its next line, the lines it visits, and the GTC at which its next line is due, times those
lines. `paused` is the GTC at which a power state paused it (R208). -/
structure Patrol where
  line : Nat
  visits : Nat
  due : Nat
  paused : Option Nat
deriving DecidableEq, Repr, Inhabited

/-- One channel controller (chapters 08 and 09). -/
structure Chan where
  merges : List MergeEntry
  scrub : List WrEntry         -- rewrites; the first hold the scrub write-back reservation (R202)
  inj : Option Injection
  threshNow : Nat              -- THRESH in force in this refresh window (R173); 0 before the first boundary stands for the register
  save : Option RowSave
  repairs : List (Nat × Nat × Nat × Nat)     -- listed for hard repair: sub, rank, bank, row
  spares : Tab Nat             -- spare rows used up by hard repairs, per bank group
  spareOf : Option Nat         -- SPD identity of the modules that `spares` is of
  softRows : List (Nat × Nat × Nat × Nat)    -- rows that a soft repair has put on a spare row
  poisonList : List Nat
  redirect : Tab Nat           -- extent -> 1 + target channel * 2^19 + target extent
  extCopy : Option ExtCopy
  extWait : Bool
  patrol : Patrol
  hotPolls : Nat               -- consecutive cool polls
  coolPolls : Nat
  tsFails : Nat
  mr4Rate : Nat                -- 0 1x or less, 1 2x, 2 above 2x or out of range
  retired : Bool
  warm : Bool                  -- the refresh rate was raised by a sensor or report and has not come back
  hotNow : Bool                -- the last poll read above `HOTLIM`
  nodrfm : Bool
  drfm : Tab Bool              -- whether every device of a slot's ranks reports directed refresh management (R175)
  retireWait : Option Nat      -- a retirement asked for during an escalation (R189): 0, or the type of record that issued it
  ident : Option Nat           -- SPD identity of the training in force
  rate : Nat                   -- its rate, in units of 100 MT/s
  values : Nat                 -- its training values, by the number of the draw that stands for them
  spent : List (Nat × Nat × Nat)     -- rows with no spare that name one nibble (R384): subchannel and rank, row, nibble
deriving DecidableEq, Repr, Inhabited

/-- A lasting fault of stored data, kept for the counts of R384: when, where, and the nibbles it named. -/
structure LastingFault where
  at_ : Nat
  chan : Nat
  subRank : Nat
  row : Nat
  line : Nat
  nibbles : BitVec 10
  ue : Bool
deriving DecidableEq, Repr, Inhabited

/-- DRAM and its controllers. Lines are keyed channel * 2^34 + channel-local line index. -/
structure DramState where
  lines : Tab CodeWord
  chans : Tab Chan
  subs : Tab Sub               -- channel * 2 + subchannel
  banks : Tab Bank             -- ((channel * 2 + sub) * 16 + rank) * 32 + bank
  refDue : Tab Nat             -- (channel * 2 + sub) * 16 + rank: postponed refreshes
  refAhead : Tab Nat           -- pulled-in refreshes
  refBank : Tab Nat            -- the bank of each group that the next same-bank refresh takes
  nextId : Nat
  lasting : List LastingFault
  alerts : List (Nat × Nat)    -- lasting alert recoveries: GTC, channel
  media : List (Nat × Nat × Nat)      -- media poison list: domain, DPA, source
  mediaFull : Option Nat       -- overflow flag and timestamp
deriving DecidableEq, Repr, Inhabited

/-- The claims on shared resources (R33 to R37). -/
structure ClaimState where
  aot : Tab Nat                -- AOT -> feature code
  mfp : Tab Nat                -- MFP -> feature code
  merge : Tab Nat              -- channel * 256 + feature -> entries reserved
  retry : Tab Nat              -- (channel * 2 + sub) * 256 + feature -> entries reserved
deriving DecidableEq, Repr, Inhabited

/-- An error record (Table 17-4). -/
structure Record where
  index : Nat := 0
  type : Nat := 0
  sev : Nat := 0
  cls : Nat := 0
  level : Nat := 0
  ukind : Nat := 0
  unit : Nat := 0
  count : Nat := 0
  gtc1 : Nat := 0
  gtcN : Nat := 0
  dom : Nat := 0xFFFF
  loc : Nat := 0
  type2 : Nat := 0
  detail : BitVec 128 := 0
  unread : Bool := true
deriving DecidableEq, Repr, Inhabited

/-- The chip fault block and the always-on store (chapter 17). -/
structure FaultState where
  ring : List Record           -- newest first, at most 4,096
  store : List Record          -- always-on store, newest first, at most 64
  latched : BitVec 512         -- the bytes that CF_RECk return
  spareRows : Tab Nat          -- spare rows used per SRAM macro
deriving DecidableEq, Repr, Inhabited

/-- Counter banks and request tagging (chapter 16). Counters are keyed bank * 128 + index. -/
structure CtrState where
  count : Tab (BitVec 48)
  snap : Tab (BitVec 48)
  frozen : Tab Bool            -- per bank
  target : Option Nat          -- T of a pending Halyard freeze
  awaitEdge : Bool             -- armed for the next edge of HALYARD_IN
  taken : List Nat             -- banks that have taken the pending snapshot
  lfsr : Tab (BitVec 32)       -- per region; unlisted reads as the seed register's Reset value's load
  trace : Tab (BitVec 512)     -- region * 4096 + slot
  seq : Tab Nat
  latched : Tab (BitVec 512)   -- record latched by TRr_DATA0
deriving DecidableEq, Repr, Inhabited
/-! ### Chapter 10: regulation, pacing and shaping -/

/-- A message or response waiting in an egress slot (R235): a response to a host, or a Data or DataFwd message. `paced`
ones are never held. -/
structure Egress where
  req : Req
  toHost : Bool
  isData : Bool
  data : Line
  poison : Bool
  paced : Bool
  cls : Nat
  at_ : Nat
  outcome : Nat                -- outcome code of Table 16-4b
  credit : Nat                 -- paced credit to return when sent: 0 none, 1 read, 2 write
  msg : Msg
deriving DecidableEq, Repr, Inhabited

/-- A token bucket: tenths of a byte below its limit, at a GTC value (R236). The limit itself is in its register. -/
structure Bucket where
  below : Nat
  at_ : Nat
deriving DecidableEq, Repr, Inhabited

/-- A request at its admission point (R219). -/
structure Waiting where
  req : Req
  master : Nat
  cls : Nat
  lines : Nat
  accepted : Bool
deriving DecidableEq, Repr, Inhabited

/-- A place in a weighted round-robin: the master granted last and the grants it may still take in its turn. -/
structure Turn where
  last : Nat
  left : Nat
deriving DecidableEq, Repr, Inhabited

/-- The regulator (R215 to R228). Masters 0 to 255 are host masters, 256 + d peer masters; amounts of a region are keyed
region * 512 + master. Committed settings stand in `regs` at their own copy (`comOff`). -/
structure RglState where
  admq : Tab (List Waiting)            -- per admission point
  own : Tab Nat                        -- region * 512 + master
  effmin : Tab Nat                     -- per master
  pool : Tab Nat                       -- per region
  used : Tab Nat                       -- per class
  capHit : Tab Bool                    -- per class, in the present window
  turnG : Tab Nat                      -- per admission point: master granted last
  turnS : Tab Turn
  turnX : Tab Turn
  admitted : Tab Nat                   -- region * 16 + d: units of peer masters in the present window
  lastAdm : Tab Nat                    -- in the previous window
  fresh : Bool                         -- the first window after a commit is the next one
  pending : Option (Tab (BitVec 32))   -- settings that take effect at the next boundary (R224)
  paced : Tab Nat                      -- paced count of a source in the window
  taken : Tab Nat                      -- source * 2 + write: credits consumed and not returned
  owed : Tab Nat                       -- source * 2 + write: returns withheld until the boundary
  queued : List (Path × Tab (BitVec 32)) -- settings committed before `READY` (R456)
  uncred : List Nat                    -- sources recorded as PACE_UNCREDITED since the last commit
  egress : Tab (List Egress)           -- per egress slot, oldest first
  bucket : Tab Bucket                  -- slot * 64 + class
  turnE : Tab Nat                      -- per slot: class sent last
  maxWait : Tab Nat                    -- slot * 64 + class: longest wait since the last sample
deriving DecidableEq, Repr, Inhabited

/-! ### Chapter 13: CXL host ports -/

/-- Where a logical port stands: the lowest port group, the half of it, and its width; in force since the last Port reset
(R297). -/
structure PortPlace where
  on : Bool
  group : Nat
  half : Nat
  wide : Bool
deriving DecidableEq, Repr, Inhabited

/-- An HDM decoder of a head (R304), with what a host writes before it commits it. -/
structure HdmDecoder where
  committed : Bool
  error : Bool
  lock : Bool
  ways : Nat
  gran : Nat
  hpaBase : Nat
  hpaSize : Nat
  dpaBase : Nat
  dpaSize : Nat
deriving DecidableEq, Repr, Inhabited

/-- An entry of a head's event log (R311). -/
structure LogEntry where
  log : Nat                    -- 0 Informational, 1 Warning, 2 Failure, 3 Fatal, 4 Dynamic Capacity
  event : Nat
  dom : Nat
  dpa : Nat
  gtc : Nat
deriving DecidableEq, Repr, Inhabited

/-- A head (R298 to R314). -/
structure Head where
  flit : Nat                   -- 0 link down, 1 68-byte flits, 2 256-byte flits
  biEn : Bool
  l1 : Bool
  mbx : Bool                   -- the host has enabled the head's mailbox
  tolScale : Nat
  tolVal : Nat
  ltrSent : Bool
  dec : Tab HdmDecoder
  ide : Nat                    -- 0 none, 1 secure, 2 insecure
  ideKey : Option (BitVec 256) -- of the CXL.cachemem stream
  ideIo : Option (BitVec 256)  -- of the selective stream for CXL.io
  hdmh : List Nat              -- domains for which HDMH_SHARED has been recorded
  logs : List LogEntry         -- newest first
  bg : Option Nat              -- opcode of the background command in progress
  bgDone : Option (Nat × Nat)  -- opcode and status of the last background command
  viral : Bool
  aer : Bool                   -- AER Uncorrectable Internal Error
deriving DecidableEq, Repr, Inhabited

/-- The host ports. -/
structure HostState where
  place : Tab PortPlace
  heads : Tab Head
deriving DecidableEq, Repr, Inhabited

/-! ### Chapter 11: lanes -/

/-- One physical lane: its PRBS generator and counters (R253, R254), whether a host's margining command holds its sampler (R256),
the state a detection on demand returns it to (1 + code; 0 in training), and its fault's classification (R251): 0 none, 1 in its
retrain, 2 trained, 3 with a good interval after it, 4 lasting. Its other registers are in `regs`. -/
structure Lane where
  gen : BitVec 31
  checked : Nat
  errors : Nat
  margHost : Bool
  was : Nat
  judge : Nat
deriving DecidableEq, Repr, Inhabited

/-- The port groups: `MODE` in force (R241), `PGg_CXLCFG` as it stood at the group's last Port reset (R297), the lanes keyed
group * 16 + lane, and a lane whose substitution waits for the standby lane's detection (1 + lane; R263). -/
structure LaneState where
  mode : Tab Nat
  cfg : Tab (BitVec 32)
  lanes : Tab Lane
  subst : Tab Nat
deriving DecidableEq, Repr, Inhabited

/-! ### Chapter 12: the Pennant link -/

/-- A data flit kept for replay. -/
structure KeptFlit where
  seq : Nat
  msgs : List Msg
  prc : Nat
  pwc : Nat
deriving DecidableEq, Repr, Inhabited

/-- One end of a link (R272 to R294). NEXT, E, the number of kept flits and the training state are in `PGg_LKSEQ`,
`PGg_LKCNT` and `PGg_LKSTAT`. -/
structure LinkEnd where
  buf : List KeptFlit
  replayAt : Option Nat        -- sequence number of the next flit to resend
  rplFlag : Bool
  rwait : Bool
  nakDue : Bool
  restartSeq : Nat
  restarts : Nat
  refused : Nat                -- refusals of the flit expected (R283)
  ovrRetrains : Nat
  slot : Nat                   -- flit slots since the last marker sent
  rxSlot : Nat
  markers : Nat
  missed : Tab Nat             -- per lane: markers missed in a row
  rxMarkers : Tab Nat          -- per lane: consecutive good markers in Align
  nonce : BitVec 32
  peerNonce : BitVec 32
  blocks : Tab Nat             -- per lane: consecutive blocks with one nonce that show ours received
  echoes : Nat
  leadOut : Nat                -- decision byte being sent or echoed
  full : Bool                  -- the training in progress is a full reset
  retrainFails : Nat
  eqFails : Nat
  slowRate : Bool
  resumeRx : Nat
  resumeTx : Nat
  l0Run : Nat                  -- consecutive valid training blocks received in L0
  evValid : Bool               -- E is valid in our training blocks (R291, R294)
  peerRec : Option Nat         -- peer's E learnt in training or by LinkRecover
  oreq : Nat                   -- send limits taken from the peer's blocks
  owb : Nat
  osnp : Nat
  adv : BitVec 32              -- PEERLIM value advertised at entry to Config
  peerFaults : Nat
  downAt : Option Nat          -- since when the link is out of L0
  peerRev : Bool               -- its lane i arrives on our lane 8 - i
  peer112 : Bool               -- `RATE` lets it run 112 Gbit/s
  peerVc8 : Bool
  peerMinw : Nat
  calm : Nat                   -- blocks in Equalise that asked for nothing new
deriving DecidableEq, Repr, Inhabited

/-- The Pennant links. -/
structure LinkState where
  ends : Tab LinkEnd           -- per port group
  outq : Tab (List Msg)        -- per peer: messages not yet in a flit, oldest first
  epoch : Option (BitVec 32)   -- this device's boot epoch (R287)
  peerEpoch : Tab (Option (BitVec 32))
  outst : Tab Nat              -- peer * 8 + VC: outstanding messages of a limited class
  pcr : Tab Nat                -- peer * 2 + write: paced credit totals granted by the peer
  pout : Tab Nat               -- peer * 2 + write: paced requests outstanding to the peer
  pret : Tab Nat               -- peer * 2 + write: paced credits to be returned to the peer
  puncred : List Nat           -- peers recorded as PACE_UNCREDITED since the last commit (R234)
  pwait : Tab (List Msg)       -- per peer: paced requests that wait for a credit
  preqs : List ReqTrack        -- paced requests forwarded to a peer
  mgtAt : List (Nat × Nat)     -- peer and GTC of MGT messages sent that have no reply (Table 12-7)
deriving DecidableEq, Repr, Inhabited
/-! ### Chapters 14 and 15: the Grihar cores, command rings and jobs -/

/-- One of a core's 16 tickets (R324): the operation it was taken for, its state (0 free, 1 issued, 2 committed, 3 done), and
its result word's fields. -/
structure Ticket where
  op : Nat
  st : Nat
  status : Nat
  a : Nat
  b : Nat
deriving DecidableEq, Repr, Inhabited

/-- One slot of a commit group (R330): a domain's entry, a regulator register and a shaper register by its offset, or a
counter's `Ck_CTL` (bits 31:0) and `Ck_FILT` (bits 63:32). -/
inductive GroupSlot where
  | dom (d : Nat) (e : Entry)
  | rgl (off : Nat) (v : BitVec 32)
  | shape (off : Nat) (v : BitVec 32)
  | ctr (bank index : Nat) (v : BitVec 64)
deriving DecidableEq, Repr, Inhabited

/-- A WAIT in progress (R328): its mask, its destination, and the GTC at which its limit is reached. -/
structure Waitfor where
  mask : Nat
  rd : Nat
  limit : Option Nat
deriving DecidableEq, Repr, Inhabited

/-- A suspension or cancellation asked of a program, waiting for its next checkpoint (R334, R345): the action, and who is
to be told (a ring, or 8 + the logical port of a mailbox). -/
structure Asked where
  action : Nat
  src : Nat
deriving DecidableEq, Repr, Inhabited

/-- A Grihar core (R316, R317). Its state code is in `Gk_STAT`. `prog` is the program loaded (0 none), `run` the program of
the present run; `cap` is the capability record of a host program (Table 14-12). Data SRAM is held by its 8-byte words. -/
structure GCore where
  prog : Nat
  run : Nat
  host : Bool
  codeLen : Nat
  cap : List Byte
  g : Tab (BitVec 64)
  f : BitVec 8
  pc : Nat
  event : Nat
  evarg : Nat
  ckclk : Nat
  tickets : Tab Ticket
  group : Option (List GroupSlot)
  imem : Tab (BitVec 32)
  dmem : Tab (BitVec 64)
  mbox : List (Nat × BitVec 64)    -- source core and payload, oldest first
  wait : Option Waitfor
  asked : List Asked
  faults : List Nat                -- GTCs of the faults of a ROM program in the last second
  stopped : Bool                   -- PROG_STOPPED (R346)
  load : Option (Nat × Nat × Bool × Nat)   -- a REPLACE load that waits for the ROM program: code, data, START, who is told
deriving DecidableEq, Repr, Inhabited

/-- A binding of an event to a program (R343): for TIMER, its period in µs and the GTC of its next expiry. -/
structure Bind where
  prog : Nat
  code : Nat
  period : Nat
  next : Nat
deriving DecidableEq, Repr, Inhabited

/-- A heat scan in progress (R326); `gone` holds the pages visited and the records written once its domain has been deleted or its key
destroyed. -/
structure Scan where
  core : Nat
  tk : Nat
  dom : Nat
  mode : Nat
  states : Nat
  thr : Nat
  start : Nat
  count : Nat
  outptr : Nat
  outmax : Nat
  gone : Option (Nat × Nat)
deriving DecidableEq, Repr, Inhabited

/-- A commit group at the chip arbiter that waits for an earlier commit of one of its domains (R331). -/
structure GroupWait where
  core : Nat
  tk : Nat
  slots : List GroupSlot
  host : Bool
  cap : List Byte
deriving DecidableEq, Repr, Inhabited

structure CoreState where
  cores : Tab GCore
  scratch : Tab (BitVec 64)        -- policy scratch, by 8-byte words
  binds : List Bind
  pend : List (Nat × Nat × Nat)    -- program, event code, argument; oldest first
  scans : List Scan
  groups : List GroupWait
  left : Tab Nat                   -- core * 16 + ticket: domains of its committed group not yet at step 5
  loads : Nat                      -- host loads since Cold reset
  params : Tab Nat                 -- 1 + value: PROG * 16 + index (Table 15-11)
deriving DecidableEq, Repr, Inhabited

/-- A command ring (R347): the descriptor in progress, and the completions that wait for their slot, each with its IRQ
flag. -/
structure Ring where
  cur : Option (BitVec 1024)
  begun : Bool                     -- the descriptor in progress has been acted on
  due : List (BitVec 1024 × Bool)
deriving DecidableEq, Repr, Inhabited

/-- A job (R353, R354): `src` is the ring it came by, or 8 + the logical port of a mailbox. `held` marks a suspension that
waits for the unit's end, `stop` a cancel. The remaining fields are the operands and progress of its kind. -/
structure Job where
  id : Nat
  op : Nat
  st : Nat                 -- 0 Queued, 1 Running, 2 Suspended, 3 Done
  status : Nat
  done : Nat
  total : Nat
  gtc : Nat
  src : Nat
  tag : Nat
  irq : Bool
  dom : Nat
  kind : Nat
  chan : Nat
  depth : Nat
  cur : Nat                -- next unit
  last : Nat               -- one past the last unit
  flying : Nat             -- migrations in flight
  n1 : Nat                 -- result counts of Table 15-5
  n2 : Nat
  n3 : Nat
  hold : Bool
  stop : Bool
  phase : Nat
  bins : Nat
  groups : Bool
  limit : Nat
  audit : BitVec 512       -- the summary record of an audit (R210)
  seen : List Nat          -- extents a compaction has dealt with
deriving DecidableEq, Repr, Inhabited

structure RingState where
  rings : Tab Ring
  jobs : List Job                  -- not Done, in the order of their identifiers
  done : List Job                  -- Done, newest first, at most 256
  nextJob : Nat
  subs : Tab (Option (BitVec 1024))   -- per logical port: the descriptor of 0xC030 whose first completion is awaited
deriving DecidableEq, Repr, Inhabited

/-! ### Chapter 18: the Peat log -/

/-- The configuration image (Table 18-2, CFG): what a start-up replays. `regs` holds the registers it keeps. -/
structure Image where
  entries : Tab Entry
  regs : Tab (BitVec 32)
  claim : ClaimState
  redirect : Tab (Tab Nat)
  retired : List Nat
  region : Nat
  metaChans : List Nat
  place : Tab Nat
  params : Tab Nat
deriving DecidableEq, Repr, Inhabited

/-- A channel's training record (R181): its SPD identity, its rate and training values, and its repair list, by subchannel, rank, bank
and row (R183). -/
structure TrnRecord where
  ident : Nat
  rate : Nat
  values : Nat
  repairs : List (Nat × Nat × Nat × Nat)
deriving DecidableEq, Repr, Inhabited

/-- What an object of the log holds (Table 18-2): a full image, a delta, a channel's training record, the health records with
an index below `upto`, the lifetime counters, a program's record, a marker or closing page, the map of retired pages. -/
inductive PeatContent where
  | full (i : Image)
  | delta (i : Image)
  | trn (n : Nat) (r : TrnRecord)
  | hlt (upto : Nat)
  | cnt
  | prg (prog : Nat) (bytes : List Byte)
  | lgp (closing : Bool)
  | bad
deriving DecidableEq, Repr, Inhabited

/-- An object with live pages: stream, key, the sequence number of its first page, and its physical pages. -/
structure PeatObj where
  stream : Nat
  obj : Nat
  seq : Nat
  pages : List Nat
deriving DecidableEq, Repr, Inhabited

/-- The object being written: its content, the sequence number of its first page, the pages written, and how many are left; the
ticket that waits for it (core and ticket; 16 for none). -/
structure PeatWork where
  content : PeatContent
  seq : Nat
  pages : List Nat
  left : Nat
  core : Nat := 0
  tk : Nat := 16
deriving DecidableEq, Repr, Inhabited

/-- A record that a program has appended and that is not written yet, with the ticket that waits for it (R323). -/
structure PrgRecord where
  prog : Nat
  bytes : List Byte
  core : Nat
  tk : Nat
deriving DecidableEq, Repr, Inhabited

/-- The Peat log: where it writes, its live objects, and what its valid objects say. `older` is the newest set older than the
current one (R401); `health` the journalled records. -/
structure PeatState where
  array : Tab (BitVec 4096)    -- the pages written (Table 18-1)
  frontier : Nat
  seq : Nat                    -- sequence number of the page written last
  bad : List Nat               -- retired pages
  badDue : Bool                -- the BAD object is to be written
  objs : List PeatObj
  cur : Option PeatWork
  image : Option Image
  older : Option Image
  deltas : Nat                 -- pages of deltas since the last full image
  wantFull : Bool              -- a full image is to be written
  seen : Option Image          -- the configuration that a Worn log has dropped
  trn : Tab (Option TrnRecord)
  hlt : Nat                    -- records with a lower index have been journalled
  health : List Record
  prgPend : List PrgRecord
  prg : List (Nat × List Byte)
  cntDue : Bool
  cntAt : Nat                  -- when the hour of the lifetime counters began
  flush : Option Nat           -- GTC of the PFW whose flush runs
  flushDone : Bool             -- the flush-done wire to the feed die
  closed : Bool                -- the page with the highest sequence number closes a flush
  idle : Bool                  -- the last Warm reset was taken with the log idle
deriving DecidableEq, Repr, Inhabited

/-! ### Chapter 19: the feed die -/

/-- The feed die (chapter 19): whether it is powered, its OTP settings, the settings in force by their registers' offsets, the
breaker's accumulators (feed * 8 + k), the ORing gates that are pulled off, whether the release latches both feeds, the
heartbeats missed in a row, and its clock in ns since its power-on. Its states and counts are in `FD_STAT`. -/
structure FeedState where
  on : Bool := true
  otp : Option (Tab (BitVec 32)) := none
  set : Tab (BitVec 32) := Tab.empty
  acc : Tab Nat := Tab.empty
  reverse : Tab Bool := Tab.empty
  hot : Bool := false
  missed : Nat := 0
  ns : Nat := 0
deriving DecidableEq, Repr, Inhabited

/-! ### Chapter 20: power states -/

/-- The power-state manager's own state (R431, R432): the state being entered, whether an exit is in progress, the GTC
at which the device was last not quiet, the states that G0 to G7 go back to at the exit (1 + code), and the ns spent in the present
ms of each state's count. -/
structure PowState where
  target : Option Nat
  exiting : Bool
  quietSince : Nat
  cores : Tab Nat
  ns : Tab Nat
deriving DecidableEq, Repr, Inhabited

/-! ### Chapters 21 and 22: start-up, time and management -/

/-- How a follower's GTC is brought to the leader's (R454): the ticks left to make up, whether it is ahead, whether it counts at
half rate, and the clocks since the correction began. -/
structure GtcSync where
  ticks : Nat
  ahead : Bool
  half : Bool
  clocks : Nat
deriving DecidableEq, Repr, Inhabited

/-- Start-up and reset (chapter 21): whether supplies are valid, whether the main die is held in reset, the GTC at which the
start began, that of an orderly drain and the step it has reached, the channels that stay Failed, whether the start replays an
image, the class I registers written before the replay (R477), and the writer of R445: the next extent in
ascending order, and how many there are. -/
structure BootState where
  supplies : Bool := false
  hold : Bool := true
  startAt : Nat := 0
  drain : Option Nat := none
  drainPhase : Nat := 0
  failed : List Nat := []
  resetDue : Bool := false     -- an immediate reset that waits for a LASTGASP flush
  image : Bool := false
  initNext : Nat := 0
  initTotal : Nat := 0
  initAhead : List Nat := []   -- extents that an update waits for, the last that was asked for first
  initDone : List Nat := []    -- extents done out of order
  early : List Nat := []
  sync : GtcSync := default
deriving DecidableEq, Repr, Inhabited

/-- The management targets and SPDM (chapter 22): alert causes released so far, the I3C target's dynamic address, the TAP's
instruction, the heads whose SPDM key exchange is open, those with a secured session, and the certificate chains of slots 1 to 7. -/
structure MgmtState where
  acked : BitVec 3
  i3c : Option Nat
  tap : TapInstr
  opening : List Nat
  secured : List Nat
  certs : Tab (List Byte)
deriving DecidableEq, Repr, Inhabited

/-- The return codes of a CXL mailbox command that R299, R307 to R309 name. -/
inductive RetCode where
  | success | background | invalidInput | unsupported | busy | invalidExtentList
deriving DecidableEq, Repr, Inhabited

/-- The Dynamic Capacity region a head reports: its base, length, block size and the static capacity beside it (R51). -/
structure DcRegion where
  base : Nat
  length : Nat
  block : Nat
  static_ : Nat
deriving DecidableEq, Repr, Inhabited

/-- An extent of a head (R51): start, length and tag, whose byte i is bits 8i+7:8i. -/
structure DcExtent where
  start : Nat
  length : Nat
  tag : BitVec 128
deriving DecidableEq, Repr, Inhabited

/-- What a lane reports of its margining (R256): steps each way, the largest timing offset in 1/64 UI, a voltage step in 1/128 of the
reference level, whether its sides are independent and whether it has an error sampler of its own. -/
structure MarginReport where
  timingSteps : Nat
  maxTiming : Nat
  voltageSteps : Nat
  voltageUnit : Nat
  leftRight : Bool
  upDown : Bool
  errorSampler : Bool
deriving DecidableEq, Repr

/-- What the block sends: responses and back-invalidations to hosts, Dynamic Capacity events, mailbox results, interrupts. -/
inductive Output where
  | hostData (port tag : Nat) (data : Line) (poison : Bool) (state : MetaValue)
  | hostCmp (port tag : Nat)
  | bisnp (port line kind : Nat)
  | biAck (port line : Nat)
  | dcEvent (port dom : Nat) (add : Bool)
  | mailbox (port opcode : Nat) (rc : RetCode) (status : Nat) (out : List Byte)
  | msix (port vec : Nat)
  | ltr (port : Nat)
  | dcExtents (port : Nat) (region : DcRegion) (extents : List DcExtent)
  | poisonList (port : Nat) (entries : List (Nat × Nat)) (full : Option Nat)
  | flit (group width : Nat) (bits : BitVec 2048)
  | marker (group lane : Nat) (block : BitVec 256)
  | train (group lane : Nat) (block : BitVec 256)
  | margin (group lane : Nat) (report : MarginReport)
  | readData (p : Path) (off : Nat) (v : BitVec 32)
  | page (port dom : Nat) (at_ : Nat) (bytes : List Byte)
  | sideband (status : Nat) (out : List Byte)
  | spdm (port : Nat) (ok : Bool) (out : List Byte)
  | pulse (mfp : Nat)
deriving DecidableEq, Repr, Inhabited

structure State where
  gtc : Nat := 0
  regs : Tab (BitVec 32) := Tab.empty
  freeCtr : Nat := 0
  out : List Output := []
  dom : DomState := default
  kind : KindState := default
  coh : CohState := default
  mesh : MeshState := default
  tier : TierState := default
  eng : EngState := default
  dram : DramState := default
  claim : ClaimState := default
  flt : FaultState := default
  ctr : CtrState := default
  rgl : RglState := default
  host : HostState := default
  lane : LaneState := default
  link : LinkState := default
  core : CoreState := default
  ring : RingState := default
  peat : PeatState := default
  feed : FeedState := {}
  pow : PowState := default
  boot : BootState := {}
  mgmt : MgmtState := default
  pending : List Instr := []
deriving DecidableEq, Repr, Inhabited

/-- What a command answers. -/
abbrev Answer := Host.Outcome State Fault Refusal

/-- The claims that Cold reset restores (Table 01-7). -/
def ClaimState.cold : ClaimState :=
  { aot := ⟨[(0, 0x01), (1, 0x02), (2, 0x03), (3, 0x10), (4, 0x11), (5, 0x12)]⟩
    mfp := ⟨[(0, 0x20), (1, 0x21), (2, 0x22), (3, 0x23), (4, 0x24), (5, 0x26), (6, 0x2F), (7, 0x2F)]⟩
    merge := ⟨(List.range 16).map fun n => (n * 256 + 0x32, 2)⟩
    retry := ⟨((List.range 32).map fun k => [(k * 256 + 0x40, 40), (k * 256 + 0x41, 8), (k * 256 + 0x43, 8)]).flatten⟩ }

/-- The cores with the ROM programs of Table 15-1 on them, nothing bound and nothing run. -/
def CoreState.rom : CoreState :=
  { (default : CoreState) with
    cores := ⟨[(0, { (default : GCore) with prog := 1 }), (1, { (default : GCore) with prog := 2 }),
      (2, { (default : GCore) with prog := 3 }), (8, { (default : GCore) with prog := 4 })]⟩ }

/-- The block as it is first powered: every register at its Reset value, the claims of Table 01-7, the ROM programs on their
cores, the TAP at IDCODE as IEEE 1149.1 resets it, supplies not yet valid, and the main die held in reset until COLD_START. -/
def State.reset : State :=
  { claim := ClaimState.cold, core := CoreState.rom, mgmt := { (default : MgmtState) with tap := .idcode } }

end Sys2Proof.Machine
end

