-- ==== Sys2Proof/Machine/Ops.lean ====
section
/-!
DEFINITION. The named operations every command's meaning is written with: registers and fields, outputs, free values, error
records (R381 to R383), events to programs (R343), counters (R362 to R366), claims (R33 to R36), and the search of the
domain table (R39, R47).
-/
namespace Sys2Proof.Machine

/-! ### Registers -/

/-- The offset of a path's own copy of a register (R474): the BAR's copy stands at the register's offset. -/
def pathOff (p : Path) (off : Nat) : Nat :=
  match p with
  | .bar => off
  | .sideband => 2 ^ 28 + off
  | .rom => 2 ^ 29 + off

/-- A register's value: what was last put there, its Reset value before. -/
def State.reg (s : State) (off : Nat) : BitVec 32 :=
  match s.regs.cells.find? (fun c => c.1 == off) with
  | some c => c.2
  | none => regReset (off % 2 ^ 28)

/-- The state with a register holding a value. -/
def State.setReg (s : State) (off : Nat) (v : BitVec 32) : State :=
  { s with regs := s.regs.putD (regReset (off % 2 ^ 28)) off v }

/-- A field's value. -/
def State.rd (s : State) (f : Fld) : Nat := fld (s.reg f.off) f.hi f.lo
/-- A one-bit field as a truth value. -/
def State.flag (s : State) (f : Fld) : Bool := s.rd f != 0
/-- The state with a field holding a value; the register's other fields keep theirs. -/
def State.wr (s : State) (f : Fld) (v : Nat) : State := s.setReg f.off (setFld (s.reg f.off) f.hi f.lo v)
/-- The state with a one-bit field set. -/
def State.set1 (s : State) (f : Fld) : State := s.wr f 1
/-- The state with a field cleared. -/
def State.clr (s : State) (f : Fld) : State := s.wr f 0
/-- The state with a field raised by `n`, saturating at the field's greatest value. -/
def State.satAdd (s : State) (f : Fld) (n : Nat) : State := s.wr f (min (s.rd f + n) (2 ^ (f.hi - f.lo + 1) - 1))
/-- A field of one path's copy. -/
def Fld.on (f : Fld) (p : Path) : Fld := ⟨pathOff p f.off, f.hi, f.lo⟩
/-- A field of the committed copy of a staged register (R224, R238). -/
def Fld.com (f : Fld) : Fld := ⟨3 * 2 ^ 28 + f.off, f.hi, f.lo⟩
/-- A field narrowed to a bit number within it. -/
def Fld.bitAt (f : Fld) (i : Nat) : Fld := ⟨f.off, f.lo + i, f.lo + i⟩

/-- Whether a value holds no reserved or out-of-range value of a field that takes what is written to it (R494). -/
def legalWrite (off : Nat) (v : BitVec 32) : Bool :=
  match regRow (off % 2 ^ 28) with
  | some r => r.fields.all fun f => f.legal.isEmpty || f.acc == .ro || f.acc == .w1c ||
      f.legal.any fun g => decide (g.1 ≤ fld v f.hi f.lo) && decide (fld v f.hi f.lo ≤ g.2)
  | none => true

/-- A register as a write leaves it (R14, R15): fields that can be written take their bits, W1C bits written 1 clear, the others
keep their values. -/
def mergeWrite (old v : BitVec 32) (fields : List FieldRow) : BitVec 32 :=
  fields.foldl (fun w f =>
    match f.acc with
    | .rw | .rws | .rwl => setFld w f.hi f.lo (fld v f.hi f.lo)
    | .w1c => setFld w f.hi f.lo (fld (old &&& ~~~v) f.hi f.lo)
    | .ro | .wo => w) old

/-- The state after a write's plain effect on a register. -/
def State.putReg (s : State) (off : Nat) (v : BitVec 32) : State :=
  match regRow (off % 2 ^ 28) with
  | some r => s.setReg off (mergeWrite (s.reg off) v r.fields)
  | none => s

/-! ### Outputs and free values -/

/-- The state with one more output sent; newest first. -/
def State.send (s : State) (o : Output) : State := { s with out := o :: s.out }

/-- The next free value's number, and the state in which it has been taken. -/
def State.fresh (s : State) : Nat × State := (s.freeCtr, { s with freeCtr := s.freeCtr + 1 })

/-! ### Events and records -/

/-- A program's pending entries with an event added (R343): one already pending takes the new argument in its place. -/
def pendPut (l : List (Nat × Nat × Nat)) (prog code arg : Nat) : List (Nat × Nat × Nat) :=
  if l.any fun x => x.1 == prog && x.2.1 == code then
    l.map fun x => if x.1 == prog && x.2.1 == code then (prog, code, arg) else x
  else l ++ [(prog, code, arg)]

/-- A core. -/
def State.gcore (s : State) (k : Nat) : GCore := s.core.cores.get k
/-- The state with a core changed. -/
def State.updCore (s : State) (k : Nat) (f : GCore → GCore) : State :=
  { s with core := { s.core with cores := s.core.cores.upd k f } }
/-- The status field of a core: `GA_STAT` for core 8 (R339). -/
def coreState (k : Nat) : Fld := if k = 8 then R.GA_STAT_STATE else R.G_STAT_STATE k
/-- The core that holds a program: GA for DOZE and LASTGASP (R341). -/
def State.coreOf (s : State) (prog : Nat) : Option Nat :=
  if prog == 4 || prog == 5 then some 8 else (List.range 8).find? fun k => prog != 0 && (s.gcore k).prog == prog

/-- Whether a program takes events: a host program that is faulted has them discarded (R346). -/
def State.hears (s : State) (prog : Nat) : Bool :=
  match s.coreOf prog with
  | some k => !((s.gcore k).host && s.rd (coreState k) == 4)
  | none => false

/-- Whether an occurrence reaches a program: SAMPLE reaches a host program for the slots of its capability only (Table
15-2, Table 14-12). -/
def State.reaches (s : State) (prog code arg : Nat) : Bool :=
  match s.coreOf prog with
  | some k => code != 0x09 || !(s.gcore k).host || (((s.gcore k).cap.getD (24 + arg / 8) 0).toNat).testBit (arg % 8)
  | none => false

/-- An event raised: it becomes pending in every program bound to it (R343). -/
def State.event (s : State) (code arg : Nat) : State :=
  { s with core := { s.core with
      pend := s.core.binds.foldl (fun l b =>
        if b.code == code && s.hears b.prog && s.reaches b.prog code arg then pendPut l b.prog code arg else l) s.core.pend } }

/-- An event raised in one program that is bound to it. -/
def State.eventFor (s : State) (prog code arg : Nat) : State :=
  if (s.core.binds.any fun b => b.prog == prog && b.code == code) && s.hears prog then
    { s with core := { s.core with pend := pendPut s.core.pend prog code arg } }
  else s

/-- The event code of FAULT_RECORD (Table 15-2). -/
def evFaultRecord : Nat := 0x10

/-- Whether an occurrence folds into a record (R383). -/
def foldsInto (s : State) (r new : Record) : Bool :=
  r.type == new.type && r.ukind == new.ukind && r.unit == new.unit && r.loc == new.loc && r.cls == new.cls &&
    decide (s.gtc ≤ r.gtcN + 1000000) && decide (new.sev < 3)

/-- The newest record of a unit takes the fold; the others stay. -/
def foldFirst (s : State) (new : Record) : List Record → Option (List Record)
  | [] => none
  | r :: t =>
    if r.ukind == new.ukind && r.unit == new.unit then
      if foldsInto s r new then some ({ r with count := min (r.count + 1) 255, gtcN := s.gtc, unread := true } :: t)
      else none
    else (foldFirst s new t).map (r :: ·)

/-- The region of a unit (R23, R378). -/
def unitRegion (ukind unit : Nat) : Option Nat :=
  match ukind with
  | 1 | 2 | 3 | 4 => some (unit / 4 % 4)
  | 5 => if unit < 8 then some (unit / 2) else none
  | 6 => some (unit % 4)
  | _ => none

/-- A fault counted where it was contained, or noted as passed to the chip (Table 17-10). -/
def State.noteFault (s : State) (r : Record) : State :=
  match unitRegion r.ukind r.unit with
  | some rg =>
    if r.sev == 0 then s
    else if r.level ≤ 1 then s.satAdd (R.RF_STAT_CONTAINED rg) 1
    else if r.level == 3 then s.set1 (R.RF_STAT_ESCEVT rg)
    else s
  | none => s

/-- A record with the next index (R383). One of severity 2 or higher is copied to the always-on store, sets NEWREC and raises
FAULT_RECORD; once the device is lost, the copy is all there is (R391). -/
def State.addRecord (s : State) (r : Record) : State :=
  let idx := s.rd R.CF_NEXT_NEXT
  let r := { r with index := idx, count := 1, gtc1 := s.gtc, gtcN := s.gtc, unread := true }
  let s : State := if s.flag R.CF_STAT_DEVLOST then s
    else { s with flt := { s.flt with ring := (r :: s.flt.ring).take 4096 } }
  let s := s.wr R.CF_NEXT_NEXT ((idx + 1) % 2 ^ 32)
  if r.sev ≥ 2 then
    let s : State := { s with flt := { s.flt with store := (r :: s.flt.store).take 64 } }
    (s.set1 R.CF_STAT_NEWREC).event evFaultRecord idx
  else s

/-- A fault or event recorded: folded into the newest record of its unit, or a record of its own (R381, R383). -/
def State.log (s : State) (r : Record) : State :=
  let s := s.noteFault r
  match if s.flag R.CF_STAT_DEVLOST then none else foldFirst s r s.flt.ring with
  | some ring => { s with flt := { s.flt with ring := ring } }
  | none => s.addRecord r

/-- A refused or notable register access: BAD_VALUE with the offset in LOC (R472, R494). -/
def State.badValue (s : State) (off : Nat) : State := s.log { type := 0x0409, level := 3, ukind := 7, loc := off }

/-- A write of a locked register field or path discarded, with its offset (R16, R467). -/
def State.lockViolation (s : State) (off : Nat) : State := s.log { type := 0x0408, level := 3, ukind := 7, loc := off }

/-- Whether `BARWR` or `SBWR` discards every write of a path (R467). -/
def State.pathShut (s : State) (p : Path) : Bool :=
  match p with
  | .bar => s.flag R.MG_LOCK_BARWR
  | .sideband => s.flag R.MG_LOCK_SBWR
  | .rom => false

/-- A lifetime counter of the Peat log raised (Table 18-7). -/
def State.life (s : State) (k : Nat) : State := s.satAdd (R.PL_LIFE_COUNT k) 1

/-! ### Access paths -/

/-- A wake source taken (R432, R434): an entry in progress is abandoned; a state other than Blaze is left, its first source
recorded. A wake while an exit is in progress changes nothing. -/
def State.wake (s : State) (src : Nat) : State :=
  let s' := { s with pow := { s.pow with target := none } }
  if s.pow.exiting then s
  else if s.rd R.PS_STAT_STATE == 0 then (if s.pow.target.isSome then s'.clr R.PS_STAT_BUSY else s)
  else
    let s' := { s' with pow := { s'.pow with exiting := true } }
    ((s'.set1 R.PS_STAT_BUSY).set1 R.PS_STAT_WAKEEVT).wr R.PS_STAT_WAKESRC src

/-- What the always-on island answers without waking the device (R460): the status and record registers of the fault block,
and `FD_LINK`. -/
def servedAsleep (off : Nat) : Bool :=
  off == R.CF_STAT || off == R.CF_RECIDX || (decide (R.CF_REC 0 ≤ off) && decide (off ≤ R.CF_REC 15)) || off == R.FD_LINK

/-- An access of a path to a register wakes a sleeping device (R434, Table 20-5), but for what the island answers. -/
def State.wakeFor (s : State) (p : Path) (off : Nat) : State :=
  if p == .rom || servedAsleep off then s else s.wake 4

/-- A write of a class I register before `READY` noted: the replay of the image will not take its place (R477). -/
def State.noteEarly (s : State) (p : Path) (off : Nat) : State :=
  if s.flag R.CHIP_BOOTSTAT_READY || !(regRow off).any (fun r => r.cls == .i) then s
  else { s with boot := { s.boot with early := (if off / 2 ^ 20 == 2 then pathOff p off else off) :: s.boot.early } }

/-- What a write of a register at `off` does through a path: nothing while the main die is held in reset, and nothing but a
record while the path is shut. -/
def State.viaPath (s : State) (p : Path) (off : Nat) (f : State → State) : State :=
  if s.boot.hold then s
  else if s.pathShut p then s.lockViolation off
  else f ((s.wakeFor p off).noteEarly p off)

/-- What a read of a register at `off` does through a path; it wakes a sleeping device first. Nothing answers while the main die
is held in reset. -/
def State.reading (s : State) (p : Path) (off : Nat) (f : State → BitVec 32 × State) : State :=
  if s.boot.hold then s
  else
    let (v, s) := f (s.wakeFor p off)
    s.send (.readData p off v)

/-- The RWL fields of a register that are locked now (R16, R467). -/
def State.lockedFields (s : State) (off : Nat) : List FieldRow :=
  match regRow off with
  | some r =>
    if r.lock.any fun i => bit (s.reg R.MG_LOCK) i then r.fields.filter fun f => f.acc == .rwl else []
  | none => []

/-- A write of a register that acts: locked fields keep their values (R16), and a reserved or out-of-range value discards it
whole (R494). `f` does what the value that is left asks for. -/
def State.writing (s : State) (p : Path) (off : Nat) (v : BitVec 32) (f : BitVec 32 → State → State) : State :=
  s.viaPath p off fun s =>
    let old := s.reg off
    let v' := (s.lockedFields off).foldl (fun v f => setFld v f.hi f.lo (fld old f.hi f.lo)) v
    let s := if v' == v then s else s.lockViolation off
    if legalWrite off v' then f v' s else s.badValue off

/-! ### Heads -/

/-- Where a logical port stands (R297). -/
def State.place (s : State) (p : Nat) : PortPlace := s.host.place.get p
/-- A head. -/
def State.head (s : State) (p : Nat) : Head := s.host.heads.get p
/-- The state with a head changed. -/
def State.updHead (s : State) (p : Nat) (f : Head → Head) : State :=
  { s with host := { s.host with heads := s.host.heads.upd p f } }

/-- The entries of a log with one more: 64 are kept of each log, newest first (Table 13-1). -/
def addLog (logs : List LogEntry) (e : LogEntry) : List LogEntry :=
  let mine := e :: (logs.filter fun x => x.log == e.log)
  mine.take 64 ++ logs.filter fun x => x.log != e.log

/-- An entry added to a head's event log. -/
def State.headLog (s : State) (p log event dom dpa : Nat) : State :=
  s.updHead p fun h => { h with
    logs := addLog h.logs { log := log, event := event, dom := dom, dpa := dpa, gtc := s.gtc } }

/-- A log entry for every head (R311). -/
def State.headLogAll (s : State) (log event dom dpa : Nat) : State :=
  ((List.range 32).filter fun p => (s.place p).on).foldl (fun s p => s.headLog p log event dom dpa) s

/-! ### Counters -/

/-- The event a fixed counter 64 + i counts (Table 16-2). -/
def fixedEvents : List Nat :=
  [0x42, 0x05, 0x30, 0x31, 0x13, 0x14, 0x1A, 0x15, 0x20, 0x23, 0x24, 0x39, 0x17, 0x40, 0x41, 0x3A]

/-- The registers of a counter: bank 4 is the chip's (R361). -/
def ctlOff (bank k : Nat) : Nat := if bank = 4 then R.CHIP_C_CTL k else R.RC_C_CTL bank k
def filtOff (bank k : Nat) : Nat := if bank = 4 then R.CHIP_C_FILT k else R.RC_C_FILT bank k
/-- The overflow bit of a counter. -/
def ovfFld (bank k : Nat) : Fld :=
  if bank = 4 then (R.CHIP_COVF0_OVF).bitAt k else (R.RC_OVF_OVF bank (k / 32)).bitAt (k % 32)

/-- A counter raised by `n`, wrapping or saturating, its overflow bit set when the increment carries past 2^48 - 1 (R366).
A stopped bank counts nothing (R368). -/
def State.bump (s : State) (bank k n : Nat) (sat : Bool) : State :=
  if s.ctr.frozen.get bank || n == 0 then s
  else
    let v := (s.ctr.count.get (bank * 128 + k)).toNat + n
    let beyond := decide (v ≥ 2 ^ 48)
    let v' := if beyond && sat then 2 ^ 48 - 1 else v
    let s := { s with ctr := { s.ctr with count := s.ctr.count.put (bank * 128 + k) (BitVec.ofNat 48 v') } }
    if beyond then s.set1 (ovfFld bank k) else s

/-- Whether a counter's filters let an event of a domain and class count (R362). -/
def ctrPasses (filt : BitVec 32) (dom cls : Option Nat) : Bool :=
  (!bit filt 31 || dom == some (fld filt 27 14)) && (!bit filt 30 || cls == some (fld filt 5 0))

/-- Whether a programmable counter set up by `ctl` and `filt` counts `mode` of an event at a unit. An event of the region or of
the chip has one instance, whatever `UNIT` says. -/
def ctrSelects (ctl filt : BitVec 32) (bank mode code unit : Nat) (dom cls : Option Nat) : Bool :=
  bit ctl 31 && fld ctl 28 27 == mode && fld ctl 23 16 == code &&
    (bank == 4 || decide (0x40 ≤ code) || fld ctl 26 24 == unit || fld ctl 26 24 == 4) && ctrPasses filt dom cls

/-- The programmable counters of a bank whose control register has been written, in ascending order: the others are off. -/
def State.enabledCtrs (s : State) (bank : Nat) : List Nat :=
  (List.range (if bank = 4 then 32 else 64)).filter fun i => s.regs.cells.any fun c => c.1 == ctlOff bank i

/-- `n` events of a kind at an instance `unit` of a bank, attributed to a domain and class or to none (R362 to R364). -/
def State.count (s : State) (bank unit code n : Nat) (dom cls : Option Nat) : State :=
  let s := (s.enabledCtrs bank).foldl (fun s i =>
    if ctrSelects (s.reg (ctlOff bank i)) (s.reg (filtOff bank i)) bank 0 code unit dom cls then
      s.bump bank i n (bit (s.reg (ctlOff bank i)) 29) else s) s
  if bank = 4 then s
  else (List.range 16).foldl (fun s i => if fixedEvents.getD i 0 == code then s.bump bank (64 + i) n false else s) s

/-- Events of a block numbered 0 to 15, in its region's bank. -/
def State.countBlk (s : State) (blk code n : Nat) (dom cls : Option Nat) : State :=
  s.count (blk / 4) (blk % 4) code n dom cls

/-! ### Claims -/

/-- A denied claim: CHIP_CLAIMSTAT and the CLAIM_DENIED record carry the codes (R34, R36). `shown` is the HOLDER field,
`named` the code in the record. -/
def State.denyClaim (s : State) (res claimant shown named : Nat) : State :=
  let s := (s.set1 R.CHIP_CLAIMSTAT_DENIED).satAdd R.CHIP_CLAIMSTAT_COUNT 1
  let s := ((s.wr R.CHIP_CLAIMSTAT_RESOURCE res).wr R.CHIP_CLAIMSTAT_CLAIMANT claimant).wr R.CHIP_CLAIMSTAT_HOLDER shown
  let codes := BitVec.ofNat 128 (res + claimant * 256 + named * 65536)
  let s := s.log { type := 0x040B, level := 3, ukind := 7, detail := codes }
  s.count 4 0 0x84 1 none none

/-- Claimants of a merge buffer in priority order (Table 01-7). -/
def mergeOrder : List Nat := [0x30, 0x31, 0x32]
/-- Claimants of a retry buffer in priority order. -/
def retryOrder : List Nat := [0x40, 0x41, 0x42, 0x43]

/-- The feature of lowest priority other than the claimant that holds entries of a buffer; 0 when none (R36). -/
def bufHolder (t : Tab Nat) (base : Nat) (order : List Nat) (claimant : Nat) : Nat :=
  ((order.filter fun f => f != claimant && t.get (base + f) != 0).getLast?).getD 0

/-- Entries of a buffer that are reserved. -/
def bufHeld (t : Tab Nat) (base : Nat) (order : List Nat) : Nat := order.foldl (fun n f => n + t.get (base + f)) 0

/-! ### Paced credits -/

/-- A paced credit given back to its source (R226): a peer's goes in the next data flit to it (R284). -/
def State.giveCredit (s : State) (src w : Nat) : State :=
  let s := { s with rgl := { s.rgl with taken := s.rgl.taken.upd (src * 2 + w) (· - 1) } }
  if src < 32 then s else { s with link := { s.link with pret := s.link.pret.upd ((src - 32) * 2 + w) (· + 1) } }

/-- A paced credit whose return falls due: withheld until the boundary once the source's count has reached its budget
(R227). `w` is 0 for a read credit and 1 for a write credit. -/
def State.returnCredit (s : State) (src w : Nat) : State :=
  if s.rgl.paced.get src ≥ s.rd (R.RGL_PACE_PBUDGET src).com then
    { s with rgl := { s.rgl with owed := s.rgl.owed.upd (src * 2 + w) (· + 1) } }
  else s.giveCredit src w

/-! ### The domain table -/

/-- The committed entry of a domain (R40). -/
def State.entry (s : State) (d : Nat) : Entry := s.dom.entries.getD entryReset d

/-- The state with a committed entry. -/
def State.setEntry (s : State) (d : Nat) (e : Entry) : State :=
  { s with dom := { s.dom with entries := s.dom.entries.putD entryReset d e } }

/-- The range index's search: the valid domain whose range holds a DPA (R39, R47). -/
def State.domOf (s : State) (dpa : Nat) : Option (Nat × Entry) :=
  s.dom.entries.cells.find? fun c => Entry.covers c.2 dpa

/-- The valid domains with their entries. -/
def State.domains (s : State) : List (Nat × Entry) := s.dom.entries.cells.filter fun c => Entry.valid c.2

/-- This device's number: the strap copy (R490 gives the strap). -/
def State.devNum (s : State) : Nat := s.rd R.CHIP_STRAP_DEVNUM

/-- Whether this device is the home of a DPA of a domain (R43). -/
def State.homedHere (s : State) (e : Entry) (dpa : Nat) : Bool := e.homeDev (e.offset dpa) == s.devNum

/-- Whether a domain is held here as the replication partner of its member 0 (R57). -/
def State.partnerHere (s : State) (e : Entry) : Bool := e.repl && e.replDev == s.devNum && e.member 0 != s.devNum

end Sys2Proof.Machine
end

