-- ==== Sys2Proof/Machine/Claims.lean ====
section
/-!
DEFINITION. Claims on the shared resources of Table 01-7: one configuration step with its releases and claims (R33), what is
denied and recorded (R34, R36), and the claims that a regulator commit, a soft repair and the replay of an image make.
-/
namespace Sys2Proof.Machine

/-- A resource of Table 01-7. `timer none` is any of AOT3 to AOT7. -/
inductive ClaimOn where
  | pin (n : Nat)
  | timer (n : Option Nat)
  | merge (chan : Nat)
  | retry (chan sub : Nat)
deriving DecidableEq, Repr, Inhabited

/-- A claim of a feature on a resource; of a buffer, `n` is what the feature is to hold in all. -/
structure Claim where
  on : ClaimOn
  feature : Nat
  n : Nat := 1
deriving DecidableEq, Repr, Inhabited

/-- The resource code of R36. For any timer it is that of AOT7: the spec names no timer for a claim that finds all five
held (DESIGN CHOICE, log entry 101). -/
def ClaimOn.code : ClaimOn → Nat
  | .pin n => n
  | .timer t => 0x10 + t.getD 7
  | .merge c => 0x20 + c
  | .retry c sub => 0x40 + 2 * c + sub

/-- The claimants of Table 01-7, highest priority first; a feature claims one kind of resource only, GPIO stands last. -/
def claimOrder : List Nat :=
  [0x01, 0x02, 0x03, 0x10, 0x11, 0x12, 0x13, 0x14, 0x20, 0x21, 0x22, 0x23, 0x24, 0x25, 0x26, 0x27, 0x2F, 0x30, 0x31, 0x32,
    0x40, 0x41, 0x42, 0x43]

/-- A buffer's holdings in a claim table, where they start, its claimants, and the entries that may be reserved: 16 of the
merge buffer's 32, so that the general pool keeps 16, and all 64 of a retry buffer. -/
def ClaimState.buffer (c : ClaimState) : ClaimOn → Option (Tab Nat × Nat × List Nat × Nat)
  | .merge n => some (c.merge, n * 256, mergeOrder, 16)
  | .retry n sub => some (c.retry, (n * 2 + sub) * 256, retryOrder, 64)
  | _ => none

/-- What a feature holds of a buffer made `n`. -/
def ClaimState.hold (c : ClaimState) (o : ClaimOn) (feature n : Nat) : ClaimState :=
  match o with
  | .merge ch => { c with merge := c.merge.put (ch * 256 + feature) n }
  | .retry ch sub => { c with retry := c.retry.put ((ch * 2 + sub) * 256 + feature) n }
  | .pin p => { c with mfp := c.mfp.put p feature }
  | .timer t => { c with aot := c.aot.put (t.getD 7) feature }

/-- The timer that a claim takes: one the feature holds, else the lowest-numbered free one. The spec does not say which free
timer is taken (DESIGN CHOICE, log entry 100). -/
def ClaimState.freeTimer (c : ClaimState) (feature : Nat) (t : Option Nat) : Option Nat :=
  let ts := match t with
    | some t => [t]
    | none => [3, 4, 5, 6, 7]
  (ts.find? fun t => c.aot.get t == feature).or (ts.find? fun t => c.aot.get t == 0)

/-- A claim on the holders as they stand: the holders with it granted, or none. -/
def ClaimState.grant (c : ClaimState) (x : Claim) : Option ClaimState :=
  match c.buffer x.on with
  | some (t, base, order, most) =>
    if bufHeld t base order - t.get (base + x.feature) + x.n ≤ most then some (c.hold x.on x.feature x.n) else none
  | none =>
    match x.on with
    | .pin p => if c.mfp.get p == 0 || c.mfp.get p == x.feature then some (c.hold x.on x.feature 1) else none
    | .timer t => (c.freeTimer x.feature t).map fun t => c.hold (.timer (some t)) x.feature 1
    | _ => none

/-- Who stands in a claim's way: the `HOLDER` field and the code that the record names (R36). `before` are the holders after the
step's releases and `won` the claims it has granted: one that would have fitted but for them lost to the last of these. -/
def ClaimState.standsIn (c before : ClaimState) (won : List Claim) (x : Claim) : Nat × Nat :=
  let h := match c.buffer x.on with
    | some (t, base, order, _) => bufHolder t base order x.feature
    | none => match x.on with
      | .pin p => c.mfp.get p
      | o => c.aot.get (o.code - 0x10)
  if (before.grant x).isSome then
    (0, (((won.filter fun w => w.on.code == x.on.code).head?).map (·.feature)).getD h)
  else (h, h)

/-- The claims of a step taken from the highest priority downward, each granted, or denied and recorded. Answers the denied
ones. -/
def State.takeClaims (before : ClaimState) : List Claim → List Claim → State → List Claim × State
  | [], _, s => ([], s)
  | x :: t, won, s =>
    match s.claim.grant x with
    | some c => State.takeClaims before t (x :: won) { s with claim := c }
    | none =>
      let h := s.claim.standsIn before won x
      let r := State.takeClaims before t won (s.denyClaim x.on.code x.feature h.1 h.2)
      (x :: r.1, r.2)

/-- The place of a claim's feature in the order of priority. -/
def Claim.rank (x : Claim) : Nat := claimOrder.idxOf x.feature

/-- A claim put before the first of a list that has no higher priority. -/
def Claim.into (x : Claim) : List Claim → List Claim
  | [] => [x]
  | y :: t => if x.rank ≤ y.rank then x :: y :: t else y :: x.into t

/-- A feature's holding of a resource given up: a pin is free for this step's claims, a timer is free. -/
def ClaimState.release (c : ClaimState) (x : Claim) : ClaimState :=
  match x.on with
  | .pin p => if c.mfp.get p == x.feature then { c with mfp := c.mfp.put p 0 } else c
  | .timer none => { c with aot := [3, 4, 5, 6, 7].foldl (fun t i => if t.get i == x.feature then t.put i 0 else t) c.aot }
  | .timer (some t) => if 3 ≤ t ∧ c.aot.get t = x.feature then { c with aot := c.aot.put t 0 } else c
  | o => c.hold o x.feature 0

/-- The pins that no function holds at the end of a step pass to GPIO (0x2F). -/
def ClaimState.toGpio (c : ClaimState) : ClaimState :=
  { c with mfp := (List.range 8).foldl (fun t p => if t.get p == 0 then t.put p 0x2F else t) c.mfp }

/-- One configuration step (R33): every release, then the claims by priority; what nobody takes of a released pin is GPIO's.
Answers the denied claims. -/
def State.claimStep (s : State) (releases claims : List Claim) : List Claim × State :=
  let c := releases.foldl ClaimState.release s.claim
  let order := claims.foldr Claim.into []
  let r := State.takeClaims c order [] { s with claim := c }
  (r.1, { r.2 with claim := r.2.claim.toGpio })

/-- A step of one claim: whether it was granted. -/
def State.claimOne (s : State) (x : Claim) : Bool × State :=
  let r := s.claimStep [] [x]
  (r.1.isEmpty, r.2)

/-- The claims that holders stand for: every pin and timer but the fixed ones, and every reservation of a buffer but the
fixed ones. -/
def ClaimState.asClaims (c : ClaimState) : List Claim :=
  (c.mfp.cells.map fun x => ({ on := .pin x.1, feature := x.2 } : Claim)) ++
  ((c.aot.cells.filter fun x => decide (3 ≤ x.1)).map fun x => ({ on := .timer (some x.1), feature := x.2 } : Claim)) ++
  (c.merge.cells.map fun x => ({ on := .merge (x.1 / 256), feature := x.1 % 256, n := x.2 } : Claim)) ++
  ((c.retry.cells.filter fun x => x.1 % 256 != 0x40).map fun x =>
    ({ on := .retry (x.1 / 512) (x.1 / 256 % 2), feature := x.1 % 256, n := x.2 } : Claim))

/-- The claims of a replayed image as one step: the present holders release, and the image's claims are granted by priority; a
conflict denies and records the losers (R35). -/
def State.claimImage (s : State) (c : ClaimState) : State := (s.claimStep s.claim.asClaims c.asClaims).2

/-- The claim of the repair command hold, 8 entries of a subchannel's retry buffer. The spec names no step that makes it: that
`OP` = 01 of `CHn_MAINT` does is the model's (DESIGN CHOICE, log entry 103). -/
def repairHold (n sub : Nat) : Claim := { on := .retry n sub, feature := 0x42, n := 8 }

end Sys2Proof.Machine
end

