-- ==== Sys2Proof/Machine/Dram.lean ====
section
/-!
DEFINITION. The channel controllers' storage: capacity and coordinates (R163, R164), redirection (R187), the queues of
R165 to R168, what a stored line decodes to (R193, R195, R198), and the writing of lines (R142, R194, R204).
-/
namespace Sys2Proof.Machine

/-! ### Geometry -/

/-- The state of a channel (Table 08-8). -/
def State.chanState (s : State) (n : Nat) : Nat := s.rd (R.CH_CFG_STATE n)
/-- Serving or Degraded. -/
def State.chanTakes (s : State) (n : Nat) : Bool := s.chanState n == 2 || s.chanState n == 3
/-- Serving, Degraded or Evacuating. -/
def State.chanServes (s : State) (n : Nat) : Bool := s.chanTakes n || s.chanState n == 4

/-- DRAM density in Gbit (Table 08-10). -/
def densGbit (code : Nat) : Nat := [16, 24, 32, 48, 64].getD code 0

/-- Logical ranks per subchannel. -/
def State.ranks (s : State) (n : Nat) : Nat := s.rd (R.CH_CFG_RANKS n) + 1

/-- Lines a channel's population holds: a rank of a subchannel has eight data devices when x4 and four when x8 (R161,
R163). -/
def State.chanLines (s : State) (n : Nat) : Nat :=
  if s.rd (R.CH_CFG_TYPE n) == 0 then 0
  else s.ranks n * densGbit (s.rd (R.CH_CFG_DENS n)) * (if s.flag (R.CH_CFG_WIDTH n) then 1 else 2) * 2 ^ 24

/-- 2 MiB extents of a channel, its metadata reserve's among them (R100, R104). -/
def State.chanExtents (s : State) (n : Nat) : Nat := s.chanLines n / 32768
/-- Extents of the metadata reserve: the top 1/64 (R100). -/
def State.reserveExtents (s : State) (n : Nat) : Nat := s.chanExtents n / 64
/-- Extents below the reserve. -/
def State.dataExtents (s : State) (n : Nat) : Nat := s.chanExtents n - s.reserveExtents n

/-- log2 of a power of two, by counting. -/
def log2Loop : Nat → Nat → Nat
  | 0, _ => 0
  | f + 1, x => if x ≤ 1 then 0 else log2Loop f (x / 2) + 1

/-- The DRAM coordinates of a channel-local line (Table 08-2): subchannel, rank, bank of 32, row. -/
structure Coord where
  sub : Nat
  rank : Nat
  bank : Nat
  row : Nat
deriving DecidableEq, Repr, Inhabited

def State.coord (s : State) (n l : Nat) : Coord :=
  let c := if s.flag (R.CH_CFG_WIDTH n) then 6 else 7
  let k := log2Loop 6 (s.ranks n)
  let row := l / 2 ^ (c + 6 + k)
  let bg := (l / 2 ^ (c + 1) % 8) ^^^ (row % 8)
  { sub := l % 2, rank := l / 2 ^ (c + 6) % 2 ^ k, bank := bg * 4 + l / 2 ^ (c + 4) % 4, row := row }

/-- The key of a bank. -/
def bankKey (n sub rank bank : Nat) : Nat := ((n * 2 + sub) * 16 + rank) * 32 + bank

/-- The channel and line that serve a channel-local line once the redirect table has been applied (R187). -/
def State.resolve (s : State) (n l : Nat) : Nat × Nat :=
  let r := (s.dram.chans.get n).redirect.get (l / 32768)
  if r == 0 then (n, l) else ((r - 1) / 2 ^ 19, (r - 1) % 2 ^ 19 * 32768 + l % 32768)

/-! ### Stored lines -/

/-- The key of a line. -/
def lineKey (n l : Nat) : Nat := n * 2 ^ 34 + l

/-- The state with a channel's structure changed. -/
def State.updChan (s : State) (n : Nat) (f : Chan → Chan) : State :=
  { s with dram := { s.dram with chans := s.dram.chans.upd n f } }

/-- The coordinates of the row that a soft repair works on. -/
def RowSave.coord (r : RowSave) : Coord := { sub := r.sub, rank := r.rank, bank := r.bank, row := r.row }

/-- The row save buffer, where a line lies in the row it holds (Table 08-7). -/
def State.saved (s : State) (n l : Nat) : Option RowSave :=
  match (s.dram.chans.get n).save with
  | some r => if s.coord n l == r.coord then some r else none
  | none => none

/-- The code word stored at a line, in DRAM or in the row save buffer; a line nothing has written holds the code word of zeros. -/
def State.word (s : State) (n l : Nat) : CodeWord :=
  match s.saved n l with
  | some r => r.lines.get l
  | none => s.dram.lines.get (lineKey n l)

/-- The state with a stored code word. -/
def State.setWord (s : State) (n l : Nat) (w : CodeWord) : State :=
  match s.saved n l with
  | some r => s.updChan n fun c => { c with save := some { r with lines := r.lines.put l w } }
  | none => { s with dram := { s.dram with lines := s.dram.lines.put (lineKey n l) w } }

/-- The state with a subchannel's structure changed. -/
def State.updSub (s : State) (n sub : Nat) (f : Sub → Sub) : State :=
  { s with dram := { s.dram with subs := s.dram.subs.upd (n * 2 + sub) f } }

/-- A subchannel. -/
def State.sub (s : State) (n sub : Nat) : Sub := s.dram.subs.get (n * 2 + sub)

/-- The marked nibbles of the rank a line lies in (R199). -/
def State.maskOf (s : State) (n l : Nat) : BitVec 10 :=
  let c := s.coord n l
  BitVec.ofNat 10 (s.rd (R.CH_MARK_MASK n (16 * c.sub + c.rank)))

/-- Marked nibbles of a mask. -/
def maskCount (m : BitVec 10) : Nat := (bitsOf 10 m).length

/-- What a line decodes to when read with an error pattern `err` on the way: R195, with the poison list of a rank whose
f is 16 (R198). A Failed channel's lines are uncorrectable (R179). -/
def State.decodeLine (s : State) (n l : Nat) (err : CodeWord) : Decoded :=
  let m := s.maskOf n l
  let r := s.word n l ^^^ err
  if s.chanState n == 6 then .uncorrectable (eccData r)
  else
    let d := lineDecode r m (s.rd (R.CH_ECCCTL_TLIM n))
    if maskCount m ≥ 2 && (s.dram.chans.get n).poisonList.contains l then .poison d.stored else d

/-- Whether a write of a line in poison form must wait: the rank keeps poison in the list and the list is full (R198). -/
def State.poisonWaits (s : State) (n l : Nat) : Bool :=
  decide (maskCount (s.maskOf n l) ≥ 2) && !(s.dram.chans.get n).poisonList.contains l &&
    decide ((s.dram.chans.get n).poisonList.length ≥ 1024)

/-- `ZMARGIN` and `PLFULL` brought up to the channel's marks and poison list (Table 09-6). -/
def State.eccSync (s : State) (n : Nat) : State :=
  let zero := (List.range 32).any fun i => maskCount (BitVec.ofNat 10 (s.rd (R.CH_MARK_MASK n i))) ≥ 2
  (s.wr (R.CH_ECCSTAT_ZMARGIN n) (b2n zero)).wr (R.CH_ECCSTAT_PLFULL n)
    (b2n (decide ((s.dram.chans.get n).poisonList.length ≥ 1024)))

/-- Stored bytes written to a line, in poison form or not (R194, R198). -/
def State.storeBytes (s : State) (n l : Nat) (b : Line) (poison : Bool) : State :=
  if maskCount (s.maskOf n l) ≥ 2 then
    let s := s.setWord n l (eccEncode b)
    let s := s.updChan n fun c =>
      { c with poisonList :=
          if poison then (if c.poisonList.contains l then c.poisonList else c.poisonList ++ [l])
          else c.poisonList.filter (· != l) }
    s.wr (R.CH_ECCSTAT_PLFULL n) (b2n (decide ((s.dram.chans.get n).poisonList.length ≥ 1024)))
  else s.setWord n l (if poison then eccPoison b else eccEncode b)

/-- The keys of a domain's slot (R144, R150). -/
def State.slot (s : State) (d : Nat) : KeySlot := s.eng.slots.get d

/-- The tag key of a domain's blocks: its slot's Kt, or DK3 where the domain is not encrypted (R144). -/
def State.tagKey (s : State) (d : Nat) (enc : Bool) : BitVec 256 :=
  if enc then (s.slot d).kt else (s.eng.dk.get 3).getD 0

/-- A plaintext line as it is stored (R142). -/
def State.sealLine (s : State) (d : Nat) (enc : Bool) (tweak : BitVec 128) (x : Line) : Line :=
  if enc then ofLe 512 (xtsEnc (s.slot d).k1 (s.slot d).k2 tweak (leBytes 64 x)) else x

/-- The plaintext of stored bytes. -/
def State.openLine (s : State) (d : Nat) (enc : Bool) (tweak : BitVec 128) (x : Line) : Line :=
  if enc then ofLe 512 (xtsDec (s.slot d).k1 (s.slot d).k2 tweak (leBytes 64 x)) else x

/-! ### Queues -/

/-- The place in the target of a line whose extent is being copied (step 3 of Table 08-9). -/
def State.copyPlace (s : State) (n l : Nat) : Option (Nat × Nat) :=
  match (s.dram.chans.get n).extCopy with
  | some x => if l / 32768 == x.ext then some (x.chan, x.target * 32768 + l % 32768) else none
  | none => none

/-- Stored bytes written to a line and, while its extent is being copied, to the line's place in the target too (step 3 of Table
08-9). -/
def State.placeBytes (s : State) (n l : Nat) (b : Line) (poison : Bool) : State :=
  let s := s.storeBytes n l b poison
  match s.copyPlace n l with
  | some t => s.storeBytes t.1 t.2 b poison
  | none => s

/-- A code word written raw to a line, and to its place in a copy of its extent. -/
def State.placeWord (s : State) (n l : Nat) (w : CodeWord) : State :=
  let s := s.setWord n l w
  match s.copyPlace n l with
  | some t => s.setWord t.1 t.2 w
  | none => s

/-- A write-queue entry performed: its data encrypted unless it holds stored bytes, encoded and stored. -/
def State.performWrite (s : State) (n : Nat) (e : WrEntry) : State :=
  let b := if e.raw then e.data else s.sealLine e.dom e.enc e.tweak e.data
  let s := s.placeBytes n e.line b e.poison
  if e.credit == 0 then s else s.returnCredit (e.credit - 1) 1

/-- Entries of the write queue that are not a paced domain's: 56 places, 8 being kept for paced writes (R165). -/
def wqOpen (q : List WrEntry) : Nat := (q.filter fun e => !e.paced).length

/-- Whether a channel's writes of an extent, or of one line, that no command has been issued for wait: rewrites among them. -/
def State.writesWait (s : State) (n : Nat) (p : Nat → Bool) : Bool :=
  ([0, 1].any fun b => (s.sub n b).wq.any fun w => !w.issued && p w.line) || (s.dram.chans.get n).scrub.any fun w => p w.line

/-- The reads of a subchannel that are not done: queued, issued, or to be read again. -/
def Sub.reads (b : Sub) : List RdEntry := b.prq ++ b.rq ++ b.inflight ++ b.rereads

/-- Whether an injection operation on a line is ordered before an access of it (R212). -/
def State.injectsBefore (s : State) (n l id : Nat) : Bool :=
  (s.dram.chans.get n).inj.any fun j => j.line == l && j.at_.any fun a => decide (a < id)

/-- Whether a write may go to DRAM: after every earlier read, write and injection of its line (R168, R212), and not while its poison
finds no place in the list (R198) or its encryption no pipeline (R149). -/
def State.writeFree (s : State) (n : Nat) (e : WrEntry) : Bool :=
  let b := s.sub n (e.line % 2)
  let noPipe := e.enc && !e.raw && (List.range 16).all fun k => s.flag (R.ENG_XCTL_XEDIS k)
  let copyWaits := e.poison && (s.copyPlace n e.line).any fun t => s.poisonWaits t.1 t.2
  !e.issued && !noPipe && !(e.poison && s.poisonWaits n e.line) && !copyWaits &&
    !(b.reads.any fun r => r.line == e.line && decide (r.seq < e.id)) && !s.injectsBefore n e.line e.id &&
    !(b.wq.any fun w => w.line == e.line && decide (w.id < e.id))

/-- Whether a write finds a place in the queue of its subchannel (R165). -/
def State.wqRoom (s : State) (n l : Nat) (paced : Bool) : Bool :=
  let q := (s.sub n (l % 2)).wq
  if paced then decide (q.length < 64) else decide (q.length < 64 && wqOpen q < 56)

/-- Whether the non-paced writes of a list of lines, by channel and line before redirection, all find places (R165). -/
def State.roomFor (s : State) (ls : List (Nat × Nat)) : Bool :=
  let ks := ls.map fun x => let (c, l) := s.resolve x.1 x.2; c * 2 + l % 2
  ks.eraseDups.all fun k =>
    let q := (s.dram.subs.get k).wq
    let n := (ks.filter (· == k)).length
    decide (q.length + n ≤ 64) && decide (wqOpen q + n ≤ 56)

/-- A write placed in the write queue of the channel and subchannel that serve its line (R165, R187). Whoever writes waits until
`wqRoom` or `roomFor` gives it a place. -/
def State.pushWrite (s : State) (n : Nat) (e : WrEntry) : State :=
  let (n, l) := s.resolve n e.line
  let e := { e with line := l, id := s.dram.nextId, issued := false }
  let s := { s with dram := { s.dram with nextId := s.dram.nextId + 1 } }
  s.updSub n (l % 2) fun b => { b with wq := b.wq ++ [e] }

/-- The newest queued write of a line (R168); a rewrite that waits is older than any other write that does (R207). -/
def State.queuedWrite (s : State) (n l : Nat) : Option WrEntry :=
  match ((s.sub n (l % 2)).wq.filter fun e => e.line == l).getLast? with
  | some e => some e
  | none => ((s.dram.chans.get n).scrub.filter fun e => e.line == l).getLast?

/-- Whether the merge buffer holds a narrow write of a line. -/
def State.merging (s : State) (n l : Nat) : Bool := (s.dram.chans.get n).merges.any fun m => m.line == l

/-- The stored bytes of a line as a read ordered now finds them, the write queue first (R168), with an error pattern on
the way from DRAM; and the decode they come from. -/
def State.storedNow (s : State) (n l : Nat) : Decoded :=
  match s.queuedWrite n l with
  | some e =>
    let b := if e.raw then e.data else s.sealLine e.dom e.enc e.tweak e.data
    if e.poison then .poison b else .clean b
  | none => s.decodeLine n l 0

/-- Whether a decode gives poison to its reader. -/
def Decoded.bad : Decoded → Bool
  | .poison _ | .poisonCorrected _ _ | .uncorrectable _ => true
  | _ => false

/-- Whether a channel is in the channel set of a valid paced domain (R169). -/
def State.servesPaced (s : State) (n : Nat) : Bool :=
  s.domains.any fun d => Entry.paced d.2 && decide ((n + 16 - Entry.chBase d.2) % 16 < Entry.chans d.2)

/-- Whether `more` reads find places among the 48 of a subchannel; a channel of a paced domain keeps 16 of them for paced reads
(R165, R229). -/
def State.rqRoom (s : State) (n sub more : Nat) (paced : Bool) : Bool :=
  let b := s.sub n sub
  if paced then decide (b.rq.length + b.prq.length + more ≤ 48)
  else decide (b.rq.length + more ≤ if s.servesPaced n then 32 else 48) && decide (b.rq.length + b.prq.length + more ≤ 48)

/-- Whether the reads of the `n` sectors from `first` of a channel find places. -/
def State.sectorRoom (s : State) (c first n : Nat) : Bool :=
  let (c, l) := s.resolve c first
  s.rqRoom c (l % 2) ((n + 1) / 2) false && s.rqRoom c ((l + 1) % 2) (n / 2) false

/-- A read placed in its queue: paced reads, or demand reads (R165, R166). -/
def State.pushRead (s : State) (n l : Nat) (use : RdFor) : State :=
  let e : RdEntry := { line := l, use := use, at_ := s.gtc, seq := s.dram.nextId }
  let s : State := { s with dram := { s.dram with nextId := s.dram.nextId + 1 } }
  s.updSub n (l % 2) fun b =>
    match use with
    | .paced _ => { b with prq := b.prq ++ [e] }
    | _ => { b with rq := b.rq ++ [e] }

/-- A merge-buffer entry taken for a narrow write; its stored line is read for it (R31, R204). -/
def State.pushMerge (s : State) (n : Nat) (m : MergeEntry) : State :=
  let (n, l) := s.resolve n m.line
  let id := s.dram.nextId
  let s := { s with dram := { s.dram with nextId := id + 1 } }
  let s := s.updChan n fun c => { c with merges := c.merges ++ [{ m with line := l, id := id }] }
  s.pushRead n l (.merge id)

/-- Merge-buffer entries open to narrow writes: the general pool, what no feature has claimed (Table 01-7). -/
def State.mergePool (s : State) (n : Nat) : Nat := 32 - bufHeld s.claim.merge (n * 256) mergeOrder

/-! ### Records of stored data -/

/-- The nibbles that hold a difference between two code words. -/
def badNibbles (a b : CodeWord) : BitVec 10 :=
  (List.range 10).foldl (fun m j =>
    if ((a ^^^ b) >>> (64 * j)).setWidth 64 != (0 : BitVec 64) then m ||| (1 <<< j) else m) 0

/-- DETAIL of a DRAM record (R382). -/
def dramDetail (c : Coord) (nib : BitVec 10) (errs code : Nat) : BitVec 128 :=
  BitVec.ofNat 128 (c.sub + c.rank * 2 ^ 8 + nib.toNat * 2 ^ 16 + c.row * 2 ^ 32 + errs * 2 ^ 64 + code * 2 ^ 72)

end Sys2Proof.Machine
end

