-- ==== Sys2Proof/Machine/Kindling.lean ====
section
/-!
DEFINITION. The Kindling slices (chapter 03): lookup, way partitioning (R62, R63), the replacement trees and victims (R64),
and the installing and removing of lines. What an evicted line becomes is given by the caller (R65).
-/
namespace Sys2Proof.Machine

/-- The set of a line in its slice (Table 03-1). -/
def kSet (dpa : Nat) : Nat := 16 * (dpa / 1024 % 768) + dpa / 64 % 16
/-- The key of a way of a set. -/
def kKey (slice set way : Nat) : Nat := (slice * 12288 + set) * 16 + way
/-- One way of one set. -/
def State.kLine (s : State) (slice set way : Nat) : KLine := s.kind.lines.get (kKey slice set way)
/-- The state with a way holding a line. -/
def State.setKLine (s : State) (slice set way : Nat) (l : KLine) : State :=
  { s with kind := { s.kind with lines := s.kind.lines.put (kKey slice set way) l } }

/-- The way that holds a line, in any way whatever the masks say (R62). -/
def State.kWay (s : State) (slice dpa : Nat) : Option Nat :=
  (List.range 16).find? fun w =>
    let l := s.kLine slice (kSet dpa) w
    l.st != .invalid && l.tag == dpa / 1024

/-- The tree with the path to a way marked as used: each node points to its other half as the older (R64). The fuel is the
tree's depth. -/
def plruTouchLoop : Nat → BitVec 16 → Nat → BitVec 16
  | 0, t, _ => t
  | f + 1, t, node =>
    let parent := node / 2
    plruTouchLoop f (setFld t parent parent (if node % 2 = 0 then 1 else 0)) parent
def plruTouch (t : BitVec 16) (w : Nat) : BitVec 16 := plruTouchLoop 4 t (16 + w)

/-- The ways under a node of the tree; `level` counts down to the leaves. -/
def plruUnder (level node w : Nat) : Bool := (16 + w) / 2 ^ level == node

/-- `plru_walk` of R64 over the ways of a mask. -/
def plruWalkLoop : Nat → BitVec 16 → (Nat → Bool) → Nat → Nat
  | 0, _, _, node => node - 16
  | f + 1, t, allowed, node =>
    let dir := b2n (bit t node)
    let has := fun d => (List.range 16).any fun w => allowed w && plruUnder f (2 * node + d) w
    let dir := if has dir then dir else 1 - dir
    plruWalkLoop f t allowed (2 * node + dir)
def plruWalk (t : BitVec 16) (allowed : Nat → Bool) : Nat := plruWalkLoop 4 t allowed 1

/-- Both trees updated for an access of a line in a way (R64). -/
def State.kTouch (s : State) (slice dpa w : Nat) : State :=
  let ks := slice * 12288 + kSet dpa
  let kg := slice * 768 + dpa / 1024 % 768
  { s with kind := { s.kind with
      setTree := s.kind.setTree.upd ks (plruTouch · w)
      grpTree := s.kind.grpTree.upd kg (plruTouch · w) } }

/-- The trees updated for a block fill: the group's, and each of its 16 sets' (R64). -/
def State.kTouchBlock (s : State) (slice granule w : Nat) : State :=
  (List.range 16).foldl (fun s i => s.kTouch slice (granule * 1024 + 64 * i) w) s

/-- The ways a domain's fills may use: R62, or the spill ways of R63 where R62 leaves none. -/
def State.fillWays (s : State) (slice : Nat) (e : Entry) : Nat → Bool :=
  let dis := s.rd (R.KS_WAYDIS_WAYS slice)
  let spill := s.rd (R.KS_SPILLWAYS_WAYS slice)
  let own := fun w => e.kways.testBit w && !dis.testBit w
  if (List.range 16).any own then own else fun w => spill.testBit w && !dis.testBit w

/-- Whether a fill finds a way at all (R63). -/
def State.hasWay (s : State) (slice : Nat) (e : Entry) : Bool := (List.range 16).any (s.fillWays slice e)

/-- `line_victim` of R64. -/
def State.lineVictim (s : State) (slice dpa : Nat) (allowed : Nat → Bool) : Nat :=
  let set := kSet dpa
  match (List.range 16).find? fun w => allowed w && (s.kLine slice set w).st == .invalid with
  | some w => w
  | none =>
    let t := s.kind.setTree.get (slice * 12288 + set)
    let nb := fun w => allowed w && !(s.kLine slice set w).blk
    if (List.range 16).any nb then plruWalk t nb else plruWalk t allowed

/-- `block_victim` of R64. -/
def State.blockVictim (s : State) (slice granule : Nat) (allowed : Nat → Bool) : Nat :=
  let g := granule % 768
  let empty := fun w => (List.range 16).all fun i => (s.kLine slice (16 * g + i) w).st == .invalid
  match (List.range 16).find? fun w => allowed w && empty w with
  | some w => w
  | none => plruWalk (s.kind.grpTree.get (slice * 768 + g)) allowed

/-- The DPA of the line a way of a set holds. -/
def lineAddr (set : Nat) (l : KLine) : Nat := l.tag * 1024 + set % 16 * 64

/-- The sixteen lines of a block in a way, as one 1,024-byte block. -/
def State.blockBytes (s : State) (slice granule w : Nat) : List Byte :=
  ((List.range 16).map fun i => leBytes 64 (s.kLine slice (16 * (granule % 768) + i) w).data).flatten

/-- Whether any line of a block in a way is poisoned. -/
def State.blockPoison (s : State) (slice granule w : Nat) : Bool :=
  (List.range 16).any fun i => (s.kLine slice (16 * (granule % 768) + i) w).poison

/-- The way emptied in a set, or in all 16 sets of its group when it holds a block. -/
def State.kDrop (s : State) (slice set w : Nat) : State :=
  if (s.kLine slice set w).blk then
    (List.range 16).foldl (fun s i => s.setKLine slice (set / 16 * 16 + i) w default) s
  else s.setKLine slice set w default

/-- A line written in place, its block following its state when it is one of a block's (R59). -/
def State.kWrite (s : State) (slice dpa w : Nat) (st : LState) (data : Line) (poison : Bool) : State :=
  let set := kSet dpa
  let old := s.kLine slice set w
  let s := s.setKLine slice set w { old with st := st, data := data, poison := poison, upset := old.upset && poison }
  let s := if old.blk then
      (List.range 16).foldl (fun s i =>
        let k := set / 16 * 16 + i
        s.setKLine slice k w { s.kLine slice k w with st := st }) s
    else s
  s.kTouch slice dpa w

/-- A line put into an empty way. -/
def State.kInstall (s : State) (slice dpa w : Nat) (st : LState) (data : Line) (poison : Bool) : State :=
  let s := s.setKLine slice (kSet dpa) w { st := st, tag := dpa / 1024, blk := false, poison := poison, data := data }
  s.kTouch slice dpa w

/-- A block put into an empty way of its set group. -/
def State.kInstallBlock (s : State) (slice granule w : Nat) (st : LState) (bytes : List Byte) : State :=
  let s := (List.range 16).foldl (fun s i =>
    s.setKLine slice (16 * (granule % 768) + i) w
      { st := st, tag := granule, blk := true, poison := false, data := ofLe 512 ((bytes.drop (64 * i)).take 64) }) s
  s.kTouchBlock slice granule w

/-- Whether a line is a peer line. -/
def LState.isPeer : LState → Bool
  | .peerS | .peerF | .peerE | .peerM => true
  | _ => false

end Sys2Proof.Machine
end

