-- ==== Sys2Proof/Machine/Tier.lean ====
section
/-!
DEFINITION. The tier manager's page map, placement and capacity (chapter 05): page map entries and heat (R101, R107), frames,
slots and extents (R103 to R105), the quantities of Table 05-5, the draw of an allocating request (R117, R118), and the
pressure states (R119).
-/
namespace Sys2Proof.Machine

/-! ### Page map -/

/-- The member number of this device in a domain's interleave; 0 for a replication partner (R57). -/
def State.myMember (s : State) (e : Entry) : Nat :=
  ((List.range e.ways).find? fun m => e.member m == s.devNum).getD 0

/-- The first DPA of a share page of this device (R43). -/
def State.pageDpa (s : State) (e : Entry) (sp : Nat) : Nat := e.baseAddr + e.unshare (s.myMember e) (sp * 4096)

/-- The valid domain in whose map range an entry lies (R45, R100). -/
def State.mapDomain (s : State) (key : Nat) : Option (Nat × Entry) :=
  s.domains.find? fun d => decide (Entry.mapBase d.2 * 256 ≤ key) && decide (key < Entry.mapBase d.2 * 256 + Entry.pages d.2)

/-- The channel and line of the metadata region that hold an entry (R100): where its extent was placed at first, or has been
moved to. None before the region has been built. -/
def State.metaLine (s : State) (key : Nat) : Option (Nat × Nat) :=
  let ext := key / 131072
  let l := key % 131072 / 4
  let m := s.tier.metaChans.length
  match s.tier.place.get ext with
  | 0 =>
    if m == 0 then none
    else
      let c := s.tier.metaChans.getD (ext % m) 0
      some (s.resolve c ((s.dataExtents c + ext / m) * 32768 + l))
  | p => some (s.resolve ((p - 1) / 2 ^ 20) ((p - 1) % 2 ^ 20 * 32768 + l))

/-- The key and tweak keys of metadata lines (Table 07-8). -/
def State.metaKey (s : State) (k : Nat) : BitVec 256 := (s.eng.dk.get k).getD 0

/-- A metadata line as DRAM or its channel's write queue holds it, decrypted under DK1 and DK2 (R142, R143). A line that nothing
has written holds zero entries, as the writer of R445 leaves it. None where it cannot be corrected. -/
def State.metaRead (s : State) (key : Nat) : Option (BitVec 512) :=
  match s.metaLine key with
  | none => some 0
  | some (c, l) =>
    if (s.queuedWrite c l).isNone && !s.dram.lines.cells.any fun x => x.1 == lineKey c l then some 0
    else
      let d := s.storedNow c l
      if d.bad then none
      else some (ofLe 512 (xtsDec (s.metaKey 1) (s.metaKey 2) (tweakMeta (key / 4 * 64)) (leBytes 64 d.stored)))

/-- The place of an entry in its line. -/
def metaSlot (key : Nat) : Nat := 128 * (key % 4)

/-- An entry as DRAM holds it. One whose line cannot be corrected reads with `STATE` = 11, which R101 gives the same meaning. -/
def State.metaEntry (s : State) (key : Nat) : PageEntry :=
  match s.metaRead key with
  | some x => x.extractLsb' (metaSlot key) 128
  | none => BitVec.ofNat 128 (3 * 2 ^ 126)

/-- Whether an extent of the metadata region has been initialised since memory was discarded (R445). -/
def State.extentReady (s : State) (ext : Nat) : Bool :=
  decide (ext < s.boot.initNext) || decide (s.boot.initTotal ≤ ext) || s.boot.initDone.contains ext

/-- Whether a dirty entry can be written: its extent has been initialised, and its line finds a place in its channel's write
queue. -/
def State.metaRoom (s : State) (key : Nat) : Bool :=
  s.extentReady (key / 131072) &&
    match s.metaLine key with
    | some (c, l) => s.wqRoom c l false
    | none => true

/-- An update that waits for its extent moves it to the front of the writer's order (R445). -/
def State.wantExtent (s : State) (key : Nat) : State :=
  let x := key / 131072
  if s.extentReady x || s.boot.initAhead.contains x then s
  else { s with boot := { s.boot with initAhead := x :: s.boot.initAhead } }

/-- An entry written to its metadata line, encrypted under DK1 and DK2 and encoded as it is stored (R142). -/
def State.metaWrite (s : State) (key : Nat) (p : PageEntry) : State :=
  match s.metaLine key with
  | some (c, l) =>
    let x := setFld ((s.metaRead key).getD 0) (metaSlot key + 127) (metaSlot key) p.toNat
    s.pushWrite c {
      id := 0, line := l, data := ofLe 512 (xtsEnc (s.metaKey 1) (s.metaKey 2) (tweakMeta (key / 4 * 64)) (leBytes 64 x)),
      raw := true, poison := false, dom := 0, enc := false, tweak := 0, paced := false, bg := true, issued := false, addr := 0 }
  | none => s

/-- An entry that leaves the map cache (R46): a dirty one is written to its line. From then on DRAM alone holds it. -/
def State.metaStore (s : State) (key : Nat) (dirty : Bool) : State :=
  let s := if dirty then s.metaWrite key (s.tier.pmap.get key) else s
  if (s.metaLine key).isSome then { s with tier := { s.tier with inDram := s.tier.inDram.put key true } } else s

/-- The page map entry at a place of the metadata region (R45, R46): the map cache's, or the one in DRAM. -/
def State.page (s : State) (key : Nat) : PageEntry := if s.tier.inDram.get key then s.metaEntry key else s.tier.pmap.get key

/-- The set of the map cache that holds an entry: its owner's, by its share page (R46). -/
def State.mapSet (s : State) (key : Nat) : Nat :=
  match s.mapDomain key with
  | some (_, e) =>
    let sp := key - e.mapBase * 256
    e.owner (s.pageDpa e sp) * 4096 + sp % 4096
  | none => key % 4096

/-- The entries of a set beyond its 16 ways leave it, the dirty ones once their lines can be written (R46). -/
def State.mapTrim (s : State) (set : Nat) : State :=
  ((s.tier.mcache.get set).drop 16).foldl (fun (s : State) (v : Nat × Bool) =>
    if v.2 && !s.metaRoom v.1 then s.wantExtent v.1
    else
      let s := s.metaStore v.1 v.2
      { s with tier := { s.tier with mcache := s.tier.mcache.upd set fun ws => ws.filter fun w => w.1 != v.1 } }) s

/-- An entry brought into the map cache as its set's most recently used, `dirty` when it is being written (R46). -/
def State.mapTouch (s : State) (set key : Nat) (dirty : Bool) : State :=
  let ways := s.tier.mcache.get set
  let was := (ways.find? fun w => w.1 == key).any (·.2)
  let p := s.page key
  let s : State := { s with tier := { s.tier with
    pmap := s.tier.pmap.put key p, inDram := s.tier.inDram.put key false,
    mcache := s.tier.mcache.put set ((key, was || dirty) :: ways.filter fun w => w.1 != key) } }
  s.mapTrim set

/-- The state with a page map entry committed: an update at its owner (R46). -/
def State.setPage (s : State) (key : Nat) (p : PageEntry) : State :=
  let s := s.mapTouch (s.mapSet key) key true
  { s with tier := { s.tier with pmap := s.tier.pmap.put key p, inDram := s.tier.inDram.put key false } }

/-- An entry changed by a pass over a map owner's pages (R108, R109): in the map cache where it is held there, else in DRAM. None while
its line finds no place in the write queue. -/
def State.passPage (s : State) (key : Nat) (f : PageEntry → PageEntry) : Option State :=
  let p := f (s.page key)
  if !s.tier.inDram.get key then some (s.setPage key p)
  else if !s.metaRoom key then none
  else
    let s := s.metaWrite key p
    some { s with tier := { s.tier with pmap := s.tier.pmap.put key p } }

/-- The dirty entries of the map cache. -/
def State.mapDirty (s : State) : List Nat :=
  (s.tier.mcache.cells.map fun c => (c.2.filter (·.2)).map (·.1)).flatten

/-- The dirty entries of the map cache written to DRAM, as far as their lines find places (R432, R448); they stay in it. -/
def State.storeMaps (s : State) : State :=
  s.mapDirty.foldl (fun s k =>
    if !s.metaRoom k then s.wantExtent k
    else
      let s := s.metaWrite k (s.tier.pmap.get k)
      let f := fun ws : List (Nat × Bool) => ws.map fun w => if w.1 == k then (k, false) else w
      { s with tier := { s.tier with mcache := s.tier.mcache.upd (s.mapSet k) f } }) s

/-- The map cache emptied once its entries are in DRAM (R449). -/
def State.dropMaps (s : State) : State :=
  let s := (s.tier.mcache.cells.map fun c => c.2.map (·.1)).flatten.foldl (fun s k => s.metaStore k false) s
  { s with tier := { s.tier with mcache := Tab.empty } }

/-- The lines of a metadata extent written with zero entries as code words (R445). -/
def State.zeroExtent (s : State) (ext : Nat) : State :=
  (List.range 32768).foldl (fun (s : State) (i : Nat) =>
    let key := ext * 131072 + 4 * i
    match s.metaLine key with
    | some (c, l) => s.placeBytes c l (ofLe 512 (xtsEnc (s.metaKey 1) (s.metaKey 2) (tweakMeta (key / 4 * 64)) (leBytes 64 (0 : BitVec 512)))) false
    | none => s) s

/-- The extent that the writer of R445 does next: one that an update waits for, or else the lowest that is left. -/
def State.nextInit (s : State) : Option Nat :=
  match s.boot.initAhead with
  | x :: _ => some x
  | [] => (List.range (s.boot.initDone.length + 1)).findSome? fun i =>
    let x := s.boot.initNext + i
    if decide (x < s.boot.initTotal) && !s.boot.initDone.contains x then some x else none

/-- An extent initialised by the background writer, and marked so. -/
def State.initExtent (s : State) (x : Nat) : State :=
  let b := s.boot
  let s := s.zeroExtent x
  { s with boot := { s.boot with
    initNext := if x == b.initNext then x + 1 else b.initNext
    initDone := if x == b.initNext then b.initDone else x :: b.initDone
    initAhead := b.initAhead.filter (· != x) } }

/-- Whether a share page's entry has been passed by its owner's resync pass, or none runs (R109). -/
def State.resynced (s : State) (owner key : Nat) : Bool :=
  let r := s.tier.resync.get owner
  r == 0 || decide (key < r - 1)

/-- The heat decay of R107 on an entry, with or without its increment (R107, R108, R109). -/
def heatStep (p : PageEntry) (now : Nat) (synced incr : Bool) : PageEntry :=
  let d := if synced then (now + 256 - p.epoch) % 256 else 0
  let h := p.heat / 2 ^ min d 8
  let h := if incr then min (h + 1) 255 else h
  setFld (setFld p 119 112 h) 111 104 (now % 256)

/-- The heat update of a DRAM read, a block fill or a write-back of a page's data (R107). -/
def State.heat (s : State) (owner key : Nat) : State :=
  s.setPage key (heatStep (s.page key) s.tier.epoch (s.resynced owner key) true)

/-- The map cache's lookup at the owner (R46): an entry it does not hold is read from its metadata line, and the entry becomes its
set's most recently used of 16. Answers whether it missed. -/
def State.mapLookup (s : State) (owner key sharePage : Nat) : Bool × State :=
  let set := owner * 4096 + sharePage % 4096
  (!(s.tier.mcache.get set).any fun w => w.1 == key, s.mapTouch set key false)

/-- Whether an entry is uncorrectable metadata by what it says (R101): `STATE` = 11, or a bin that does not exist. -/
def PageEntry.unreadable (p : PageEntry) : Bool := p.state == 3 || (p.state == 2 && decide (9 ≤ p.slot))

/-! ### Extents, frames and slots -/

/-- The key of an extent. -/
def extKey (c x : Nat) : Nat := c * 2 ^ 20 + x
/-- An extent of a channel (R104). -/
def State.ext (s : State) (c x : Nat) : Extent := s.tier.extents.get (extKey c x)
/-- The state with an extent changed. -/
def State.setExt (s : State) (c x : Nat) (e : Extent) : State :=
  { s with tier := { s.tier with extents := s.tier.extents.put (extKey c x) e } }

/-- The channels of a domain's set. -/
def Entry.channels (e : Entry) : List Nat := (List.range e.chans).map fun i => (e.chBase + i) % 16

/-- The first of `c, c + step, …` that a rising list does not hold. -/
def firstGap (step : Nat) : Nat → List Nat → Nat
  | c, [] => c
  | c, k :: ks => if k < c then firstGap step c ks else if k = c then firstGap step (c + step) ks else c

/-- The rising keys of a table from `lo` up to `hi`. -/
def keysIn {α : Type} (t : Tab α) (lo hi : Nat) : List Nat :=
  (t.cells.map (·.1)).filter fun k => decide (lo ≤ k) && decide (k < hi)

/-- The part of a group extent on a channel can open there: the extent is free in a serving channel, or the channel is
Retired or Evacuating and the part goes to another by redirection (R104). -/
def State.partOpens (s : State) (c x : Nat) : Bool :=
  (s.ext c x).kind == 0 && decide (x < s.dataExtents c) &&
    (s.chanTakes c || ((s.chanState c == 4 || s.chanState c == 5) && (s.dram.chans.get c).redirect.get x == 0))

/-- Free extents of a channel below its reserve. -/
def State.freeExtents (s : State) (c : Nat) : Nat :=
  s.dataExtents c - (keysIn s.tier.extents (extKey c 0) (extKey c (s.dataExtents c))).length

/-- The lowest free extent of a channel. -/
def State.lowestFree (s : State) (c : Nat) : Option Nat :=
  let x := firstGap 1 (extKey c 0) (keysIn s.tier.extents (extKey c 0) (extKey (c + 1) 0)) - extKey c 0
  if x < s.dataExtents c then some x else none

/-- Step 2 of Table 08-9: the target channel for an extent of channel c: of the same region if one there has a free
extent, else any; most free extents first, the lowest number on ties. -/
def State.targetFor (s : State) (c : Nat) : Option Nat :=
  let ok := fun t => t != c && s.chanTakes t && decide (s.freeExtents t > 0)
  let cand := (List.range 16).filter fun t => ok t && t / 4 == c / 4
  let cand := if cand.isEmpty then (List.range 16).filter ok else cand
  cand.foldl (fun best t =>
    match best with
    | none => some t
    | some b => if s.freeExtents t > s.freeExtents b then some t else some b) none

/-- A redirect entry committed for a part that opens on a retired or evacuating channel, in an extent of another channel that takes
the part's use (R205). None where no channel has a free extent. -/
def State.redirectPart (s : State) (c x : Nat) (audit : Bool) : Option State :=
  match s.targetFor c with
  | some t =>
    (s.lowestFree t).map fun y =>
      let s := s.setExt t y { kind := 3, arg := extKey c x, used := 1, auditOnly := audit, noAlloc := false }
      s.updChan c fun ch => { ch with redirect := ch.redirect.put x (1 + t * 2 ^ 19 + y) }
  | none => none

/-- The arg of a Firewood group extent. -/
def groupArg (e : Entry) : Nat := e.chBase * 32 + e.chans

/-- The lowest extent number that can open as a group extent for a domain's channel set, searched up to `fuel`. -/
def State.openGroupLoop (s : State) (e : Entry) : Nat → Nat → Option Nat
  | 0, _ => none
  | f + 1, x => if e.channels.all (fun c => s.partOpens c x) then some x else s.openGroupLoop e f (x + 1)

/-- The in-use extents of a channel that hold a frame of a valid paced domain (R186, R187); `extra` is a domain taken as
paced and valid besides. -/
def State.pacedExtents (s : State) (n : Nat) (extra : List (Nat × Entry)) : List Nat :=
  let ds := (s.dom.entries.cells.filter fun c => Entry.valid c.2 && Entry.paced c.2) ++ extra
  (ds.map fun d =>
    if !(Entry.channels d.2).contains n then []
    else
      (s.tier.pmap.cells.filter fun c =>
        decide (Entry.mapBase d.2 * 256 ≤ c.1) && decide (c.1 < Entry.mapBase d.2 * 256 + Entry.pages d.2) &&
          PageEntry.state c.2 == 1).map fun c => PageEntry.fstripe c.2 / 8192).flatten.eraseDups

/-- Whether a channel's contents go through the redirect table. -/
def State.redirects (s : State) (c : Nat) : Bool := s.chanState c == 4 || s.chanState c == 5

/-- A Firewood group extent opened for a domain (R104), audit-only when its SCRUB is 01 (R205). -/
def State.openGroup (s : State) (e : Entry) : Option (Nat × State) :=
  let most := (e.channels.map s.dataExtents).foldl max 0
  let used := (s.tier.extents.cells).length
  let full := e.paced && e.channels.any fun c => s.redirects c && decide ((s.pacedExtents c []).length ≥ 2048)
  match (if full then none else s.openGroupLoop e (min most (used + 1)) 0) with
  | some x =>
    let s := e.channels.foldl (fun s c =>
      s.setExt c x { kind := 1, arg := groupArg e, used := 0, auditOnly := e.scrub == 1, noAlloc := false }) s
    (e.channels.foldl (fun (a : Option State) c =>
      a.bind fun s => if s.chanTakes c then some s else s.redirectPart c x (e.scrub == 1)) (some s)).map fun s => (x, s)
  | none => none

/-- The open group extents of a domain's set that have a free frame and match its SCRUB, lowest first. -/
def State.groupRoom (s : State) (e : Entry) : Option Nat :=
  ((keysIn s.tier.extents (extKey e.chBase 0) (extKey (e.chBase + 1) 0)).map (· - extKey e.chBase 0)).find? fun x =>
    let t := s.ext e.chBase x
    t.kind == 1 && t.arg == groupArg e && !t.noAlloc && t.auditOnly == (e.scrub == 1) && decide (t.used < 512 * e.chans)

/-- The key of a frame. -/
def frameKey (e : Entry) (stripe : Nat) : Nat := e.chBase * 2 ^ 33 + stripe

/-- A frame taken in a group extent: the lowest free stripe. -/
def State.takeFrame (s : State) (e : Entry) (x : Nat) : Nat × State :=
  let step := 16 / e.chans
  let lo := frameKey e (x * 8192)
  let k := firstGap step lo (keysIn s.tier.frames lo (lo + 8192))
  let s := { s with tier := { s.tier with frames := s.tier.frames.put k true } }
  let s := e.channels.foldl (fun s c => s.setExt c x { s.ext c x with used := (s.ext c x).used + 1 }) s
  (k - frameKey e 0, s)

/-- A Firewood frame for a domain, in an open extent or one opened for it (R103, R104). -/
def State.allocFrame (s : State) (e : Entry) : Option (Nat × State) :=
  match s.groupRoom e with
  | some x => some (s.takeFrame e x)
  | none =>
    match s.openGroup e with
    | some (x, s) => some (s.takeFrame e x)
    | none => none

/-- An extent after one of its frames or slots is freed: free when it was the last (R104). -/
def Extent.release (t : Extent) : Extent := if t.used ≤ 1 then default else { t with used := t.used - 1 }

/-- What still waits to be written to a line of a freed frame or slot dropped, with the credits it held (R226). -/
def State.dropWrites (s : State) (c l : Nat) : State :=
  let (c, l) := s.resolve c l
  let gone := (s.sub c (l % 2)).wq.filter fun e => e.line == l
  let s := gone.foldl (fun s e => if e.credit == 0 then s else s.returnCredit (e.credit - 1) 1) s
  let s := s.updSub c (l % 2) fun b => { b with wq := b.wq.filter fun e => e.line != l }
  s.updChan c fun h => { h with
    merges := h.merges.filter fun m => m.line != l, scrub := h.scrub.filter fun e => e.line != l }

/-- `n` lines of a channel from `l` dropped from the write queue and the merge buffer. -/
def State.dropRange (s : State) (c l n : Nat) : State := (List.range n).foldl (fun s i => s.dropWrites c (l + i)) s

/-- The redirect entry of an extent that has become free dropped, and the extent it named released (R104, R187). -/
def State.dropRedirect (s : State) (c x : Nat) : State :=
  let r := (s.dram.chans.get c).redirect.get x
  if r == 0 || (s.ext c x).kind != 0 then s
  else
    let s := s.setExt ((r - 1) / 2 ^ 19) ((r - 1) % 2 ^ 19) default
    s.updChan c fun ch => { ch with redirect := ch.redirect.put x 0 }

/-- A frame freed. -/
def State.freeFrame (s : State) (e : Entry) (stripe : Nat) : State :=
  let x := stripe / 8192
  let s := e.channels.foldl (fun s c => s.dropRange c (stripe * 4) (64 / e.chans)) s
  let s := { s with tier := { s.tier with frames := s.tier.frames.put (frameKey e stripe) false } }
  e.channels.foldl (fun s c => (s.setExt c x (s.ext c x).release).dropRedirect c x) s

/-- The bin extent of a channel with a free slot of bin k, lowest first. -/
def State.binRoom (s : State) (c k : Nat) (audit : Bool) : Option Nat :=
  ((keysIn s.tier.extents (extKey c 0) (extKey (c + 1) 0)).map (· - extKey c 0)).find? fun x =>
    let t := s.ext c x
    t.kind == 2 && t.arg == k && !t.noAlloc && t.auditOnly == audit && decide (t.used < 32768 / (8 * k))

/-- The key of a slot. -/
def slotKey (c csect : Nat) : Nat := c * 2 ^ 34 + csect

/-- A slot taken in a bin extent: the lowest free one. Answers its first sector. -/
def State.takeSlot (s : State) (c x k : Nat) : Nat × State :=
  let lo := slotKey c (x * 32768)
  let q := firstGap (8 * k) lo (keysIn s.tier.slots lo (lo + 32768))
  let s := { s with tier := { s.tier with slots := s.tier.slots.put q true } }
  (q - slotKey c 0, s.setExt c x { s.ext c x with used := (s.ext c x).used + 1 })

/-- A slot of 8k sectors in one of the channels given: in an open bin extent, else in one opened for it. Answers channel
and first sector (R104). The spec does not say which free frame, slot, extent and channel an allocation takes: the lowest-numbered free
one, in the first channel of the set that has room (DESIGN CHOICE, assumption 120). -/
def State.allocSlot (s : State) (e : Entry) (k : Nat) (cs : List Nat) : Option (Nat × Nat × State) :=
  let audit := e.scrub == 1
  match cs.find? (fun c => s.chanTakes c && (s.binRoom c k audit).isSome) with
  | some c =>
    match s.binRoom c k audit with
    | some x => let (q, s) := s.takeSlot c x k; some (c, q, s)
    | none => none
  | none =>
    match cs.find? (fun c => s.chanTakes c && (s.lowestFree c).isSome) with
    | some c =>
      match s.lowestFree c with
      | some x =>
        let s := s.setExt c x { kind := 2, arg := k, used := 0, auditOnly := audit, noAlloc := false }
        let (q, s) := s.takeSlot c x k
        some (c, q, s)
      | none => none
    | none => none

/-- A slot freed. -/
def State.freeSlot (s : State) (c csect : Nat) : State :=
  let x := csect / 32768
  let s := s.dropRange c csect (8 * (s.ext c x).arg)
  let s := { s with tier := { s.tier with slots := s.tier.slots.put (slotKey c csect) false } }
  (s.setExt c x (s.ext c x).release).dropRedirect c x

/-- The backing of a page freed: its frame or its slot. -/
def State.freeBacking (s : State) (e : Entry) (p : PageEntry) : State :=
  if p.state == 1 then s.freeFrame e p.fstripe
  else if p.state == 2 && p.slot != 0 then s.freeSlot p.cchan p.csect
  else s

/-! ### Capacity (Table 05-5), in 64 B sectors -/

/-- R: populated DRAM of the channels that count. -/
def State.capR (s : State) : Nat := (List.range 16).foldl (fun a n => if s.chanTakes n then a + s.chanLines n else a) 0
/-- Ordinary extents that hold metadata extents moved off a retiring channel, in sectors: they leave U (step 5 of Table
08-9). -/
def State.metaTaken (s : State) : Nat :=
  (s.tier.place.cells.filter fun c =>
    let c' := (c.2 - 1) / 2 ^ 20
    s.chanTakes c' && decide ((c.2 - 1) % 2 ^ 20 < s.dataExtents c')).length * 32768
/-- U. -/
def State.capU (s : State) : Nat := s.capR - s.capR / 64 - s.metaTaken
/-- E. -/
def State.capE (s : State) : Nat := s.capU / 100
/-- L. -/
def State.capL (s : State) : Nat := s.capU * s.rd R.CHIP_TMCTL_LOWPCT / 100

/-- Whether this device is one of a domain's interleave members. -/
def State.memberHere (s : State) (e : Entry) : Bool := (List.range e.ways).any fun m => e.member m == s.devNum

/-- Whether the domain's share here is charged whole: pinned, or held for a replication partner (R115). -/
def State.chargedWhole (s : State) (e : Entry) : Bool := s.partnerHere e || e.pinned

/-- V. -/
def State.capV (s : State) : Nat :=
  s.domains.foldl (fun a d => if s.memberHere d.2 || s.partnerHere d.2 then a + Entry.shareBytes d.2 / 64 else a) 0
/-- P. -/
def State.capP (s : State) : Nat :=
  s.domains.foldl (fun a d =>
    if (s.memberHere d.2 || s.partnerHere d.2) && s.chargedWhole d.2 then a + Entry.shareBytes d.2 / 64 else a) 0

/-- What a page is charged: its frame, its slot, or the open charge in place of its slot (R115, R118). -/
def pageCharge (p : PageEntry) : Nat :=
  if p.state == 1 then 64 else if p.open_ then 128 else if p.state == 2 then 8 * p.slot else 0

/-- What a migration's destination takes while it is under way; a promotion of R139 draws on its page's open charge. -/
def migCharge (m : Mig) : Nat :=
  match m.kind with
  | .promote => if m.forced then 0 else 64
  | .demote => 8 * m.dslot
  | .relocate => if m.dslot == 0 then 64 else 8 * m.dslot

/-- B and O together: the charges of the pages of domains that are not charged whole, the destinations of their migrations,
and the backing that lost entries leave counted (R386). -/
def State.capBO (s : State) : Nat :=
  let pages := s.domains.foldl (fun a d =>
    if s.memberHere d.2 && !s.chargedWhole d.2 then
      (s.tier.pmap.cells.filter fun c => decide (Entry.mapBase d.2 * 256 ≤ c.1) &&
        decide (c.1 < Entry.mapBase d.2 * 256 + Entry.pages d.2)).foldl (fun a c => a + pageCharge c.2) a
    else a) 0
  let migs := s.tier.migs.foldl (fun a m => if s.chargedWhole (s.entry m.dom) then a else a + migCharge m) 0
  pages + migs + s.tier.lostBack

/-- Free, which can fall below zero when a retirement lowers U. -/
def State.capFree (s : State) : Int := (s.capU : Int) - s.capP - s.capBO

/-- Sectors to MiB, rounded down (Table 05-9). A Free below zero shows as 0: the spec gives the field no sign and does not say (DESIGN
CHOICE, assumption 121). -/
def toMiB (x : Int) : Nat := x.toNat / 16384

/-- The state of the tier manager (Table 05-8): 0 Normal, 1 Low, 2 Reserve, 3 Held. -/
def State.pressure (s : State) : Nat := s.rd R.CHIP_TMSTAT_STATE

/-- The entry threshold of a pressure state (Table 05-6). -/
def State.threshold (s : State) (st : Nat) : Nat :=
  if st == 1 then s.capL else if st == 2 then s.capE else s.capE / 8

/-- A change of pressure state: its event is recorded and raised with Free in MiB (R119, R344). -/
def State.enterPressure (s : State) (st : Nat) : State :=
  let s := s.wr R.CHIP_TMSTAT_STATE st
  let s := if st == 2 then s.set1 R.CHIP_TMSTAT_RESEVT else if st == 3 then s.set1 R.CHIP_TMSTAT_HELDEVT else s
  let s := s.log { type := 0x0601 + st, level := 3, ukind := 7 }
  let s := if st == 3 then s.headLogAll 1 0x0604 0xFFFF 0 else s
  s.event (0x03 + st) (toMiB s.capFree)

/-- Down while Free is at or below the next lower state's threshold (R119). -/
def State.pressDown : Nat → State → State
  | 0, s => s
  | f + 1, s =>
    if s.pressure < 3 && decide (s.capFree ≤ s.threshold (s.pressure + 1)) then
      State.pressDown f (s.enterPressure (s.pressure + 1))
    else s

/-- Up while Free is above the present state's threshold by more than E / 4. -/
def State.pressUp : Nat → State → State
  | 0, s => s
  | f + 1, s =>
    if s.pressure > 0 && decide (s.capFree > s.threshold s.pressure + s.capE / 4) then
      State.pressUp f (s.enterPressure (s.pressure - 1))
    else s

/-- Requests waiting for backing on the device. -/
def State.waitingAll (s : State) : Nat :=
  (List.range 16).foldl (fun a n => a + (s.tier.waitq.get n).length + (s.tier.overq.get n).length) 0

/-- The back-pressure of a home slice: raised with a full wait list and 1,024 returned requests, ended with 64 free entries
of the wait list (R121). -/
def State.backPressure (s : State) (n : Nat) : Bool :=
  let w := (s.tier.waitq.get n).length
  if s.tier.backPr.get n then decide (w > 192) else decide (w ≥ 256) && decide ((s.tier.overq.get n).length ≥ 1024)

/-- The tier manager's registers and pressure state brought up to the present quantities (R115, R119, R121, R123). -/
def State.tierSync (s : State) : State :=
  let s := State.pressUp 3 (State.pressDown 3 s)
  let bp := (List.range 16).foldl (fun t n => t.put n (s.backPressure n)) s.tier.backPr
  let s := { s with tier := { s.tier with backPr := bp } }
  let s := s.wr R.CHIP_TMSTAT_BACKPR (b2n ((List.range 16).any fun n => bp.get n))
  let s := s.wr R.CHIP_TMSTAT_WAITING (min s.waitingAll 65535)
  let s := s.wr (R.CHIP_TMCAP_MIB 0) (min (toMiB s.capU) (2 ^ 32 - 1))
  let s := s.wr (R.CHIP_TMCAP_MIB 1) (min (toMiB s.capFree) (2 ^ 32 - 1))
  let s := s.wr (R.CHIP_TMCAP_MIB 2) (min (toMiB s.capV) (2 ^ 32 - 1))
  s.wr (R.CHIP_TMCAP_MIB 3) (min (toMiB s.capP) (2 ^ 32 - 1))

/-! ### Allocating requests (R117) -/

/-- Whether a request may write: a write, or a grant that lets its holder write without asking (E to a peer, MetaValue Any to
a host). `grantsE` says whether the answer to a peer's RdS would be E. -/
def ReqOp.mayWrite (o : ReqOp) (grantsE : Bool) : Bool :=
  match o with
  | .hostWr _ | .hostPtl _ | .wrCur | .wrPtl | .pWr | .rdOwn => true
  | .hostRd mv => mv == .any
  | .rdS => grantsE
  | .rdCur | .pRd => false

/-- The draw of an allocating request on a page, in sectors; none where the request is not allocating (R117). -/
def State.drawOf (s : State) (e : Entry) (key : Nat) (o : ReqOp) (grantsE : Bool) : Option Nat :=
  let p := s.page key
  if s.chargedWhole e || !o.mayWrite grantsE then none
  else if p.state == 0 && !p.open_ then some (if e.tierPol == 2 then 128 else 64)
  else if p.state == 2 && !p.open_ then some (128 - 8 * p.slot)
  else none

/-- The 64 lines of a frame that a page has just been given, holding zeros: a line of the page that nothing has written
goes on reading as zeros (R99, R93; assumption 24). -/
def State.zeroFrame (s : State) (d : Nat) (e : Entry) (stripe page : Nat) : State :=
  (List.range 64).foldl (fun s i =>
    let a := page + 64 * i
    let (c, l) := firewoodLine e (PageEntry.toFirewood 0 stripe) a
    let (c, l) := s.resolve c l
    s.placeBytes c l (s.sealLine d e.encrypt (tweakLine d (e.offset a)) 0) false) s

/-- Backing taken for a page: a frame for an Unbacked page, the open charge for a Charcoal one or under TIERPOL 10 (R117,
R118). None where no frame can be had (R104). -/
def State.backPage (s : State) (d : Nat) (e : Entry) (dpa : Nat) : Option State :=
  let key := e.mapKey dpa
  let p := s.page key
  if p.state == 0 then
    if e.tierPol == 2 then some (s.setPage key (setFld (p.toCharcoal e.chBase 0 0 []) 124 124 1))
    else (s.allocFrame e).map fun r => (r.2.zeroFrame d e r.1 (dpa / 4096 * 4096)).setPage key (p.toFirewood r.1)
  else some (s.setPage key (setFld p 124 124 1))

/-- Whether a draw may be granted now: not in Held, and leaving Free above E / 8 (R120). -/
def State.mayDraw (s : State) (n : Nat) : Bool :=
  s.pressure != 3 && decide (s.capFree - n > s.capE / 8)

end Sys2Proof.Machine
end

