-- ==== Sys2Proof/Machine/Copy.lean ====
section
/-!
DEFINITION. What a line or block of this device holds now: the Kindling cache first, then blocks on their way through a
compressor, the write queue and DRAM (R93, R111 step 2, R168). Copies, audits and long operations read through it; and the
writing of a line straight to its place in a tier.
-/
namespace Sys2Proof.Machine

/-- The blocks in the compressors' hands, and those kept for their page's promotion. -/
def State.czJobs (s : State) : List CzJob := ((List.range 16).map s.eng.cq.get).flatten ++ s.eng.czWait ++ s.eng.czHeld

/-- A dirty block that is in no way and not stored yet: in a compressor's hands alone, or in a staging buffer (R63, R66). Its
bytes, and its poisoned lines. -/
def State.blockAway (s : State) (granule : Nat) : Option (List Byte × BitVec 16) :=
  match s.kind.fills.find? fun f => f.granule == granule && f.staged && f.dirty with
  | some f => some (f.out, f.poison)
  | none => (s.czJobs.find? fun j => j.granule == granule && j.mig.isNone && j.place == .out).map fun j => (j.data, 0)

/-- Whether a compressor works on a block that is to be written back. -/
def State.blockSent (s : State) (granule : Nat) : Bool :=
  (((List.range 16).map s.eng.cq.get).flatten ++ s.eng.czWait).any fun j => j.granule == granule && j.mig.isNone

/-- Whether a block is kept dirty for its page's promotion (R139). -/
def State.blockKept (s : State) (granule : Nat) : Bool := s.eng.czHeld.any fun j => j.granule == granule

/-- The domain offset of a granule. -/
def granuleOff (e : Entry) (granule : Nat) : Nat := e.offset (granule * 1024)

/-- The stored sectors of a Charcoal block, as a read ordered now finds them, and whether any is bad. -/
def State.sectorsNow (s : State) (c first n : Nat) : List Byte × Bool :=
  (List.range n).foldl (fun a i =>
    let (c', l) := s.resolve c (first + i)
    let d := s.storedNow c' l
    (a.1 ++ leBytes 64 d.stored, a.2 || d.bad)) ([], false)

/-- What the checks of a stored block show (R138, R146): whether its tag is right, and what its decrypted unit decodes to. -/
structure BlockCheck where
  tagged : Bool
  form : Option (List Byte)
deriving DecidableEq, Repr, Inhabited

/-- A stored block checked: its tag, its decryption and its form (R130, R145, R146). A zero block stores nothing. -/
def State.checkBlock (s : State) (d : Nat) (e : Entry) (granule n : Nat) (stored : List Byte) : BlockCheck :=
  if n == 0 then { tagged := true, form := some (List.replicate 1024 0) }
  else
    let o := granuleOff e granule
    let unit := stored.take (64 * n - 8)
    let plain := if e.encrypt then xtsDec (s.slot d).k1 (s.slot d).k2 (tweakBlock d o) unit else unit
    { tagged := blockTag (s.tagKey d e.encrypt) d n o unit == stored.drop (64 * n - 8), form := tbcDecode plain n }

/-- The block's bytes, where every check passes. -/
def BlockCheck.data (c : BlockCheck) : Option (List Byte) := if c.tagged then c.form else none

/-- Error types of a block that a check refuses, as a tag failure's record names them (R138, R141): TBC_FORMAT in `TYPE2` too. -/
def BlockCheck.type2 (c : BlockCheck) : Nat := if c.form.isNone then 0x0302 else 0

/-- A stored block opened: tag checked, decrypted, decompressed (R145, R146, R130). None where a check fails. -/
def State.openBlock (s : State) (d : Nat) (e : Entry) (granule n : Nat) (stored : List Byte) : Option (List Byte) :=
  (s.checkBlock d e granule n stored).data

/-- A block's plaintext unit made into its stored form: encrypted and tagged (R142, R145). -/
def State.sealBlock (s : State) (d : Nat) (e : Entry) (granule n : Nat) (unit : List Byte) : List Byte :=
  if n == 0 then []
  else
    let o := granuleOff e granule
    let x := if e.encrypt then xtsEnc (s.slot d).k1 (s.slot d).k2 (tweakBlock d o) unit else unit
    x ++ blockTag (s.tagKey d e.encrypt) d n o x

/-- The stored block of a granule of a Charcoal page as DRAM holds it, opened. -/
def State.storedBlock (s : State) (d : Nat) (e : Entry) (granule : Nat) : Option (List Byte) :=
  let p := s.page (e.mapKey (granule * 1024))
  let i := granule % 4
  let n := p.blen i
  let (b, bad) := s.sectorsNow p.cchan (p.csect + p.blockAt i) n
  if bad then none else s.openBlock d e granule n b

/-- A Firewood line as stored now: its plaintext and whether it is poison. -/
def State.firewoodNow (s : State) (d : Nat) (e : Entry) (p : PageEntry) (dpa : Nat) : Line × Bool :=
  let (c, l) := firewoodLine e p dpa
  let (c, l) := s.resolve c l
  let at_ : Line × Bool := match s.queuedWrite c l with
    | some w => (if w.raw then s.openLine d e.encrypt (tweakLine d (e.offset dpa)) w.data else w.data, w.poison)
    | none =>
      let x := s.decodeLine c l 0
      (s.openLine d e.encrypt (tweakLine d (e.offset dpa)) x.stored, x.bad)
  ((s.dram.chans.get c).merges.filter (fun m => m.line == l)).foldl
    (fun a m => (mergeBytes a.1 m.data m.be, a.2 || m.poison)) at_

/-- The current data of a line homed here and whether it is poison. -/
def State.lineNow (s : State) (d : Nat) (e : Entry) (dpa : Nat) : Line × Bool :=
  let sl := e.slice dpa
  match s.kWay sl dpa with
  | some w => let k := s.kLine sl (kSet dpa) w; (k.data, k.poison)
  | none =>
    match s.blockAway (dpa / 1024) with
    | some j => (ofLe 512 ((j.1.drop (dpa % 1024)).take 64), j.2.getLsbD (dpa / 64 % 16))
    | none =>
      let p := s.page (e.mapKey dpa)
      if p.state == 1 then s.firewoodNow d e p dpa
      else if p.state == 2 then
        match s.storedBlock d e (dpa / 1024) with
        | some b => (ofLe 512 ((b.drop (dpa % 1024)).take 64), false)
        | none => (0, true)
      else (0, false)

/-- The current 1,024 bytes of a granule and whether any line is poison. -/
def State.granuleNow (s : State) (d : Nat) (e : Entry) (granule : Nat) : List Byte × Bool :=
  (List.range 16).foldl (fun a i =>
    let x := s.lineNow d e (granule * 1024 + 64 * i)
    (a.1 ++ leBytes 64 x.1, a.2 || x.2)) ([], false)

/-- The redo bit of a granule set in a migration of its page, once the granule is marked copied (R112). -/
def State.redo (s : State) (d : Nat) (e : Entry) (dpa : Nat) : State :=
  let key := e.mapKey dpa
  { s with tier := { s.tier with migs := s.tier.migs.map fun m =>
      if m.dom == d && m.page == key && m.phase != .held then { m with redo := m.redo ||| (1 <<< (dpa / 1024 % 4)) } else m } }

/-- A write queued for a Firewood line (R30, R65): encrypted as it issues. -/
def State.queueLine (s : State) (d : Nat) (e : Entry) (dpa : Nat) (x : Line) (poison bg : Bool) (credit : Nat := 0) : State :=
  let p := s.page (e.mapKey dpa)
  let (c, l) := firewoodLine e p dpa
  let s := s.pushWrite c
    { id := 0, line := l, data := x, raw := false, poison := poison, dom := d, enc := e.encrypt,
      tweak := tweakLine d (e.offset dpa), paced := e.paced, bg := bg, issued := false, addr := dpa,
      credit := credit, full := true }
  (s.heat (e.owner dpa) (e.mapKey dpa)).redo d e dpa

/-- Stored bytes of a page's blocks queued for the sectors from `first` of a channel; `enc` where they come from an encrypt pipeline now
(R149). -/
def State.queueSectors (s : State) (d dpa : Nat) (enc : Bool) (c first : Nat) (bytes : List Byte) : State :=
  (List.range (bytes.length / 64)).foldl (fun s i =>
    s.pushWrite c
      { id := 0, line := first + i, data := ofLe 512 ((bytes.drop (64 * i)).take 64), raw := true, poison := false, dom := d,
        enc := enc, tweak := 0, paced := false, bg := true, issued := false, addr := dpa }) s

/-- The lowest engine of a region with the shortest queue that has room and is in service. -/
def bestEngine (ok : Nat → Bool) (len : Nat → Nat) (r : Nat) : Option Nat :=
  ([0, 1, 2, 3].map (4 * r + ·)).foldl (fun b e =>
    if ok e && decide (len e < 4) then
      match b with
      | none => some e
      | some x => if len e < len x then some e else some x
    else b) none

/-- The engine a home slice's work goes to (R135): its own; another of the region; when the region has none in service, the
next regions'. `not` is an engine that has failed the work. -/
def chooseEngine (ok : Nat → Bool) (len : Nat → Nat) (home : Nat) (not : Option Nat) : Option Nat :=
  let ok := fun e => ok e && not != some e
  if ok home && decide (len home < 4) then some home
  else
    let r := home / 4
    let inService := fun r => [0, 1, 2, 3].any fun i => ok (4 * r + i)
    match ([0, 1, 2, 3].map fun k => (r + k) % 4).find? inService with
    | some r' => bestEngine ok len r'
    | none => none

/-- The decrypt pipeline a home slice's work goes to (R148). -/
def State.decryptPipe (s : State) (slice : Nat) : Option Nat :=
  chooseEngine (fun e => !s.flag (R.ENG_XCTL_XDDIS e)) (fun _ => 0) slice none
/-- The encrypt pipeline a home slice's work goes to. -/
def State.encryptPipe (s : State) (slice : Nat) : Option Nat :=
  chooseEngine (fun e => !s.flag (R.ENG_XCTL_XEDIS e)) (fun _ => 0) slice none
/-- Whether data of a domain that has to be encrypted waits, since every encrypt pipeline of the device is out of service (R149). -/
def State.noEncrypt (s : State) (enc : Bool) : Bool := enc && (List.range 16).all fun k => s.flag (R.ENG_XCTL_XEDIS k)

/-! ### Blocks that a check refuses -/

/-- A record of a block's tag or format failure (R147, R382). -/
def State.logTag (s : State) (f : Fill) (type type2 : Nat) (lasting : Bool) : State :=
  s.log {
    type := type, sev := if lasting then 3 else 1, cls := if lasting then 2 else 1, level := 1, ukind := 2, unit := f.chan,
    dom := f.dom, loc := f.granule * 1024, type2 := type2,
    detail := BitVec.ofNat 128 (f.csect + f.n * 2 ^ 40 + f.index * 2 ^ 48) }

/-- A block known to be lost (R147): recorded once, and its writes wait for its promotion. -/
def State.holdTag (s : State) (f : Fill) (type2 : Nat) : State :=
  if s.tier.tagHeld.any fun x => x.1 == f.dom && x.2.1 == f.granule then s
  else
    let s := s.logTag f 0x0301 type2 true
    { s with tier := { s.tier with tagHeld := s.tier.tagHeld ++ [(f.dom, f.granule, false)] } }

/-- A tag failure counted at the decrypt pipeline that checked the block (R148, R158). -/
def State.countTag (s : State) (f : Fill) : State :=
  let x := (s.decryptPipe f.slice).getD f.slice
  let s := (s.set1 (R.ENG_XSTAT_TAGFAIL x)).satAdd (R.ENG_XSTAT_TAGCNT x) 1
  s.countBlk x 0x26 1 (some f.dom) (some f.entry.qclass)

/-- What a failed check leaves in the engine that made it: a tag failure counted, or `FMTERR` (R140, R158). -/
def State.noteCheck (s : State) (f : Fill) (c : BlockCheck) : State :=
  if !c.tagged then s.countTag f
  else if c.form.isNone then
    s.set1 (R.ENG_CZSTAT_FMTERR ((chooseEngine (fun e => !s.flag (R.ENG_CZCTL_DDIS e)) (fun _ => 0) f.slice none).getD f.slice))
  else s

/-- A block of a page as a fill names it, for what the audit and a promotion record of it. -/
def Entry.fillOf (e : Entry) (d : Nat) (p : PageEntry) (granule : Nat) : Fill :=
  { (default : Fill) with
    dom := d, entry := e, slice := e.slice (granule * 1024), granule := granule, chan := p.cchan,
    csect := p.csect + p.blockAt (granule % 4), n := p.blen (granule % 4), index := granule % 4 }

/-- A block that fails its checks twice (R138, R147): both failures noted, and the block lost. -/
def State.failBlock (s : State) (f : Fill) (c1 c2 : BlockCheck) : State :=
  ((s.noteCheck f c1).noteCheck f c2).holdTag f c2.type2

/-! ### Queues of the engines -/

/-- A block put in a compressor's queue (R135). At the queue's head its compression starts, under the `MAXSECT` and `PATEN` in
force then (R134, R141). -/
def State.joinCompress (s : State) (e home : Nat) (j : CzJob) : State :=
  let q := s.eng.cq.get e
  let j := if q.isEmpty then { j with limit := some (s.rd R.CHIP_CZCTL_MAXSECT, s.flag R.CHIP_CZCTL_PATEN) } else j
  let s := { s with eng := { s.eng with cq := s.eng.cq.put e (q ++ [j]), czTurn := s.eng.czTurn.put e (home + 1) } }
  s.wr (R.ENG_CZSTAT_CQ e) (q.length + 1)

/-- A block given to a compressor (R135), or waiting for one. -/
def State.pushCompress (s : State) (home : Nat) (j : CzJob) (not : Option Nat) : State :=
  match chooseEngine (fun e => !s.flag (R.ENG_CZCTL_CDIS e)) (fun e => (s.eng.cq.get e).length) home not with
  | some e => s.joinCompress e home j
  | none => { s with eng := { s.eng with czWait := s.eng.czWait ++ [j] } }

/-- A fill put in a decompressor's queue (R135). -/
def State.joinDecompress (s : State) (e home id : Nat) : State :=
  let q := s.eng.dq.get e ++ [id]
  let s := { s with eng := { s.eng with dq := s.eng.dq.put e q, dzTurn := s.eng.dzTurn.put e (home + 1) } }
  s.wr (R.ENG_CZSTAT_DQ e) q.length

/-- A fill whose unit has been opened given to a decompressor (R135), or waiting for one. -/
def State.pushDecompress (s : State) (id : Nat) : State :=
  match s.kind.fills.find? fun f => f.id == id with
  | none => s
  | some f =>
    match chooseEngine (fun e => !s.flag (R.ENG_CZCTL_DDIS e)) (fun e => (s.eng.dq.get e).length) f.slice f.first with
    | some e => s.joinDecompress e f.slice id
    | none => { s with eng := { s.eng with dzWait := s.eng.dzWait ++ [id] } }

end Sys2Proof.Machine
end

