-- ==== Sys2Proof/Machine/Trace.lean ====
section
/-!
DEFINITION. Request tagging (R371 to R376): the tagging LFSR of a region, and the trace record of a tagged request.
-/
namespace Sys2Proof.Machine

/-- One advance of the 32-bit Galois LFSR with polynomial x^32 + x^22 + x^2 + x + 1, shifting right (assumption 23). -/
def lfsrNext (x : BitVec 32) : BitVec 32 := if bit x 0 then (x >>> 1) ^^^ 0x80200003 else x >>> 1

/-- The LFSR of a region; its seed register's Reset value stands before anything has loaded it. -/
def State.lfsr (s : State) (rg : Nat) : BitVec 32 := s.ctr.lfsr.getD 1 rg

/-- Whether a region captures (R372). -/
def State.capturing (s : State) (rg : Nat) : Bool := s.flag (R.TR_CTL_EN rg) && !s.flag (R.TR_STAT_STOPPED rg)

/-- A request granted to a domain with `TAG` = 1 advances the region's LFSR (R371); answers whether it is tagged, which takes
`TRr_CTL.EN` = 1 (Table 16-8). -/
def State.tagRequest (s : State) (rg : Nat) (e : Entry) : Bool × State :=
  if e.tag then
    let x := lfsrNext (s.lfsr rg)
    (s.flag (R.TR_CTL_EN rg) && x.toNat % 2 ^ s.rd (R.TR_CTL_K rg) == 0,
      { s with ctr := { s.ctr with lfsr := s.ctr.lfsr.putD 1 rg x } })
  else (false, s)

/-- A stage delta of a trace record: ticks after `T0`, all ones for a stage not passed. -/
def stageDelta (t0 : Nat) (t : Option Nat) : Nat :=
  match t with
  | none => 0xFFFFFFFF
  | some x => min (x - t0) 0xFFFFFFFE

/-- The place of a request's source: its logical port or its device. -/
def Agent.number : Agent → Nat
  | .host p => p
  | .peer d => d

/-- The fields of `PATH` (Table 16-4b). -/
def tracePath (r : Req) (outcome : Nat) : Nat :=
  let t := r.tr
  let wr := match r.op with
    | .hostWr _ | .hostPtl _ | .wrCur | .wrPtl | .pWr => 1
    | _ => 0
  let narrow := match r.op with
    | .hostPtl _ | .wrPtl => 1
    | .pWr => b2n (r.be != BitVec.allOnes 64)
    | _ => 0
  let form := if t.tier.isNone then 3 else t.form
  t.group + 2 ^ 4 * r.agent.number + 2 ^ 9 * wr + 2 ^ 10 * b2n r.entry.paced + 2 ^ 11 * narrow +
    2 ^ 12 * r.entry.slice r.addr + 2 ^ 16 * t.chan + 2 ^ 20 * form + 2 ^ 22 * t.kindling + 2 ^ 24 * outcome +
    2 ^ 27 * b2n t.mapMiss + 2 ^ 28 * b2n t.redir + 2 ^ 29 * b2n t.reread + 2 ^ 30 * b2n t.peerHome

/-- A trace record (Table 16-4b). -/
def traceRecord (r : Req) (now outcome seq : Nat) : BitVec 512 :=
  let t := r.tr
  let d := stageDelta t.t0
  let who := r.dom % 2 ^ 14 + 2 ^ 14 * (t.cls % 64) + 2 ^ 20 * (t.master % 512) + 2 ^ 29 * t.admTier
  BitVec.ofNat 512 (t.t0 % 2 ^ 64 + 2 ^ 64 * d t.reg + 2 ^ 96 * d t.home + 2 ^ 128 * d t.cache + 2 ^ 160 * d t.tier +
    2 ^ 192 * d t.eng + 2 ^ 224 * d t.dram + 2 ^ 256 * d (some now) + 2 ^ 288 * who + 2 ^ 320 * tracePath r outcome +
    2 ^ 352 * (r.addr % 2 ^ 46) + 2 ^ 416 * (seq % 2 ^ 32))

/-- The record of a tagged request that leaves the device, written at `WPTR` (R372). -/
def State.traceLeave (s : State) (r : Req) (outcome : Nat) : State :=
  let rg := r.tr.group / 4
  if !r.tr.on || !s.capturing rg then s
  else if !s.flag (R.TR_CTL_WRAP rg) && s.flag (R.TR_STAT_FULL rg) then s.satAdd (R.TR_STAT_DROP rg) 1
  else
    let w := s.rd (R.TR_STAT_WPTR rg)
    let q := s.ctr.seq.get rg
    let s := { s with ctr := { s.ctr with
      trace := s.ctr.trace.put (rg * 4096 + w) (traceRecord r s.gtc outcome q), seq := s.ctr.seq.put rg (q + 1) } }
    let s := s.wr (R.TR_STAT_WPTR rg) ((w + 1) % 4096)
    if w == 4095 && !s.flag (R.TR_CTL_WRAP rg) then s.set1 (R.TR_STAT_FULL rg) else s

end Sys2Proof.Machine
end

