-- ==== Sys2Proof/Machine/Wire.lean ====
section
/-!
DEFINITION. What leaves the device: responses through the egress shaper (R235), messages toward peers (R78, R280, R292) and
CXL back-invalidations (R302).
-/
namespace Sys2Proof.Machine

/-! ### Logical ports -/

/-- Whether a head runs HDM-DB (R300). -/
def State.hdmDb (s : State) (p : Nat) : Bool := (s.place p).on && (s.head p).flit == 2 && (s.head p).biEn
/-- The logical ports of a vector bit: those whose lowest port group is `k` and whose host takes back-invalidations
(R76, R297, R300). -/
def State.portsUnder (s : State) (k : Nat) : List Nat :=
  (List.range 32).filter fun p => (s.place p).on && (s.place p).group == k && (s.head p).biEn
/-- The egress slot of a port (R235). -/
def State.portSlot (s : State) (p : Nat) : Nat := 2 * (s.place p).group + (s.place p).half
/-- The first field of a pair of per-port fields of `PGg_CXLSTAT`, or the second for the port of `PNUM1`. -/
def State.ofHalf (s : State) (p : Nat) (a b : Nat → Fld) : Fld := (if (s.place p).half == 0 then a else b) (s.place p).group

/-! ### Egress -/

/-- The key of a class's bucket in a slot. -/
def bktKey (x c : Nat) : Nat := x * 64 + c

/-- A bucket brought up to now: it has grown by `RATE` tenths of a byte in each nanosecond and stops at its limit (R236). -/
def State.bucketNow (s : State) (x c : Nat) : Bucket :=
  let b := s.rgl.bucket.get (bktKey x c)
  { below := b.below - s.rd (R.SH_BKT_RATE x c) * (s.gtc - b.at_), at_ := s.gtc }

/-- A message of `n` payload bytes charged to the bucket of a class, with the counted overhead (R236). -/
def State.chargeBucket (s : State) (x c n : Nat) : State :=
  let b := s.bucketNow x c
  { s with rgl := { s.rgl with bucket := s.rgl.bucket.put (bktKey x c) { b with below := b.below + 10 * (n + s.rd (R.SH_CTL_OVH x)) } } }

/-- A message that the shaper never holds charged to the class of the domain of its line (R235); a line in no domain has no class. -/
def State.chargeLine (s : State) (x dpa n : Nat) : State :=
  match s.domOf dpa with
  | some d => s.chargeBucket x (Entry.qclass d.2) n
  | none => s

/-- A message placed in an egress slot, to be sent by the shaper (R235). -/
def State.pushEgress (s : State) (slot : Nat) (e : Egress) : State :=
  { s with rgl := { s.rgl with egress := s.rgl.egress.upd slot (· ++ [{ e with at_ := s.gtc }]) } }

/-- A response to a host (R235): data or a completion, with its outcome code (Table 16-4b). A request that a Port reset has
cut off, and one that a mailbox command made, has none (R310, R314): its tag lies beyond those of the link. -/
def State.toHost (s : State) (r : Req) (isData : Bool) (x : Line) (poison : Bool) (outcome : Nat) : State :=
  match r.agent with
  | .host p =>
    if r.tag ≥ 2 ^ 16 then s.traceLeave r outcome
    else
    let e : Egress := { (default : Egress) with
      req := r, toHost := true, isData := isData, data := x, poison := poison, paced := r.entry.paced, cls := r.entry.qclass,
      outcome := if outcome == 0 && poison then 1 else outcome, credit := if isData then r.credit else 0 }
    s.pushEgress (s.portSlot p) e
  | .peer _ => s

/-- The host state that read data gives (R85): the one asked for, and Invalid for a paced line (R96), a head that runs HDM-H (R300)
or a request that was refused. -/
def Egress.hostState (e : Egress) : MetaValue :=
  match e.req.op with
  | .hostRd mv => if e.req.entry.paced || e.outcome ≥ 2 then .invalid else mv
  | _ => .invalid

/-! ### Peers -/

/-- Whether a group's link is in L0 to a peer. -/
def State.linkUp (s : State) (g d : Nat) : Bool := s.rd (R.PG_LKSTAT_LTSTATE g) == 6 && s.rd (R.PG_LKSTAT_PEERDEV g) == d
/-- The links to a peer that are in L0, in ascending port group order. -/
def State.linksTo (s : State) (d : Nat) : List Nat := (List.range 16).filter fun g => s.linkUp g d
/-- Whether a peer has been declared lost (R387). -/
def State.peerLost (s : State) (d : Nat) : Bool := s.flag ((R.CF_STAT_PEERLOST).bitAt d)
/-- The VC of an opcode (R278; Table 04-5). -/
def vcOf (opc : Nat) : Nat := if opc ≥ 0xE0 then 7 else opc / 32
/-- The pool address bits 49:6 of a line homed on a device (R38). -/
def poolAddr (dev dpa : Nat) : Nat := dev * 2 ^ 40 + dpa / 64 % 2 ^ 40
/-- The DPA of the line a message names. -/
def Msg.dpa (m : Msg) : Nat := m.addr % 2 ^ 40 * 64
/-- The link a message takes (R280); the paced classes go only on links that run 8 VCs (R278). -/
def State.linkFor (s : State) (m : Msg) : Option Nat :=
  let ls := (s.linksTo m.dst).filter fun g => decide (vcOf m.opc < 6) || s.flag (R.PG_LKSTAT_VCS8 g)
  if ls.isEmpty then none
  else if vcOf m.opc == 5 then ls.head?
  else ls[m.addr / 16 % ls.length]?

/-- What a message of a class that the shaper never holds adds to its bucket when it leaves on a group's link (R235): RSP, SNP, WB, PDAT, and
the MGT message that names a line. -/
def State.chargeMsg (s : State) (g : Nat) (m : Msg) : State :=
  let data := [0x80, 0x82, 0xE0].contains m.opc
  if [1, 2, 4, 7].contains (vcOf m.opc) || m.opc == 0xA2 then s.chargeLine (2 * g) m.dpa (if data then 64 else 0) else s

/-- A message left with the Pennant outbound store, to be put in a flit (R279, R292). A lost device takes none. -/
def State.pushOut (s : State) (m : Msg) : State :=
  if s.peerLost m.dst then s
  else { s with link := { s.link with outq := s.link.outq.upd m.dst (· ++ [m]) } }

/-- A message sent to a peer: Data and DataFwd pass the egress shaper of their link's group (R235). `r` is the request it
answers, for its trace. -/
def State.toPeer (s : State) (m : Msg) (r : Req := default) : State :=
  let m := { m with src := s.devNum }
  if m.opc == 0x60 || m.opc == 0x61 then
    match s.linkFor m with
    | some g =>
      let cls := match s.domOf m.dpa with
        | some d => Entry.qclass d.2
        | none => 0
      s.pushEgress (2 * g) { (default : Egress) with req := r, cls := cls, msg := m, isData := true }
    | none => (s.pushOut m).traceLeave r 0
  else (s.pushOut m).traceLeave r (if m.opc == 0x45 then 3 else 0)

/-! ### Back-invalidation -/

/-- Kinds of back-invalidation: 0 BISnpInv, 1 BISnpData, 2 BISnpInvBlk. -/
def biInv : Nat := 0
def biData : Nat := 1
def biBlk : Nat := 2

/-- Outstanding BISnp of a port. -/
def State.biOutOf (s : State) (p : Nat) : Nat := (s.coh.biOut.filter fun b => b.1 == p).length

/-- `PGg_CXLSTAT.BIOUT` brought up to the outstanding BISnp of a port. -/
def State.biSync (s : State) (p : Nat) : State :=
  s.wr (s.ofHalf p R.PG_CXLSTAT_BIOUT0 R.PG_CXLSTAT_BIOUT1) (min (s.biOutOf p) 63)

/-- Whether a port's host can be sent a BISnp now: HDM-DB, a free tracker of 64, and a credit (R302). -/
def State.biReady (s : State) (p : Nat) : Bool :=
  s.hdmDb p && decide (s.biOutOf p < 64) && decide (s.coh.biCredit.get p > 0)

/-- A BISnp sent, and charged to its class (R235). -/
def State.biSend (s : State) (p line kind : Nat) : State :=
  let s := { s with coh := { s.coh with
    biOut := s.coh.biOut ++ [(p, line, kind, s.gtc)], biCredit := s.coh.biCredit.upd p (· - 1) } }
  ((s.send (.bisnp p line kind)).chargeLine (s.portSlot p) line 0).biSync p

/-- A BISnp of a home slice sent to a port's host, or waiting for a tracker and a credit (R302). -/
def State.biSnp (s : State) (sl p line kind : Nat) : State :=
  let s := s.countBlk sl 0x18 1 none none
  if s.biReady p && !(s.coh.biWait.any fun b => b.1 == p) then s.biSend p line kind
  else { s with coh := { s.coh with biWait := s.coh.biWait ++ [(p, line, kind)] } }

/-- Waiting BISnp of a port sent while it is ready, oldest first. -/
def State.biDrainLoop : Nat → State → Nat → State
  | 0, s, _ => s
  | f + 1, s, p =>
    match s.coh.biWait.find? fun b => b.1 == p with
    | some b =>
      if s.biReady p then
        let s := { s with coh := { s.coh with biWait := s.coh.biWait.erase b } }
        State.biDrainLoop f (s.biSend p b.2.1 b.2.2) p
      else s
    | none => s
def State.biDrain (s : State) (p : Nat) : State := State.biDrainLoop s.coh.biWait.length s p

end Sys2Proof.Machine
end

