-- ==== Sys2Proof/Machine/Limit.lean ====
section
/-!
DEFINITION. The power-state manager's limit and the wake sources (R428 to R430, R434): the exit latencies, the tolerances of
the active ports and links, what a paced domain holds, and the start of an exit. Entries and exits end in `Power`.
-/
namespace Sys2Proof.Machine

/-- 1.1 times the exit latency of a state, in ns (Table 20-1). -/
def exitLatency (st : Nat) : Nat := [0, 2200, 44000, 3300000].getD st 0

/-- The tolerances in ns of the active CXL ports (R428). -/
def State.portTolerances (s : State) : List Nat :=
  ((List.range 32).filter fun p => (s.place p).on && (s.head p).flit != 0).map fun p =>
    (s.head p).tolVal * 32 ^ (s.head p).tolScale

/-- Whether any Pennant link is in L0. -/
def State.anyLink (s : State) : Bool := (List.range 16).any fun g => s.rd (R.PG_LKSTAT_LTSTATE g) == 6

/-- The tolerances of the active ports and links (R428). -/
def State.tolerances (s : State) : List Nat :=
  s.portTolerances ++ (if s.anyLink then [s.rd R.PS_CTL_PTOLVAL * 32 ^ s.rd R.PS_CTL_PTOLSCALE] else [])

/-- Whether a domain entry makes a paced domain active (R429). -/
def State.pacedActive (s : State) (e : Entry) : Bool :=
  e.valid && e.paced && (e.rdPorts != 0 || e.wrPorts != 0 || (List.range 16).any fun i =>
    s.rd (R.RGL_PACE_PQR (32 + i)).com != 0 || s.rd (R.RGL_PACE_PQW (32 + i)).com != 0)

/-- Whether a paced domain is active. -/
def State.anyPaced (s : State) : Bool := s.domains.any fun d => s.pacedActive d.2

/-- Whether a state meets every condition of R430. -/
def State.mayReach (s : State) (st : Nat) : Bool :=
  (s.tolerances.all fun t => decide (exitLatency st ≤ t)) && (st == 0 || !s.anyPaced) &&
    decide (st ≤ s.rd R.PS_CTL_MAXSTATE) &&
    (st != 3 || (!s.anyLink && (List.range 32).all fun p => !(s.place p).on || (s.head p).flit == 0 || (s.head p).l1))

/-- The limit: the deepest state that R430 allows. -/
def State.powerLimit (s : State) : Nat := if s.mayReach 3 then 3 else if s.mayReach 2 then 2 else if s.mayReach 1 then 1 else 0

/-- The limit recomputed after a change of its inputs; a limit below the state in force, or below the state being entered,
is a wake source (R430). -/
def State.limitSync (s : State) : State :=
  let tols := s.tolerances
  let lim := s.powerLimit
  let s := (s.wr R.PS_STAT_LIMIT lim).wr R.PS_STAT_PACEHOLD (b2n s.anyPaced)
  let s := s.wr R.PS_STAT_TOLHOLD (b2n (tols.any (· == 0)))
  let s := s.wr R.PS_TOLMIN_TMIN (tols.foldl Nat.min (2 ^ 32 - 1))
  if lim < s.rd R.PS_STAT_STATE || (s.pow.target.any fun t => decide (lim < t)) then s.wake 5 else s

end Sys2Proof.Machine
end

