-- ==== Sys2Proof/Machine/Directory.lean ====
section
/-!
DEFINITION. The directory of a home slice (R75 to R77) and the victim of a full set (R91).
-/
namespace Sys2Proof.Machine

/-- The set of a sector (R75). -/
def dirIndex (dpa : Nat) : Nat := dpa / 256 % 65536
/-- The tag of a sector. -/
def dirTag (dpa : Nat) : Nat := dpa / 2 ^ 24 % 2 ^ 22
/-- The key of a way of a directory set. -/
def dirKey (slice set way : Nat) : Nat := (slice * 65536 + set) * 16 + way
/-- One way of a directory set. -/
def State.dirAt (s : State) (slice set way : Nat) : DirEntry := s.coh.dir.get (dirKey slice set way)

/-- The way that holds a sector's entry. -/
def State.dirWay (s : State) (slice dpa : Nat) : Option Nat :=
  (List.range 16).find? fun w =>
    let d := s.dirAt slice (dirIndex dpa) w
    !dirFree d.bits && d.tag == dirTag dpa

/-- A sector's entry; all zero where it has none: every line U (R75). -/
def State.dirBits (s : State) (slice dpa : Nat) : BitVec 64 :=
  match s.dirWay slice dpa with
  | some w => (s.dirAt slice (dirIndex dpa) w).bits
  | none => 0

/-- The line of a DPA within its sector. -/
def lineIn (dpa : Nat) : Nat := dpa / 64 % 4

/-- The state with a sector's entry changed: freed when all four lines are U (R77), placed in the lowest free way when it is
new, and marked as used. -/
def State.putDir (s : State) (slice dpa : Nat) (bits : BitVec 64) : State :=
  let set := dirIndex dpa
  let w := match s.dirWay slice dpa with
    | some w => some w
    | none => (List.range 16).find? fun w => dirFree (s.dirAt slice set w).bits
  match w with
  | some w =>
    let e : DirEntry := if dirFree bits then default else { tag := dirTag dpa, bits := bits }
    { s with coh := { s.coh with
        dir := s.coh.dir.put (dirKey slice set w) e, dirTree := s.coh.dirTree.upd (slice * 65536 + set) (plruTouch · w) } }
  | none => s

/-- One line of a sector put in a directory state with a pointer. -/
def State.dirLine (s : State) (slice dpa st ptr : Nat) : State :=
  s.putDir slice dpa (dirSet (s.dirBits slice dpa) (lineIn dpa) st ptr)

/-- The DPA of the sector that a way of a directory set holds. -/
def dirAddr (set : Nat) (d : DirEntry) : Nat := d.tag * 2 ^ 24 + set * 256

/-- Whether a transaction of the home is about a line, or about its sector. One that waits for backing holds its line without a
transaction entry (R120), as does data that has yet to find its place (R86). -/
def HomeTx.touches (t : HomeTx) (dpa : Nat) : Bool :=
  match t.purpose with
  | .serve => (t.busy || t.phase == .backing) && t.line / 64 == dpa / 64
  | .absorb | .mirIn => t.line / 64 == dpa / 64
  | .part _ => false
  | _ => t.busy && t.line / 256 == dpa / 256

/-- Whether any line of a sector has a transaction in progress. -/
def State.sectorBusy (s : State) (dpa : Nat) : Bool :=
  s.coh.txs.any fun t => (t.busy || t.phase == .backing) && t.line / 256 == dpa / 256

/-- The sectors of a set that hold an entry or have a transaction that may need one. -/
def State.dirLoad (s : State) (slice dpa : Nat) : Nat :=
  let set := dirIndex dpa
  let held := ((List.range 16).filter fun w => !dirFree (s.dirAt slice set w).bits).length
  let pend := (s.coh.txs.filter fun t =>
    (t.busy || t.phase == .backing) && t.slice == slice && dirIndex t.line == set && (s.dirWay slice t.line).isNone).map fun t => t.line / 256
  held + pend.eraseDups.length

/-- Whether a sector without an entry can be given one (R91). -/
def State.dirRoom (s : State) (slice dpa : Nat) : Bool :=
  (s.dirWay slice dpa).isSome || decide (s.dirLoad slice dpa < 16)

/-- The way to evict from a full set: by the set's tree, among the ways with nothing in progress (R91). -/
def State.dirVictim (s : State) (slice dpa : Nat) : Option Nat :=
  let set := dirIndex dpa
  let ok := fun w =>
    let d := s.dirAt slice set w
    !dirFree d.bits && !s.sectorBusy (dirAddr set d)
  if (List.range 16).any ok then some (plruWalk (s.coh.dirTree.get (slice * 65536 + set)) ok) else none

/-- Whether any line of a page is recorded in PE or HE (R118). -/
def State.pageOwned (s : State) (e : Entry) (dpa : Nat) : Bool :=
  let base := dpa / 4096 * 4096
  (List.range 16).any fun k =>
    let a := base + 256 * k
    let bits := s.dirBits (e.slice a) a
    (List.range 4).any fun i => dirLs bits i == dirPE || dirLs bits i == dirHE

/-- Whether any line of a page is dirty in the Kindling cache, or its block is away and unstored (R118). -/
def State.pageDirty (s : State) (e : Entry) (dpa : Nat) : Bool :=
  let base := dpa / 4096 * 4096
  ((List.range 64).any fun k =>
    let a := base + 64 * k
    match s.kWay (e.slice a) a with
    | some w => (s.kLine (e.slice a) (kSet a) w).st == .homeDirty
    | none => false) || (List.range 4).any fun g => (s.blockAway (base / 1024 + g)).isSome

end Sys2Proof.Machine
end

