-- ==== Sys2Proof/Machine/Move.lean ====
section
/-!
DEFINITION. Migrations (R110 to R113): the checks of an issue, the copying of steps 1 to 4 of Table 05-4, the hold and the
second copies of steps 5 and 6, the flip of steps 7 to 9, and an end without a flip. Their commands are in `Migration`.
-/
namespace Sys2Proof.Machine

/-- Whether this device stores a share of a domain. -/
def State.storesShare (s : State) (e : Entry) : Bool := s.memberHere e || s.partnerHere e

/-! ### Page and migration lookups -/

/-- A migration in progress. -/
def State.mig (s : State) (id : Nat) : Option Mig := s.tier.migs.find? fun m => m.id == id

/-- The state with a migration changed. -/
def State.updMig (s : State) (id : Nat) (f : Mig → Mig) : State :=
  { s with tier := { s.tier with migs := s.tier.migs.map fun m => if m.id == id then f m else m } }

/-- Whether a migration holds the granule of a DPA (step 5 of Table 05-4). -/
def State.migHolds (s : State) (dpa : Nat) : Bool :=
  s.tier.migs.any fun m => m.phase == .held && m.dpa / 4096 == dpa / 4096

/-- A ticket done with a status and its counts (R324); a free one, whose outcome has been discarded, stays free. -/
def State.ticketDone (s : State) (core tk status a b : Nat) : State :=
  s.updCore core fun c =>
    let t := c.tickets.get tk
    if t.st == 0 || t.st == 3 then c
    else { c with tickets := c.tickets.put tk { t with st := 3, status := status, a := a, b := b } }

/-- A migration's result told to its issuer: a ticket is done, a job's is left for it (R324, R354). -/
def State.report (s : State) (by_ : MigBy) (status : Nat) : State :=
  match by_ with
  | .manager => s
  | .ticket core tk => s.ticketDone core tk status 0 0
  | .job id => { s with tier := { s.tier with reports := s.tier.reports ++ [(id, status)] } }

/-- The jobs of a migration taken out of the compressors' queues. -/
def State.dropJobs (s : State) (id : Nat) : State :=
  let keep := fun j : CzJob => j.mig != some id
  let s := (List.range 16).foldl (fun s e =>
    let q := (s.eng.cq.get e).filter keep
    let s := { s with eng := { s.eng with cq := s.eng.cq.put e q } }
    s.wr (R.ENG_CZSTAT_CQ e) q.length) s
  { s with eng := { s.eng with czWait := s.eng.czWait.filter keep } }

/-- The destination of a migration freed. -/
def State.freeDest (s : State) (m : Mig) : State :=
  if m.kind == .demote then
    if m.phase == .copying || m.dslot == 0 then s else s.freeSlot m.dchan m.dest
  else if m.dslot == 0 then s.freeFrame m.entry m.dest
  else s.freeSlot m.dchan m.dest

/-- A migration ended without a flip (R113): `MIG` cleared, the destination freed, `INCOMP` set where a block was
incompressible. -/
def State.migEnd (s : State) (m : Mig) (status : Nat) : State :=
  let p := setFld (s.page m.page) 125 125 0
  let p := if status == 0x65 then setFld p 123 123 1 else p
  let s := s.setPage m.page p
  let s := (s.freeDest m).dropJobs m.id
  let s := { s with tier := { s.tier with migs := s.tier.migs.filter fun x => x.id != m.id } }
  s.report m.by_ status

/-! ### Copies -/

/-- One line written to a destination frame: encrypted as it issues (step 4 of Table 05-4). -/
def State.writeFrame (s : State) (d : Nat) (e : Entry) (stripe dpa : Nat) (x : Line) (raw poison : Bool) : State :=
  let (c, l) := firewoodLine e (PageEntry.toFirewood 0 stripe) dpa
  s.pushWrite c
    { id := 0, line := l, data := x, raw := raw, poison := poison, dom := d, enc := e.encrypt && !raw,
      tweak := tweakLine d (e.offset dpa), paced := false, bg := true, issued := false, addr := dpa }

/-- The stored block that a promotion reads for a granule checked (R113): one that fails is read again from the same sectors, fails
again, and is lost (R138, R147). A granule whose data are in the cache or on their way from it reads nothing. -/
def State.promoteCheck (s : State) (m : Mig) (granule : Nat) : State :=
  let p := s.page m.page
  let f := m.entry.fillOf m.dom p granule
  if p.state != 2 || f.n == 0 || (s.kWay f.slice (granule * 1024)).isSome || (s.blockAway granule).isSome then s
  else
    let (b, bad) := s.sectorsNow f.chan f.csect f.n
    let c := s.checkBlock m.dom m.entry granule f.n b
    if bad then s.holdTag f 0x0202 else if c.data.isNone then s.failBlock f c c else s

/-- The 16 lines of a granule copied to a promotion's frame; a block whose tag fails is written as poison (R113). -/
def State.copyPromote (s : State) (m : Mig) (g : Nat) : State :=
  let s := s.promoteCheck m (m.dpa / 1024 + g)
  (List.range 16).foldl (fun s i =>
    let a := m.dpa + 1024 * g + 64 * i
    let (x, bad) := s.lineNow m.dom m.entry a
    s.writeFrame m.dom m.entry m.dest a x false bad) s

/-- The stored lines of a granule, or the stored sectors of a slot, copied unchanged (R106). -/
def State.copyRelocate (s : State) (m : Mig) (g : Nat) : State :=
  let p := s.page m.page
  if m.dslot == 0 then
    (List.range 16).foldl (fun s i =>
      let a := m.dpa + 1024 * g + 64 * i
      let (c, l) := firewoodLine m.entry p a
      let (c, l) := s.resolve c l
      let x := s.storedNow c l
      s.writeFrame m.dom m.entry m.dest a x.stored true x.bad) s
  else
    let at_ := p.blockAt g
    let (b, _) := s.sectorsNow p.cchan (p.csect + at_) (p.blen g)
    s.queueSectors m.dom m.dpa false m.dchan (m.dest + at_) b

/-- The lines that a granule's copy writes at the destination of a promotion or relocation, by channel before redirection. -/
def State.copyTargets (s : State) (m : Mig) (g : Nat) : List (Nat × Nat) :=
  if m.dslot == 0 then
    (List.range 16).map fun i => firewoodLine m.entry (PageEntry.toFirewood 0 m.dest) (m.dpa + 1024 * g + 64 * i)
  else
    let p := s.page m.page
    (List.range (p.blen g)).map fun i => (m.dchan, m.dest + p.blockAt g + i)

/-- Whether a narrow write of a granule of a Firewood page is still in the merge buffer, so that a copy of the stored line would
miss it (R31, R112). -/
def State.granuleMerging (s : State) (e : Entry) (p : PageEntry) (granule : Nat) : Bool :=
  p.state == 1 && (List.range 16).any fun i =>
    let (c, l) := firewoodLine e p (granule * 1024 + 64 * i)
    let (c, l) := s.resolve c l
    s.merging c l

/-- Whether the copy of a granule can be made now: its writes find places (step 4), a promotion an encrypt pipeline (R149), and a
relocation no narrow write of it unmerged. -/
def State.copyFree (s : State) (m : Mig) (g : Nat) : Bool :=
  s.roomFor (s.copyTargets m g) && !(m.kind == .promote && s.noEncrypt m.entry.encrypt) &&
    !(m.kind == .relocate && s.granuleMerging m.entry (s.page m.page) (m.dpa / 1024 + g))

/-- One granule of a promotion or relocation copied (steps 2 to 4). -/
def State.copyOne (s : State) (m : Mig) (g : Nat) : State :=
  match m.kind with
  | .relocate => s.copyRelocate m g
  | _ => s.copyPromote m g

/-- The next granules of a promotion or relocation copied, in ascending offset, as far as their writes find places. The fuel is the
page's four granules. -/
def State.copyLoop : Nat → State → Nat → State
  | 0, s, _ => s
  | f + 1, s, id =>
    match s.mig id with
    | none => s
    | some m =>
      if m.phase != .copying || m.kind == .demote || m.copied ≥ 4 || !s.copyFree m m.copied then s
      else
        let s := s.copyOne m m.copied
        State.copyLoop f (s.updMig id fun x => { x with
          copied := x.copied + 1, phase := if x.copied ≥ 3 then .written else .copying }) id

/-- A granule of a demotion given to a compressor (steps 2 and 3). -/
def State.copyDemote (s : State) (m : Mig) (g : Nat) : State :=
  let gr := m.dpa / 1024 + g
  let (b, bad) := s.granuleNow m.dom m.entry gr
  s.pushCompress (m.entry.slice (gr * 1024))
    { dom := m.dom, entry := m.entry, granule := gr, data := b, poison := bad, mig := some m.id, first := none } none

/-- Whether a Firewood page holds a line that reads uncorrectable and is not cached (R113). -/
def State.sourceUe (s : State) (e : Entry) (p : PageEntry) (dpa : Nat) : Bool :=
  (List.range 64).any fun i =>
    let a := dpa + 64 * i
    if (s.kWay (e.slice a) a).isSome then false
    else
      let (c, l) := firewoodLine e p a
      let (c, l) := s.resolve c l
      match s.storedNow c l with
      | .uncorrectable _ => true
      | _ => false

/-- The blocks of a demotion, in order. -/
def Mig.blens (m : Mig) : List Nat :=
  (List.range 4).map fun i => (((m.blocks.find? fun b => b.1 == i).map (·.2.n)).getD 0)

/-- Sectors a list of block lengths takes. -/
def sumN (l : List Nat) : Nat := l.foldl (· + ·) 0

/-- The channels a destination slot may lie in (R327). -/
def Mig.channels (m : Mig) : List Nat := if m.want < 16 then [m.want] else m.entry.channels

/-- Whether a migration's destination of `n` sectors leaves Free at 0 or above (R119); backing charged whole draws nothing. -/
def State.migDraws (s : State) (e : Entry) (n : Nat) : Bool := s.chargedWhole e || decide (0 ≤ s.capFree - n)

/-- A slot of `n` sectors in all for a demotion (step 3): its bin is ⌈n / 8⌉. -/
def State.demoteSlot (s : State) (m : Mig) (n : Nat) : Option (Nat × Nat × State) :=
  if s.migDraws m.entry (8 * ((n + 7) / 8)) then s.allocSlot m.entry ((n + 7) / 8) m.channels else none

/-- The blocks of a demotion written to a slot. -/
def State.putBlocks (s : State) (m : Mig) (c q : Nat) : State :=
  (List.range 4).foldl (fun s i =>
    match m.blocks.find? fun b => b.1 == i with
    | some b => s.queueSectors m.dom m.dpa m.entry.encrypt c (q + sumN (m.blens.take i)) b.2.bytes
    | none => s) s

/-- The sectors of a slot's first `n`. -/
def slotLines (c q n : Nat) : List (Nat × Nat) := (List.range n).map fun i => (c, q + i)

/-- The four blocks of a demotion written to its slot (steps 3 and 4), once they find places in the write queues. With nothing to
store the page will be Unbacked. A demotion that finds no slot ends without a flip. -/
def State.placeDemotion (s : State) (m : Mig) : State :=
  let n := sumN m.blens
  if n == 0 then s.updMig m.id fun x => { x with phase := .written, dslot := 0 }
  else
    match s.demoteSlot m n with
    | some (c, q, t) =>
      if !s.roomFor (slotLines c q n) || s.noEncrypt m.entry.encrypt then s
      else (t.putBlocks m c q).updMig m.id fun x => { x with phase := .written, dchan := c, dest := q, dslot := (n + 7) / 8 }
    | none => s.migEnd m 0x06

/-- Whether a migration's domain has been deleted or its key slot destroyed (R113). -/
def State.migDead (s : State) (m : Mig) : Bool :=
  (s.slot m.dom).st == 3 || s.dom.commits.any fun c => c.dom == m.dom && !c.new.valid

/-- A migration whose writes waited taken further; one that has not reached step 5 stops at this boundary when its domain is deleted
or its key destroyed (R113). -/
def State.migOn (s : State) (m : Mig) : State :=
  if m.phase != .held && s.migDead m then s.migEnd m 0x68
  else if m.phase != .copying then s
  else if m.kind == .demote then (if m.blocks.length == 4 then s.placeDemotion m else s)
  else State.copyLoop 4 s m.id

/-- Every migration taken as far as it goes. -/
def State.settleMigs (s : State) : State := s.tier.migs.foldl (fun s m => (s.mig m.id).elim s s.migOn) s

/-! ### Issue -/

/-- Migrations of a map owner (R110). -/
def State.migsOf (s : State) (owner : Nat) : Nat := (s.tier.migs.filter fun m => m.entry.owner m.dpa == owner).length

/-- The refusal of a migration by R110 and R119, in the order of its checks; 0 when it is accepted. -/
def State.migCheck (s : State) (e : Entry) (p : PageEntry) (dpa : Nat) (kind : MigKind) : Nat :=
  if e.paced || (kind == .demote && e.tierPol == 1) || (kind == .promote && e.tierPol == 2) then 0x60
  else if s.migsOf (e.owner dpa) ≥ 4 then 0x64
  else if p.mig then 0x61
  else if kind == .promote && s.pressure ≥ 2 then 0x06
  else 0

/-- Step 1 for a promotion or relocation: the destination allocated. Answers stripe or first sector, channel and slot
size. -/
def State.migDest (s : State) (e : Entry) (p : PageEntry) (kind : MigKind) (want : Nat) : Option (Nat × Nat × Nat × State) :=
  if kind == .demote then some (0, 0, 0, s)
  else if kind == .promote || p.state == 1 then
    if s.migDraws e 64 || kind == .promote then (s.allocFrame e).map fun r => (r.1, 0, 0, r.2) else none
  else
    let k := (p.sectors + 7) / 8
    if !s.migDraws e (8 * k) then none
    else (s.allocSlot e k (if want < 16 then [want] else e.channels)).map fun r => (r.2.1, r.1, k, r.2.2)

/-- Whether a page's form is one the kind of migration starts from. -/
def migApplies (p : PageEntry) (kind : MigKind) : Bool :=
  match kind with
  | .demote => p.state == 1
  | .promote => p.state != 1
  | .relocate => p.state == 1 || (p.state == 2 && p.slot != 0)

/-- A migration issued on the page at a DPA (R110, R111): the status of a refusal, or 0 and the state in which steps 1 to 4
have been taken as far as they go without the engines. `forced` is the promotion of R139: no POLICY, and its frame comes from the
page's open charge, so that pressure does not stop it; at most 4 migrations of an owner run all the same. -/
def State.startMig (s : State) (d : Nat) (e : Entry) (dpa : Nat) (kind : MigKind) (want : Nat) (by_ : MigBy)
    (forced : Bool) : Nat × State :=
  let key := e.mapKey dpa
  let p := s.page key
  let refusal :=
    if forced then (if s.migsOf (e.owner dpa) ≥ 4 then 0x64 else if p.mig then 0x61 else 0)
    else if s.boot.drain.isSome then 0x64 else s.migCheck e p dpa kind
  if refusal != 0 then (refusal, s)
  else if !migApplies p kind then (0x69, s)
  else if kind == .demote && s.sourceUe e p dpa then (0, s.report by_ 0x66)
  else
    match s.migDest e p kind want with
    | none => (0x06, s)
    | some (dest, dchan, dslot, s) =>
      let id := s.tier.nextMig
      let m : Mig := {
        id := id, dom := d, entry := e, page := key, dpa := dpa, kind := kind, by_ := by_,
        phase := .copying, redo := 0, blocks := [], forced := forced, want := want,
        dest := dest, dchan := dchan, dslot := dslot }
      let s := { s with tier := { s.tier with nextMig := id + 1, migs := s.tier.migs ++ [m] } }
      let s := s.setPage key (setFld p 125 125 1)
      (0, if kind == .demote then (List.range 4).foldl (fun s g => s.copyDemote m g) s else State.copyLoop 4 s id)

/-- Pages of dirty blocks kept for their promotion are promoted, as soon as no other migration of the page runs (R139); so are
pages with a block whose tag has failed, where the domain's TIERPOL lets them (R147). -/
def State.promoteHeld (s : State) : State :=
  let s := s.eng.czHeld.foldl (fun s j =>
    let dpa := j.granule * 1024 / 4096 * 4096
    let p := s.page (j.entry.mapKey dpa)
    if p.mig || p.state != 2 then s else (s.startMig j.dom j.entry dpa .promote 16 .manager true).2) s
  s.tier.tagHeld.foldl (fun s x =>
    let e := s.entry x.1
    let dpa := x.2.1 * 1024 / 4096 * 4096
    let p := s.page (e.mapKey dpa)
    if !e.valid || e.tierPol == 2 || p.mig || p.state != 2 then s
    else (s.startMig x.1 e dpa .promote 16 .manager false).2) s

/-! ### Lost metadata (R386) -/

/-- One lost page map entry replaced by a Firewood frame in poison form; the backing it named stays counted. -/
def State.loseMapEntry (s : State) (key : Nat) : State :=
  match s.domains.find? fun d => s.storesShare d.2 && decide (Entry.mapBase d.2 * 256 ≤ key) &&
      decide (key < Entry.mapBase d.2 * 256 + Entry.pages d.2) with
  | none => s
  | some (d, e) =>
    let s := match s.tier.migs.find? fun m => m.page == key with
      | some m => s.migEnd m 0x66
      | none => s
    let a := s.pageDpa e (key - e.mapBase * 256)
    let lost := pageCharge (s.tier.pmap.get key)
    match s.allocFrame e with
    | none => s
    | some (f, s) =>
      let s := (List.range 64).foldl (fun s i =>
        let (c, l) := firewoodLine e (PageEntry.toFirewood 0 f) (a + 64 * i)
        let (c, l) := s.resolve c l
        s.placeBytes c l 0 true) s
      let s := { s with tier := { s.tier with lostBack := s.tier.lostBack + if s.chargedWhole e then 0 else lost } }
      let s := s.setPage key (PageEntry.toFirewood 0 f)
      s.log { type := 0x0305, sev := 3, level := 3, ukind := 3, unit := e.owner a, dom := d, loc := a }

end Sys2Proof.Machine
end

