-- ==== Sys2Proof/Machine/Evict.lean ====
section
/-!
DEFINITION. Lines and blocks that leave the Kindling cache (R65, R69, R74, R139), and the filling of a way (R60, R63, R64, R66).
-/
namespace Sys2Proof.Machine

/-! ### Requester tracker -/

/-- The tracker entry of a line, but for one that waits on an eviction's Cmp (R80). -/
def State.trackOf (s : State) (dpa : Nat) : Option ReqTrack := s.coh.reqs.find? fun t => t.line / 64 == dpa / 64

/-- Whether a WbData or EvictNotice for a sector awaits its Cmp (R80). -/
def State.sectorEvicting (s : State) (dpa : Nat) : Bool :=
  s.coh.reqs.any fun t => (t.wait == .mia || t.wait == .evt) && t.line / 256 == dpa / 256

/-- The lowest TXN not in use, of 4,096. -/
def State.freeTxn (s : State) : Nat :=
  let used := (s.coh.reqs ++ s.link.preqs).map (·.txn) ++ s.coh.mirOut.map (·.1)
  ((List.range (used.length + 1)).find? fun t => !used.contains t).getD 0

/-- A tracker entry taken for a line homed on a peer (R80). -/
def State.track (s : State) (home line : Nat) (w : PeerWait) (r : Req) : Nat × State :=
  let t := s.freeTxn
  let e : ReqTrack := { txn := t, home := home, line := line, wait := w, req := r, held := none }
  (t, { s with coh := { s.coh with reqs := s.coh.reqs ++ [e] } })

/-- `HELD` of a WbData or EvictNotice (R78, R80): lines of the sector still held here or requested. -/
def State.heldBits (s : State) (slice dpa : Nat) : Nat :=
  (List.range 4).foldl (fun h i =>
    let a := dpa / 256 * 256 + 64 * i
    let cached := match s.kWay slice a with
      | some w => (s.kLine slice (kSet a) w).st.isPeer
      | none => false
    let asked := match s.trackOf a with
      | some t => t.wait != .mia && t.wait != .evt
      | none => false
    if cached || asked then h + 2 ^ i else h) 0

/-- The notice or writeback of an evicted peer-homed line sent to its home (Table 04-7): WbData from M, EvictNotice
otherwise. -/
def State.sendEviction (s : State) (e : Entry) (dpa : Nat) (st : LState) (x : Line) (poison : Bool) : State :=
  let home := e.homeDev (e.offset dpa)
  let held := s.heldBits (e.slice dpa) dpa
  let (t, s) := s.track home dpa (if st == .peerM then .mia else .evt) default
  let m : Msg := { (default : Msg) with dst := home, txn := t, addr := poolAddr home dpa, held := held }
  if st == .peerM then s.toPeer { m with opc := 0x80, data := x, poison := poison } else s.toPeer { m with opc := 0x81 }

/-- This device's own hosts that are recorded for a peer-homed line (R74): those whose copies exceed what remains. With
`keepShared`, only a copy held with MetaValue Any does. -/
def State.ownHosts (s : State) (slice dpa : Nat) (keepShared : Bool) : List Nat :=
  let bits := s.dirBits slice dpa
  let st := dirLs bits (lineIn dpa)
  if st == dirHE then [dirPtr bits (lineIn dpa)]
  else if st == dirU || keepShared then []
  else ((bitsOf 16 (BitVec.ofNat 16 (dirHosts bits))).map s.portsUnder).flatten

/-- A recall of this device's own hosts begun (R74). -/
def State.startRecall (s : State) (slice dpa : Nat) (ports : List Nat) (kind : Nat) (snoop : Option Msg) (st : LState)
    (x : Line) (poison : Bool) : State :=
  let rc : HostRecall := { line := dpa, ports := ports, snoop := snoop, st := st, poison := poison, data := x }
  let s := { s with coh := { s.coh with recalls := s.coh.recalls ++ [rc] } }
  ports.foldl (fun s p => s.biSnp slice p dpa kind) s

/-! ### Eviction (Table 03-4) -/

/-- A block given to a compressor queue with room (R135): true, with `MAXSECT` and `PATEN` noted when its compression starts at
once (R134, R141). -/
def State.offerTo (s : State) (home : Nat) (j : CzJob) : Bool × State :=
  match chooseEngine (fun e => !s.flag (R.ENG_CZCTL_CDIS e)) (fun e => (s.eng.cq.get e).length) home j.first with
  | some e => (true, s.joinCompress e home j)
  | none => (false, s)

/-- Whether no compressor of the device is in service (R139, R141). -/
def State.noCompressor (s : State) : Bool := (List.range 16).all fun k => s.flag (R.ENG_CZCTL_CDIS k)

/-- A dirty block that is to leave: to a compressor with room, while it stays where it is until the block is taken (R65, R139).
One that holds poison (R310), or that finds no compressor in service, is kept dirty for its page's promotion (R139). With every
queue full it waits. -/
def State.sendBlock (s : State) (slice d : Nat) (e : Entry) (granule : Nat) (data : List Byte) (poison : Bool) (place : JobAt) :
    State :=
  if s.blockSent granule || s.blockKept granule then s
  else
    let j : CzJob := {
      dom := d, entry := e, granule := granule, data := data, poison := poison, mig := none, first := none, place := place }
    if poison || s.noCompressor then { s with eng := { s.eng with czHeld := s.eng.czHeld ++ [j] } }
    else
      let r := s.offerTo slice j
      if r.1 then r.2.countBlk slice 0x16 1 (some d) (some e.qclass) else s

/-- A dirty block in a way sent on its way out. -/
def State.evictBlock (s : State) (slice granule w : Nat) : State :=
  match s.domOf (granule * 1024) with
  | some (d, e) => s.sendBlock slice d e granule (s.blockBytes slice granule w) (s.blockPoison slice granule w) .way
  | none => s

/-- A peer-homed line sent home from its way (Table 03-4). -/
def State.evictPeer (s : State) (slice set w : Nat) (e : Entry) : State :=
  let l := s.kLine slice set w
  let a := lineAddr set l
  (s.kDrop slice set w).sendEviction e a l.st l.data l.poison

/-- The line or block in a way of a set taken as far out as it goes (R65): true once the way is free. A line leaves only when its
data finds a place: a Home Dirty line in its channel's write queue, a dirty block by way of a compressor, a peer line in a WB message
after its own hosts have given up their copies (R74). -/
def State.evictWay (s : State) (slice set w : Nat) : Bool × State :=
  let l := s.kLine slice set w
  let a := lineAddr set l
  match l.st with
  | .invalid => (true, s)
  | .homeClean => (true, s.kDrop slice set w)
  | .homeDirty =>
    if l.blk then
      if (s.domOf (l.tag * 1024)).isSome then (false, s.evictBlock slice l.tag w) else (true, s.kDrop slice set w)
    else
      match s.domOf a with
      | none => (true, s.kDrop slice set w)
      | some (d, e) =>
        let (c, x) := firewoodLine e (s.page (Entry.mapKey e a)) a
        let (c, x) := s.resolve c x
        if !s.wqRoom c x false || s.noEncrypt (Entry.encrypt e) then (false, s)
        else
          let s := s.countBlk slice 0x16 1 (some d) (some (Entry.qclass e))
          (true, (s.kDrop slice set w).queueLine d e a l.data l.poison false)
  | _ =>
    match s.domOf a with
    | none => (true, s.kDrop slice set w)
    | some (_, e) =>
      if s.coh.recalls.any fun r => r.line / 64 == a / 64 then (false, s)
      else
        let ports := s.ownHosts slice a false
        if ports.isEmpty then (true, s.evictPeer slice set w e)
        else (false, s.startRecall slice a ports biInv none l.st l.data l.poison)

/-- Ways, by their keys, all taken out: true once every one is free. -/
def State.evictAllOf (s : State) (ks : List Nat) : Bool × State :=
  ks.foldl (fun a k => let r := a.2.evictWay (k / 16 / 12288) (k / 16 % 12288) (k % 16); (a.1 && r.1, r.2)) (true, s)

/-- Every line of a way of a set group taken out, for a block fill (R64). -/
def State.evictGroup (s : State) (slice granule w : Nat) : Bool × State :=
  s.evictAllOf ((List.range 16).map fun i => kKey slice (16 * (granule % 768) + i) w)

/-! ### Ways out of service (R67, R384) -/

/-- A way of a slice emptied as far as it goes: written back where it is dirty, and removed. -/
def State.drainWay (s : State) (slice w : Nat) : State :=
  let keys := (s.kind.lines.cells.map (·.1)).filter fun k => k / 16 / 12288 == slice && k % 16 == w
  let r := s.evictAllOf keys
  if r.1 then { r.2 with kind := { r.2.kind with drain := r.2.kind.drain.filter (· != slice * 16 + w) } } else r.2

/-- A way of a slice cleaned and invalidated before it leaves service (R67); what cannot leave yet follows (R65). -/
def State.emptyWay (s : State) (slice w : Nat) : State :=
  let k := slice * 16 + w
  let s := if s.kind.drain.contains k then s else { s with kind := { s.kind with drain := s.kind.drain ++ [k] } }
  s.drainWay slice w

/-- The ways that are being emptied taken further. -/
def State.settleDrains (s : State) : State := s.kind.drain.foldl (fun s k => s.drainWay (k / 16) (k % 16)) s

/-- A word of a way found wrong in its SRAM, lasting: at 4 uncorrectable or 64 correctable words in an hour the region fault
handler takes the way out of service, up to 8 ways of a slice (Table 17-6). -/
def State.wayWord (s : State) (slice w : Nat) (ue : Bool) : State :=
  let l := (s.kind.sramErr.get (slice * 16 + w) ++ [(s.gtc, ue)]).filter fun x => decide (s.gtc ≤ x.1 + 3600000000000)
  let s := { s with kind := { s.kind with sramErr := s.kind.sramErr.put (slice * 16 + w) l } }
  let dis := s.rd (R.KS_WAYDIS_WAYS slice)
  let many := (l.filter (·.2)).length ≥ 4 || (l.filter fun x => !x.2).length ≥ 64
  if many && !dis.testBit w && (bitsOf 16 (BitVec.ofNat 16 dis)).length < 8 then
    (s.wr (R.KS_WAYDIS_WAYS slice) (dis + 2 ^ w)).emptyWay slice w
  else s

/-! ### Fills -/

/-- The victim of a paced read's fill let go in its slot (R66): a dirty block leaves its way for a compressor input buffer when one
has room; every other victim leaves as `evictWay` lets it. -/
def State.evictNow (s : State) (slice set w : Nat) : Bool × State :=
  let l := s.kLine slice set w
  if l.st == .homeDirty && l.blk then
    match s.domOf (l.tag * 1024) with
    | none => (true, s.kDrop slice set w)
    | some (d, e) =>
      if s.blockSent l.tag then
        let out := fun j : CzJob => if j.granule == l.tag && j.mig.isNone then { j with place := .out } else j
        (true, ({ s with eng := { s.eng with
          cq := (List.range 16).foldl (fun t k => t.upd k (·.map out)) s.eng.cq, czWait := s.eng.czWait.map out } } : State).kDrop
            slice set w)
      else if s.blockKept l.tag || s.blockPoison slice l.tag w then (false, s)
      else
        let r := s.offerTo slice {
          dom := d, entry := e, granule := l.tag, data := s.blockBytes slice l.tag w, poison := false, mig := none, first := none }
        if r.1 then (true, (r.2.kDrop slice set w).countBlk slice 0x16 1 (some d) (some (Entry.qclass e))) else (false, s)
  else
    let r := s.evictWay slice set w
    if r.1 then r else (false, s)

/-- A line fill (R60): true once it is done. It is dropped where no way may take it (R63), and where a paced read's fill would have
to wait (R66); another waits until its victim has left (R65). -/
def State.fillLine (s : State) (slice : Nat) (e : Entry) (dpa : Nat) (st : LState) (x : Line) (poison : Bool) : Bool × State :=
  if !s.hasWay slice e then (true, s)
  else
    let w := s.lineVictim slice dpa (s.fillWays slice e)
    let r := if e.paced then s.evictNow slice (kSet dpa) w else s.evictWay slice (kSet dpa) w
    if r.1 then (true, r.2.kInstall slice dpa w st x poison) else (e.paced, r.2)

/-- A block fill in a way that R62 and R63 allow (R60, R64): true once it is installed; it waits until the lines of its victim have
left (R65). -/
def State.fillBlock (s : State) (slice : Nat) (e : Entry) (granule : Nat) (st : LState) (bytes : List Byte) : Bool × State :=
  let w := s.blockVictim slice granule (s.fillWays slice e)
  let r := s.evictGroup slice granule w
  if r.1 then (true, (r.2.countBlk slice 0x15 1 none none).kInstallBlock slice granule w st bytes) else r

end Sys2Proof.Machine
end

