-- ==== Sys2Proof/Machine/Home.lean ====
section
/-!
DEFINITION. The home slice: how it serialises requests (R72, R87), what it sends for each (R85, Table 04-9), how it reads and
writes lines (R30 to R32, R60, R99), draws backing (R117, R120), mirrors writes (R57) and answers. The commands that start
this work are in `Host`, `Coherence` and `Pool`.
-/
namespace Sys2Proof.Machine

/-! ### Transactions and the ordering queue -/

/-- A transaction of the home. -/
def State.tx (s : State) (id : Nat) : Option HomeTx := s.coh.txs.find? fun t => t.id == id
/-- The state with a transaction changed. -/
def State.updTx (s : State) (id : Nat) (f : HomeTx → HomeTx) : State :=
  { s with coh := { s.coh with txs := s.coh.txs.map fun t => if t.id == id then f t else t } }
/-- A transaction ended. -/
def State.endTx (s : State) (id : Nat) : State := { s with coh := { s.coh with txs := s.coh.txs.filter fun t => t.id != id } }
/-- The lowest transaction number not in use. -/
def State.freeTx (s : State) : Nat :=
  ((List.range (s.coh.txs.length + 1)).find? fun i => !s.coh.txs.any fun t => t.id == i).getD 0
/-- A transaction begun. -/
def State.newTx (s : State) (t : HomeTx) : HomeTx × State :=
  let t := { t with id := s.freeTx }
  (t, { s with coh := { s.coh with txs := s.coh.txs ++ [t] } })
/-- Whether a slice's 512 transaction entries are in use (R82). -/
def State.txFull (s : State) (slice : Nat) : Bool :=
  decide ((s.coh.txs.filter fun t => t.busy && t.slice == slice).length ≥ 512)

/-- The slice that orders a request here: R44 with the entry it decoded under (R58). -/
def Req.slice (r : Req) : Nat := r.entry.slice r.addr

/-- A request put at the end of its slice's ordering queue (R29). -/
def State.enqueue (s : State) (r : Req) : State :=
  { s with coh := { s.coh with ordq := s.coh.ordq.upd r.slice (· ++ [r]) } }
/-- A request put back in its slice's ordering queue, ahead of the later requests for its line (R29). -/
def State.requeue (s : State) (r : Req) : State :=
  let (a, b) := (s.coh.ordq.get r.slice).span fun q => q.addr / 64 != r.addr / 64
  { s with coh := { s.coh with ordq := s.coh.ordq.put r.slice (a ++ r :: b) } }

/-- Whether a granule is held: by a block fill (R61), a migration (R112), or a dirty block on its way through a compressor
(R141). -/
def State.granuleHeld (s : State) (dpa : Nat) : Bool :=
  (s.kind.fills.any fun f => f.granule == dpa / 1024) || s.migHolds dpa || s.blockSent (dpa / 1024) ||
    (s.blockAway (dpa / 1024)).isSome

/-- Whether work on a line keeps a request for it waiting (R29, R61, R80, R91). -/
def State.lineBusy (s : State) (dpa : Nat) : Bool :=
  (s.coh.txs.any fun t => t.touches dpa) || (s.trackOf dpa).isSome ||
    (s.coh.recalls.any fun r => r.line / 64 == dpa / 64) || s.granuleHeld dpa

/-! ### Answers -/

/-- A message of the home to a peer about a line. -/
def Req.toMsg (r : Req) (opc : Nat) : Msg :=
  let d := match r.agent with
    | .peer d => d
    | .host _ => 0
  { (default : Msg) with opc := opc, dst := d, txn := r.tag, addr := poolAddr (r.entry.homeDev (r.entry.offset r.addr)) r.addr }

/-- Read data sent to the requester (R83, R85, R96). -/
def State.sendData (s : State) (r : Req) (grant : Nat) (x : Line) (poison : Bool) : State :=
  match r.agent with
  | .host _ => s.toHost r true x poison 0
  | .peer _ =>
    s.toPeer { r.toMsg (if r.op == .pRd then 0xE0 else 0x60) with grant := grant, poison := poison, data := x } r

/-- A completion sent to the writer. -/
def State.sendCmp (s : State) (r : Req) : State :=
  match r.agent with
  | .host _ => s.toHost r false 0 false 0
  | .peer _ => s.toPeer (r.toMsg (if r.op == .pWr then 0xE1 else 0x44)) r

/-- The paced source a request came from (R226). -/
def Req.source (r : Req) : Nat :=
  match r.agent with
  | .host p => p
  | .peer d => 32 + d

/-- The write credit of a request whose data holds no channel entry: its return falls due at once (R226). -/
def State.freeWriteCredit (s : State) (r : Req) : State := if r.credit == 2 then s.returnCredit r.source 1 else s

/-- A refused request: poison to a read, completion of a discarded write, or Err (R48, R49, R97). -/
def State.refuse (s : State) (r : Req) (err outcome : Nat) : State :=
  match r.agent with
  | .host _ =>
    match r.op with
    | .hostRd _ => s.toHost r true 0 true outcome
    | _ => (s.freeWriteCredit r).toHost r false 0 false outcome
  | .peer _ => s.toPeer { r.toMsg 0x45 with err := err } r

/-! ### Media poison list (R310) -/

/-- A line listed: sources 0 Internal, 1 External, 2 Injected. A full list sets the overflow flag. -/
def State.listPoison (s : State) (d dpa src : Nat) : State :=
  if s.dram.media.any fun m => m.2.1 == dpa then s
  else if s.dram.media.length ≥ 1024 then
    { s with dram := { s.dram with mediaFull := some (s.dram.mediaFull.getD s.gtc) } }
  else { s with dram := { s.dram with media := s.dram.media ++ [(d, dpa, src)] } }

/-- A line taken off the list, by a full-line write without poison. -/
def State.unlistPoison (s : State) (dpa : Nat) : State :=
  { s with dram := { s.dram with media := s.dram.media.filter fun m => m.2.1 != dpa } }

/-! ### Requests by kind -/

/-- The request as this home serves it: a head that runs HDM-H reads as with MetaValue Invalid and holds nothing (R300). -/
def State.effective (s : State) (r : Req) : Req :=
  match r.agent with
  | .host p =>
    if s.hdmDb p then r
    else match r.op with
      | .hostRd _ => { r with op := .hostRd .invalid }
      | .hostWr _ => { r with op := .hostWr .invalid }
      | .hostPtl _ => { r with op := .hostPtl .invalid }
      | _ => r
  | .peer _ => r

def ReqOp.isWrite : ReqOp → Bool
  | .hostWr _ | .hostPtl _ | .wrCur | .wrPtl | .pWr => true
  | _ => false

/-- Whether a write is of the whole line (R30, R31). -/
def Req.fullLine (r : Req) : Bool :=
  match r.op with
  | .hostWr _ | .wrCur => true
  | _ => r.be == BitVec.allOnes 64

/-- Whether serving a request records a copy, so that its sector needs an entry (R75, Table 04-9). -/
def ReqOp.records : ReqOp → Bool
  | .hostRd .invalid | .rdCur | .wrCur | .wrPtl | .pRd | .pWr => false
  | .hostWr mv | .hostPtl mv => mv == .any
  | _ => true

/-! ### Snoops (R77, R85) -/

/-- The snoops a request calls for: opcodes to peers, back-invalidation kinds to ports, and the device a forward is asked
of. -/
structure Plan where
  peers : List (Nat × Nat)
  ports : List (Nat × Nat)
  fwd : Option Nat
deriving DecidableEq, Repr, Inhabited

/-- The peers of a vector but for the requester. -/
def otherPeers (bits : BitVec 64) (a : Agent) : List Nat :=
  (bitsOf 16 (BitVec.ofNat 16 (dirPeers bits))).filter fun d => a != .peer d

/-- The ports of a vector but for the requester's. -/
def State.otherPorts (s : State) (bits : BitVec 64) (a : Agent) : List Nat :=
  (((bitsOf 16 (BitVec.ofNat 16 (dirHosts bits))).map s.portsUnder).flatten).filter fun p => a != .host p

/-- INV: SnpInv to every recorded device and BISnpInv to every recorded host but the requester. -/
def State.planInv (s : State) (bits : BitVec 64) (a : Agent) : Plan :=
  { peers := (otherPeers bits a).map (·, 0x20), ports := (s.otherPorts bits a).map (·, biInv), fwd := none }

/-- Table 04-9: what the home sends before it serves a request for a line in its state. -/
def State.plan (s : State) (bits : BitVec 64) (i : Nat) (r : Req) : Plan :=
  let st := dirLs bits i
  let ptr := dirPtr bits i
  let none_ : Plan := default
  if st == dirU then none_
  else
    match r.op with
    | .rdS =>
      if (st == dirSF || st == dirPE) && r.agent != .peer ptr then
        { peers := [(ptr, 0x22)], ports := [], fwd := some ptr }
      else if st == dirHE then { peers := [], ports := [(ptr, biData)], fwd := none }
      else none_
    | .rdCur =>
      if st == dirPE && r.agent != .peer ptr then { peers := [(ptr, 0x23)], ports := [], fwd := some ptr }
      else if st == dirHE then { peers := [], ports := [(ptr, biData)], fwd := none }
      else none_
    | .hostRd .any => if st == dirHE && r.agent == .host ptr then none_ else s.planInv bits r.agent
    | .hostRd _ =>
      if st == dirPE then { peers := [(ptr, 0x21)], ports := [], fwd := none }
      else if st == dirHE && r.agent != .host ptr then { peers := [], ports := [(ptr, biData)], fwd := none }
      else none_
    | .pRd | .pWr => none_
    | _ => s.planInv bits r.agent

/-- One snoop of a transaction sent, with `ORD` as R88 gives it. -/
def State.sendSnoop (s : State) (t : HomeTx) (d opc : Nat) : State :=
  let bits := s.dirBits t.slice t.line
  let st := dirLs bits (lineIn t.line)
  let ord := (st == dirSF || st == dirPE) && dirPtr bits (lineIn t.line) == d
  let rd := match t.req.agent with
    | .peer q => q
    | .host _ => 0
  let fwd := opc == 0x22 || opc == 0x23
  let m : Msg := { (default : Msg) with
    opc := opc, dst := d, txn := t.id, addr := poolAddr s.devNum t.line, ord := ord,
    reqDev := if fwd then rd else 0, reqTxn := if fwd then t.req.tag else 0 }
  (s.countBlk t.slice 0x17 1 none none).toPeer m

/-! ### Serving -/

/-- The directory after a request has been served: state, pointer and vector bits of the requester (Table 04-9). `st` is the
line's state when it is served. -/
def State.recordCopy (s : State) (slice : Nat) (r : Req) (st : Nat) (grant : Nat) : State :=
  let bits := s.dirBits slice r.addr
  let i := lineIn r.addr
  let bits' := match r.agent, r.op with
    | .peer d, .rdS => dirPeer (dirSet bits i (if grant == 3 then dirPE else dirSF) d) d true
    | .peer d, .rdOwn => dirPeer (dirSet bits i dirPE d) d true
    | .peer _, .rdCur => if st == dirHE then dirSet bits i dirSH 0 else bits
    | .peer _, _ => dirSet bits i dirU 0
    | .host p, .hostRd .any => dirHost (dirSet bits i dirHE p) (s.place p).group true
    | .host p, .hostRd mv =>
      let keep := st == dirSF || (st == dirHE && dirPtr bits i == p)
      let b := if keep then bits
        else if st == dirU && mv == .invalid then bits
        else dirSet bits i dirSH 0
      if mv == .shared then dirHost b (s.place p).group true else b
    | .host p, .hostWr .any | .host p, .hostPtl .any => dirHost (dirSet bits i dirHE p) (s.place p).group true
    | .host _, _ => dirSet bits i dirU 0
  s.putDir slice r.addr bits'

/-- The grant of an RdS served from memory (R85, R89): F (2), or E (3). -/
def grantRdS (bits : BitVec 64) (st : Nat) (a : Agent) (hostShared : Bool) : Nat :=
  if st == dirU then 3
  else if st == dirSH then 2
  else if st == dirHE then (if hostShared then 2 else 3)
  else if (otherPeers bits a).isEmpty && dirHosts bits == 0 then 3
  else 2

/-- Whether the line is homed on this device. -/
def State.homeHere (s : State) (r : Req) : Bool := s.homedHere r.entry r.addr

/-- Whether a transaction has to wait before it is served: a request for the broadcast invalidation of its sector's uncorrectable
directory entry (R92), or for returned data of its line that has yet to find its place (R86); a mirror write for an earlier one of its
line (R57). -/
def State.gated (s : State) (t : HomeTx) : Bool :=
  match t.purpose with
  | .serve => s.coh.txs.any fun u =>
      (t.lost && u.purpose == .dirLost && u.line / 256 == t.line / 256) || (u.purpose == .absorb && u.line / 64 == t.line / 64)
  | .mirIn => (s.coh.txs.takeWhile fun u => u.id != t.id).any fun u => u.purpose == .mirIn && u.line / 64 == t.line / 64
  | _ => false

/-- A transaction kept with what it has for what is left to do: data that waits for a victim to leave (R65), or with none, to be
served again. -/
def State.park (s : State) (t : HomeTx) (got : Option (Line × Bool)) : State :=
  s.updTx t.id fun _ => { t with phase := .install, got := got }

/-- Data for a transaction: the copy recorded, the answer sent, the transaction ended. One that has to wait is served again later. -/
def State.deliver (s : State) (t : HomeTx) (x : Line) (poison : Bool) : State :=
  if s.gated t then s.park t none
  else
  let r := t.req
  let s := s.endTx t.id
  if r.op == .pRd || r.entry.paced then s.sendData r 0 x poison
  else
    let bits := s.dirBits t.slice r.addr
    let st := dirLs bits (lineIn r.addr)
    let grant := match r.op with
      | .rdS => grantRdS bits st r.agent t.hostShared
      | .rdOwn => 3
      | _ => 0
    let s := if r.op == .rdCur && t.fwd.isSome && st != dirU then s.dirLine t.slice r.addr dirSH 0 else s
    (s.recordCopy t.slice r st grant).sendData r grant x poison

/-- A MirWr or MirRd sent for a transaction (R57). -/
def State.mirror (s : State) (opc tx partner dpa : Nat) (x : Line) (poison : Bool) : State :=
  let n := s.freeTxn
  let s := { s with coh := { s.coh with mirOut := s.coh.mirOut ++ [(n, tx, partner)] } }
  s.toPeer { (default : Msg) with
    opc := opc, dst := partner, txn := n, addr := poolAddr s.devNum dpa, data := x, poison := poison }

/-- Whether a line's writes are mirrored to a partner now (R57). -/
def State.mirrors (s : State) (d : Nat) (e : Entry) (dpa : Nat) : Bool :=
  e.repl && !Entry.mirrorLost (s.entry d) && s.homedHere e dpa && !s.peerLost e.replDev

/-- A write that has reached its place: mirrored where the domain is replicated (R57), then completed. Returned data is mirrored
likewise and completes nothing (R86); a partner's write is answered with Cmp. -/
def State.finishWrite (s : State) (t : HomeTx) : State :=
  let r := t.req
  if t.purpose == .mirIn then (s.endTx t.id).sendCmp r
  else
    let st := dirLs (s.dirBits t.slice r.addr) (lineIn r.addr)
    let s := if r.entry.paced || t.purpose == .absorb then s else s.recordCopy t.slice r st 0
    if s.mirrors r.dom r.entry r.addr then
      let (x, poison) := s.lineNow r.dom r.entry r.addr
      let p := if t.purpose == .absorb then TxPurpose.recall r.dom false else t.purpose
      let s := s.updTx t.id fun _ => { t with phase := .mirror, purpose := p }
      s.mirror 0x82 t.id r.entry.replDev r.addr x poison
    else if t.purpose == .absorb then s.endTx t.id
    else (s.endTx t.id).sendCmp r

/-- The bytes of a write over what a line holds. -/
def Req.merged (r : Req) (old : Line) : Line := if r.fullLine then r.data else mergeBytes old r.data r.be

/-- Whether a line stays or becomes poisoned under a write: a full-line write takes the writer's poison, a narrow write keeps
the line's (R204). -/
def Req.poisons (r : Req) (old : Bool) : Bool := if r.fullLine then r.poison else old || r.poison

/-- The media poison list after a write (R310). -/
def State.writeListed (s : State) (r : Req) : State :=
  if r.poison then s.listPoison r.dom r.addr 1 else if r.fullLine then s.unlistPoison r.addr else s

/-- A write merged into a line of the Kindling cache (R30 to R32, R60). -/
def State.writeHit (s : State) (t : HomeTx) (w : Nat) (st : LState) : State :=
  let r := t.req
  let l := s.kLine t.slice (kSet r.addr) w
  let s := s.kWrite t.slice r.addr w st (r.merged l.data) (r.poisons l.poison)
  let s := s.freeWriteCredit r
  if st == .peerM then s else (s.writeListed r).redo r.dom r.entry r.addr

/-- The place of a line of a Firewood page once redirection is applied. -/
def State.placeOf (s : State) (e : Entry) (dpa : Nat) : Nat × Nat :=
  let (c, l) := firewoodLine e (s.page (e.mapKey dpa)) dpa
  s.resolve c l

/-- The paced write credit a request's entry keeps until it is released to DRAM (R226). -/
def Req.holdsCredit (r : Req) : Nat :=
  if r.credit == 2 then 1 + r.source else 0

/-- The write-queue entry of a line's Firewood place has room (R165). -/
def State.lineRoom (s : State) (e : Entry) (dpa : Nat) (paced : Bool) : Bool :=
  let (c, l) := s.placeOf e dpa
  s.wqRoom c l paced

/-- A full-line write to a line of a Firewood page that misses (R30, R60, R63, R66): installed once its victim has left, or queued
once the channel has room. True once it is done. -/
def State.writeLine (s : State) (t : HomeTx) : Bool × State :=
  let r := t.req
  let e := r.entry
  let listed := fun (s : State) => (s.writeListed r).redo r.dom e r.addr
  if e.paced || t.purpose == .mirIn || !s.hasWay t.slice e then
    if s.lineRoom e r.addr e.paced && !s.noEncrypt e.encrypt then (true, (listed s).queueLine r.dom e r.addr r.data r.poison false r.holdsCredit)
    else (false, s)
  else
    let w := s.lineVictim t.slice r.addr (s.fillWays t.slice e)
    let v := s.evictWay t.slice (kSet r.addr) w
    if v.1 then (true, ((listed v.2).kInstall t.slice r.addr w .homeDirty r.data r.poison).freeWriteCredit r) else v

/-- Whether a narrow write finds a merge-buffer entry (Table 01-7, R34): a paced one among those that its feature holds, then in the
general pool, which the others share. -/
def State.mergeRoom (s : State) (c : Nat) (paced : Bool) : Bool :=
  let ms := (s.dram.chans.get c).merges
  let mine := (ms.filter (·.paced)).length
  let held := s.claim.merge.get (c * 256 + 0x30)
  (paced && decide (mine < held)) || decide (ms.length - min mine held < s.mergePool c)

/-- A narrow write to a line of a Firewood page that misses: merged in the channel once a merge-buffer entry is free (R31, R60). -/
def State.writeNarrow (s : State) (t : HomeTx) : Bool × State :=
  let r := t.req
  let e := r.entry
  let (c, l) := s.placeOf e r.addr
  let (c0, l0) := firewoodLine e (s.page (e.mapKey r.addr)) r.addr
  if !s.mergeRoom c e.paced || !s.rqRoom c (l % 2) 1 e.paced then (false, s)
  else
    let m : MergeEntry := {
      id := 0, line := l0, addr := r.addr, dom := r.dom, enc := e.encrypt, data := r.data, be := r.be, poison := r.poison,
      paced := e.paced, credit := r.holdsCredit }
    let s := (s.writeListed r).pushMerge c0 m
    (true, (s.heat (e.owner r.addr) (e.mapKey r.addr)).redo r.dom e r.addr)

/-- A write to a line of a Firewood page that misses. True once it is done; else it has to wait. -/
def State.writeMiss (s : State) (t : HomeTx) : Bool × State := if t.req.fullLine then s.writeLine t else s.writeNarrow t

/-- Whether every decompressor, or every decrypt pipeline that a domain needs, is out of service (R141, R149). -/
def State.noDecoder (s : State) (e : Entry) : Bool :=
  ((List.range 16).all fun k => s.flag (R.ENG_CZCTL_DDIS k)) ||
    (e.encrypt && (List.range 16).all fun k => s.flag (R.ENG_XCTL_XDDIS k))

/-- The reads of a block's sectors queued (R61, R168): one to each sector from `first` of a channel. -/
def State.readSectors (s : State) (f : Fill) : State :=
  (List.range f.n).foldl (fun s i =>
    let (c, l) := s.resolve f.chan (f.csect + i)
    s.pushRead c l (.sector f.id i)) s

/-- A block fill begun for a transaction (R61): the granule is held until the block is installed. A zero block needs no DRAM access
(R105). -/
def State.startFill (s : State) (t : HomeTx) (staged second : Bool) : Nat × State :=
  let e := t.req.entry
  let p := s.page (e.mapKey t.req.addr)
  let g := t.req.addr / 1024
  let id := s.dram.nextId
  let n := p.blen (g % 4)
  let f : Fill := {
    id := id, slice := t.slice, dom := t.req.dom, entry := e, granule := g, chan := p.cchan,
    csect := p.csect + p.blockAt (g % 4), n := n, index := g % 4, got := [], bad := false, unit := [],
    out := if n == 0 then List.replicate 1024 0 else [], ready := n == 0, staged := staged, second := second, cause := 0, first := none }
  let s := { s with
    dram := { s.dram with nextId := id + 1 }, kind := { s.kind with fills := s.kind.fills ++ [f] } }
  let s := (s.heat (e.owner t.req.addr) (e.mapKey t.req.addr)).updTx t.id fun _ => { t with phase := .block }
  (id, s.readSectors f)

/-- A transaction given up for now: its request waits in the ordering queue again. Returned data and a partner's write have no
request: they wait where they are. -/
def State.backToQueue (s : State) (t : HomeTx) : State :=
  if t.purpose == .serve then (s.endTx t.id).requeue t.req else s.park t none

/-- A fill. -/
def State.fill (s : State) (id : Nat) : Option Fill := s.kind.fills.find? fun f => f.id == id
/-- A fill changed. -/
def State.updFill (s : State) (id : Nat) (f : Fill → Fill) : State :=
  { s with kind := { s.kind with fills := s.kind.fills.map fun x => if x.id == id then f x else x } }
/-- A fill ended. -/
def State.dropFill (s : State) (id : Nat) : State :=
  { s with kind := { s.kind with fills := s.kind.fills.filter fun x => x.id != id } }

/-- The transactions that wait for a fill: returned data first, which the home has absorbed already (R86), then requests. -/
def State.waitsOn (s : State) (f : Fill) : List HomeTx :=
  let ts := s.coh.txs.filter fun t => t.phase == .block && t.line / 1024 == f.granule
  (ts.filter fun t => t.purpose != .serve) ++ ts.filter fun t => t.purpose == .serve

/-- Poison found in the home's stored line: the partner's copy is asked for where the domain is mirrored (R57), else the reader gets
the poison. -/
def State.deliverLost (s : State) (t : HomeTx) : State :=
  let r := t.req
  if t.purpose == .serve && s.mirrors r.dom r.entry r.addr then
    (s.updTx t.id fun _ => { t with phase := .mirrorRead }).mirror 0xA2 t.id r.entry.replDev r.addr 0 false
  else s.deliver t 0 true

/-- A block that cannot be opened (R138, R147): not installed; poison to each read that waits for it, the failure recorded once for
the block, writes left to wait for its promotion. -/
def State.loseBlock (s : State) (f : Fill) (type2 : Nat) : State :=
  let ts := s.waitsOn f
  let s := (s.dropFill f.id).holdTag f type2
  ts.foldl (fun s t => if t.req.op.isWrite then s.backToQueue t else s.deliverLost t) s

/-- A write merged into a block in a staging buffer, or a read served from it (R63). -/
def State.serveStaged (s : State) (id : Nat) (t : HomeTx) : State :=
  match s.fill id with
  | none => s
  | some f =>
    let at_ := t.line % 1024
    let i := t.line / 64 % 16
    let old : Line := ofLe 512 ((f.out.drop at_).take 64)
    if s.gated t then s.park t none
    else if t.req.op.isWrite then
      let x := t.req.merged old
      let bad := t.req.poisons (f.poison.getLsbD i)
      let s := s.updFill id fun f => { f with
        out := f.out.take at_ ++ leBytes 64 x ++ f.out.drop (at_ + 64), dirty := true,
        poison := if bad then f.poison ||| BitVec.ofNat 16 (2 ^ i) else f.poison &&& ~~~(BitVec.ofNat 16 (2 ^ i)) }
      (((s.writeListed t.req).freeWriteCredit t.req).redo f.dom f.entry t.line).finishWrite t
    else s.deliver t old (f.poison.getLsbD i)

/-- A block in a staging buffer that has been written sent to be recompressed and rewritten at once, as if it had been evicted dirty
(R63); a clean one gives its buffer up. -/
def State.sendStaged (s : State) (id : Nat) : State :=
  match s.fill id with
  | none => s
  | some f =>
    if !f.dirty then s.dropFill id
    else s.sendBlock f.slice f.dom f.entry f.granule f.out (f.poison != 0) (.staged id)

/-- A transaction served from the line a fill has brought in. -/
def State.serveFilled (s : State) (t : HomeTx) : State :=
  match s.kWay t.slice t.line with
  | some w =>
    if s.gated t then s.park t none
    else if t.req.op.isWrite then (s.writeHit t w .homeDirty).finishWrite t
    else
      let l := s.kLine t.slice (kSet t.line) w
      (s.kTouch t.slice t.line w).deliver t l.data l.poison
  | none => s.backToQueue t

/-- The staging buffers of a slice in use, of 4 (R63). -/
def State.stagedIn (s : State) (slice : Nat) : Nat := (s.kind.fills.filter fun f => f.slice == slice && f.staged).length

/-- A block whose decompressed lines are ready installed in a way that R62 or R63 allows now, or kept in a staging buffer where none
is, and the requests that wait for it served (R60, R61, R63). It waits until its victim has left (R65), or a buffer is free. -/
def State.installFill (s : State) (id : Nat) : State :=
  match s.fill id with
  | none => s
  | some f =>
    if !f.ready || f.dirty then s
    else
      let ts := s.waitsOn f
      if (s.kWay f.slice (f.granule * 1024)).isSome then ts.foldl (fun s t => s.serveFilled t) (s.dropFill id)
      else if s.hasWay f.slice f.entry then
        let r := s.fillBlock f.slice f.entry f.granule .homeClean f.out
        if r.1 then ts.foldl (fun s t => s.serveFilled t) (r.2.dropFill id)
        else r.2.updFill id fun f => { f with asked := true }
      else if f.staged || s.stagedIn f.slice < 4 then
        (ts.foldl (fun s t => s.serveStaged id t) (s.updFill id fun f => { f with staged := true })).sendStaged id
      else s.updFill id fun f => { f with asked := true }

/-- A Charcoal block brought in for a transaction (R32, R60, R63, R105). While the block is on its way to its slot a request waits
(R141); returned data and a mirror write merge into the copy in a staging buffer (R86). -/
def State.needBlock (s : State) (t : HomeTx) : State :=
  let e := t.req.entry
  let p := s.page (e.mapKey t.req.addr)
  let n := p.blen (t.req.addr / 1024 % 4)
  let g := t.req.addr / 1024
  if t.purpose != .serve && s.kind.fills.any fun f => f.granule == g && f.dirty then
    match s.kind.fills.find? fun f => f.granule == g && f.dirty with
    | some f => s.serveStaged f.id t
    | none => s
  else if s.blockSent g || (s.blockAway g).isSome then s.backToQueue t
  else if (s.kind.fills.any fun f => f.granule == t.req.addr / 1024 && !f.dirty) then s.updTx t.id fun _ => { t with phase := .block }
  else
    let staged := !s.hasWay t.slice e
    if (staged && s.stagedIn t.slice ≥ 4) || (n != 0 && (s.noDecoder e ||
        !s.sectorRoom p.cchan (p.csect + p.blockAt (t.req.addr / 1024 % 4)) n)) then s.backToQueue t
    else
      let lost := n != 0 && s.chanState (s.resolve p.cchan p.csect).1 == 6
      let (id, s) := s.startFill t staged false
      if lost then
        match s.fill id with
        | some f => s.loseBlock f 0x0202
        | none => s
      else if n == 0 then s.installFill id
      else s

/-- An uncorrectable Kindling line found (R69): a clean one is invalidated, to be fetched again by the request that needs it (a
peer's with its EvictNotice, R89); a dirty one is marked and written back as poison. It is recorded and counted. -/
def State.lineUpset (s : State) (slice dpa w : Nat) : State :=
  let set := kSet dpa
  let l := s.kLine slice set w
  let gone := l.st == .homeDirty || l.st == .peerM
  let s := s.log {
    type := 0x0304, sev := if gone then 3 else 1, cls := if gone then 2 else 1, level := 1, ukind := 3, unit := slice, loc := dpa }
  let s := if gone then ((s.setKLine slice set w { l with poison := true, upset := true }).evictWay slice set w).2
    else if l.st.isPeer then (s.evictWay slice set w).2
    else s.kDrop slice set w
  s.wayWord slice w true

/-- The transaction with its request's trace marked. -/
def HomeTx.mark (t : HomeTx) (f : Trace → Trace) : HomeTx := { t with req := { t.req with tr := f t.req.tr } }

/-- A lookup's stage stamp and result (Table 16-4b). -/
def HomeTx.looked (t : HomeTx) (now : Nat) (hit : Bool) : HomeTx :=
  t.mark fun r => { r with cache := some now, kindling := if hit then 1 else 2 }

/-- The stamp and fields of the page map entry. -/
def HomeTx.mapped (t : HomeTx) (now : Nat) (p : PageEntry) (chan : Nat) (miss redir : Bool) : HomeTx :=
  t.mark fun r => { r with tier := some now, form := p.state, chan := chan, mapMiss := miss, redir := redir }

/-- A request's line with an error in it dealt with first (R69). -/
def State.meetLine (s : State) (t : HomeTx) : HomeTx × State :=
  match s.kWay t.slice t.req.addr, t.req.upset with
  | some w, .kindling => ({ t with req := { t.req with upset := .none } }, s.lineUpset t.slice t.req.addr w)
  | _, _ => (t, s)

/-- A hit or a miss counted at a request's first lookup (Table 16-1). -/
def State.countLook (s : State) (t : HomeTx) (code : Nat) : State :=
  if t.purpose == .serve && t.req.tr.cache.isNone then s.countBlk t.slice code 1 (some t.req.dom) (some t.req.entry.qclass) else s

/-- The four entries of a metadata line that cannot be used (R386): an entry that reads `STATE` = 11 or a bin that does not exist
(R101), whichever way it came about. -/
def State.loseEntries (s : State) (key : Nat) : State :=
  if (s.page key).unreadable then (List.range 4).foldl (fun s i => s.loseMapEntry (key / 4 * 4 + i)) s else s

/-- The map-cache lookup of a transaction's page, counted and stamped (R46). -/
def State.mapRead (s : State) (t : HomeTx) : HomeTx × State :=
  let e := t.req.entry
  let a := t.req.addr
  let s := s.loseEntries (e.mapKey a)
  let (miss, s) := s.mapLookup (e.owner a) (e.mapKey a) (e.share (e.offset a) / 4096)
  let s := if miss && t.req.tr.tier.isNone then s.countBlk t.slice 0x1A 1 (some t.req.dom) (some e.qclass) else s
  let p := s.page (e.mapKey a)
  let (c0, l0) := if p.state == 2 then (p.cchan, p.csect) else firewoodLine e p a
  let (c, l) := s.resolve c0 l0
  (t.mapped s.gtc p c miss ((c, l) != (c0, l0)), s)

/-- A line of a Firewood page that has reached the home for a read: a line the Kindling cache has gained meanwhile goes first. Good
data is installed (R60), after the answer where the domain is paced (R66); an answer waits until the line's victim has left (R65). -/
def State.giveLine (s : State) (t : HomeTx) (x : Line) (bad : Bool) : State :=
  match s.kWay t.slice t.line with
  | some w =>
    let l := s.kLine t.slice (kSet t.line) w
    (s.kTouch t.slice t.line w).deliver t l.data l.poison
  | none =>
    let e := t.req.entry
    if bad then s.deliverLost t
    else if e.paced then ((s.deliver t x false).fillLine t.slice e t.line .homeClean x false).2
    else
      let r := s.fillLine t.slice e t.line .homeClean x false
      if r.1 then r.2.deliver t x false else r.2.park t (some (x, false))

/-- Whether every decrypt pipeline of the device is out of service (R149). -/
def State.noDecrypt (s : State) : Bool := (List.range 16).all fun k => s.flag (R.ENG_XCTL_XDDIS k)

/-- A read of a line of a Firewood page that misses: from the write queue (R168), or from DRAM once its channel's read queue has
room. A paced read joins one of its line that is outstanding (R229), and one that would wait for a pipeline is answered with poison
(R149). -/
def State.readFirewood (s : State) (t : HomeTx) : State :=
  let r := t.req
  let e := r.entry
  let (c, l) := s.placeOf e r.addr
  if s.chanState c == 6 then s.deliverLost t
  else if !s.merging c l && (s.queuedWrite c l).isSome then
    let (x, bad) := s.firewoodNow r.dom e (s.page (e.mapKey r.addr)) r.addr
    s.giveLine t x bad
  else if e.encrypt && s.noDecrypt then (if e.paced then s.deliver t 0 true else s.backToQueue t)
  else
    let joins := e.paced && s.coh.txs.any fun u =>
      u.id != t.id && u.phase == .memory && u.req.entry.paced && u.line / 64 == r.addr / 64
    if !joins && !s.rqRoom c (l % 2) 1 e.paced then s.backToQueue t
    else
      let s := (s.heat (e.owner r.addr) (e.mapKey r.addr)).updTx t.id fun _ => { t with phase := .memory }
      if joins then s else s.pushRead c l (if e.paced then .paced t.id else .demand t.id)

/-- MEM for a read (R85, R99): the Kindling cache, zeros, or the page's tier. -/
def State.doRead (s : State) (t : HomeTx) : State :=
  let (t, s) := s.meetLine t
  let r := t.req
  match s.kWay t.slice r.addr with
  | some w =>
    let l := s.kLine t.slice (kSet r.addr) w
    ((s.countLook t 0x13).kTouch t.slice r.addr w).deliver (t.looked s.gtc true) l.data l.poison
  | none =>
    let (t, s) := (s.countLook t 0x14).mapRead (t.looked s.gtc false)
    let p := s.page (r.entry.mapKey r.addr)
    if p.unreadable then s.backToQueue t
    else if p.state == 1 then s.readFirewood t
    else if p.state == 2 then s.needBlock t
    else s.deliver t 0 false

/-- The lookup of a write, and the write made on its page as it stands (R30 to R32, R60). -/
def State.placeWrite (s : State) (t : HomeTx) : State :=
  let r := t.req
  let key := r.entry.mapKey r.addr
  match s.kWay t.slice r.addr with
  | some w =>
    let s := s.countLook t 0x13
    (s.writeHit t w .homeDirty).finishWrite ((t.looked s.gtc true).mark fun x => { x with dram := some s.gtc })
  | none =>
    let (t, s) := (s.countLook t 0x14).mapRead (t.looked s.gtc false)
    let p := s.page key
    if p.unreadable then s.backToQueue t
    else if p.state == 2 then s.needBlock t
    else if p.state == 0 then (if t.purpose == .absorb then s.endTx t.id else s.backToQueue t)
    else
      let r := s.writeMiss t
      if r.1 then r.2.finishWrite (t.mark fun x => { x with dram := some s.gtc }) else r.2.backToQueue t

/-- A write to a page with backing (R30 to R32). `INCOMP` is cleared; under TIERPOL 10 its clearing brings a demotion
(R101, R139). -/
def State.doWrite (s : State) (t : HomeTx) : State :=
  if s.gated t then s.park t none
  else
    let r := t.req
    let e := r.entry
    let key := e.mapKey r.addr
    let incomp := (s.page key).incomp
    let s := if incomp then s.setPage key (setFld (s.page key) 123 123 0) else s
    let (t, s) := s.meetLine t
    let s := s.placeWrite t
    if incomp && e.tierPol == 2 && (s.page key).state == 1 then
      (s.startMig r.dom e (r.addr / 4096 * 4096) .demote 16 .manager false).2
    else s

/-- A partner's mirror write made in this device's own page map (R57): its page is given backing first. -/
def State.doMirror (s : State) (t : HomeTx) : State :=
  let r := t.req
  if (s.page (r.entry.mapKey r.addr)).state == 0 then
    match s.backPage r.dom r.entry r.addr with
    | some s => s.doWrite t
    | none => s.park t none
  else s.doWrite t

/-- Whether any request of the device waits for backing (R120). -/
def State.anyWaiting (s : State) : Bool :=
  (List.range 16).any fun n => !(s.tier.waitq.get n).isEmpty || !(s.tier.overq.get n).isEmpty

/-- A transaction put in its slice's allocation wait list, or in the ordering queue's share of them while the list is full
(R120). It holds its line, and no transaction entry, so that other traffic goes on (R9). -/
def State.waitBacking (s : State) (t : HomeTx) : State :=
  let s := s.updTx t.id fun t => { t with phase := .backing, busy := false }
  if (s.tier.waitq.get t.slice).length < 256 && (s.tier.overq.get t.slice).isEmpty then
    { s with tier := { s.tier with waitq := s.tier.waitq.upd t.slice (· ++ [t.id]) } }
  else { s with tier := { s.tier with overq := s.tier.overq.upd t.slice (· ++ [t.id]) } }

/-- A transaction served on its page as it now stands. -/
def State.serveBacked (s : State) (t : HomeTx) : State := if t.req.op.isWrite then s.doWrite t else s.doRead t

/-- A transaction whose snoops are answered, at the home of its line: backing is drawn where the request is allocating
(R117, R120), then it is served. -/
def State.serveHome (s : State) (t : HomeTx) : State :=
  let r := t.req
  let e := r.entry
  let key := e.mapKey r.addr
  let bits := s.dirBits t.slice r.addr
  let grantsE := grantRdS bits (dirLs bits (lineIn r.addr)) r.agent t.hostShared == 3
  let p := s.page key
  if !r.op.mayWrite grantsE || p.state == 1 || (p.state == 2 && p.open_) then s.serveBacked t
  else
    match s.drawOf e key r.op grantsE with
    | some n =>
      if s.anyWaiting || !s.mayDraw n then s.waitBacking t
      else
        match s.backPage r.dom e r.addr with
        | some s => s.serveBacked t
        | none => s.waitBacking t
    | none =>
      match s.backPage r.dom e r.addr with
      | some s => s.serveBacked t
      | none => s.waitBacking t

/-- A transaction of this device's own hosts on a line homed elsewhere and held here (Table 04-7, R74). A host read or write
of a line in E or M is served; a read of a line in S or F. -/
def State.serveLocal (s : State) (t : HomeTx) : State :=
  let r := t.req
  match s.kWay t.slice r.addr with
  | some w =>
    let l := s.kLine t.slice (kSet r.addr) w
    let s := s.countBlk t.slice 0x13 1 (some r.dom) (some r.entry.qclass)
    if r.op.isWrite then (s.writeHit t w .peerM).finishWrite t
    else (s.kTouch t.slice r.addr w).deliver t l.data l.poison
  | none => (s.endTx t.id).requeue r

/-- Whether a transaction still waits for a response, for writebacks that responses announced (R86), or for the snoops of its lines. -/
def State.unanswered (s : State) (t : HomeTx) : Bool :=
  !t.peers.isEmpty || !t.ports.isEmpty || !t.wbWait.isEmpty || s.coh.txs.any fun u => u.purpose == .part t.id

/-- A transaction whose responses have all come (R86): forwarded requests are done; the others are served. -/
def State.conclude (s : State) (id : Nat) : State :=
  match s.tx id with
  | none => s
  | some t =>
    if t.phase != .snoop || s.unanswered t || s.gated t then s
    else
      match t.purpose with
      | .dirEvict => (s.putDir t.slice t.line 0).endTx id
      | .serve =>
        if t.fwded then
          let s := if t.req.op == .rdS then s.recordCopy t.slice t.req 0 2 else s
          (s.endTx id).traceLeave t.req 0
        else if s.homeHere t.req then s.serveHome t
        else s.serveLocal t
      | _ => s.endTx id

/-- A transaction taken on where its responses have come; the snoops of a line end with theirs, and with the last the transaction
that sent them. -/
def State.advance (s : State) (id : Nat) : State :=
  match s.tx id with
  | none => s
  | some t =>
    match t.purpose with
    | .part p => if t.phase == .snoop && !s.unanswered t then (s.endTx id).conclude p else s
    | _ => s.conclude id

/-- A transaction begun and its snoops sent. -/
def State.launch (s : State) (t : HomeTx) (p : Plan) : State :=
  let t := { t with
    phase := .snoop, peers := p.peers.map (·.1), ports := p.ports.map (·.1), fwd := p.fwd, busy := true }
  let (t, s) := s.newTx t
  let s := p.peers.foldl (fun s x => s.sendSnoop t x.1 x.2) s
  let s := p.ports.foldl (fun s x => s.biSnp t.slice x.1 (if x.2 == biBlk then t.line / 256 * 256 else t.line) x.2) s
  s.advance t.id

/-- Every holder of a sector told to invalidate it (R91, R77): each line of the sector to the devices, one BISnpInvBlk to
each port. -/
def State.launchSector (s : State) (slice dpa : Nat) (purpose : TxPurpose) (devs ports : List Nat) : State :=
  let base := dpa / 256 * 256
  let (t, s) := s.newTx { (default : HomeTx) with
    slice := slice, line := base, purpose := purpose, busy := true, phase := .snoop, ports := ports }
  let s := (if devs.isEmpty then [] else [0, 1, 2, 3]).foldl (fun s i =>
    let (u, s) := s.newTx { (default : HomeTx) with
      slice := slice, line := base + 64 * i, purpose := .part t.id, phase := .snoop, peers := devs }
    devs.foldl (fun s d => s.sendSnoop u d 0x20) s) s
  let s := ports.foldl (fun s p => s.biSnp slice p base biBlk) s
  s.advance t.id

/-- A victim of a full set evicted (R91): true once the eviction has begun. -/
def State.evictDir (s : State) (slice dpa : Nat) : Bool × State :=
  if (s.coh.txs.filter fun t => t.slice == slice && t.purpose == .dirEvict).length ≥ 32 then (false, s)
  else
    match s.dirVictim slice dpa with
    | none => (false, s)
    | some w =>
      let d := s.dirAt slice (dirIndex dpa) w
      let s := s.countBlk slice 0x19 1 none none
      (true, s.launchSector slice (dirAddr (dirIndex dpa) d) .dirEvict (otherPeers d.bits (.host 32)) (s.otherPorts d.bits (.peer 16)))

/-- A request that needs an entry in a full set: one eviction for it, while which it waits (R91). -/
def State.needEntry (s : State) (r : Req) : State :=
  let going := s.coh.txs.any fun t => t.slice == r.slice && t.purpose == .dirEvict && dirIndex t.line == dirIndex r.addr
  if r.evicts && going then s.requeue r
  else
    let x := s.evictDir r.slice r.addr
    x.2.requeue { r with evicts := x.1 }

/-- The pool members and the ports that a broadcast invalidation reaches (R77). -/
def State.everyHolder (s : State) (e : Entry) : List Nat × List Nat :=
  let devs := ((List.range e.ways).map e.member).filter fun d => d != s.devNum && !s.peerLost d
  let all := (List.range 16).filter fun d => d != s.devNum && !s.peerLost d && !(s.linksTo d).isEmpty
  ((devs ++ all).eraseDups, (List.range 32).filter fun p => e.rdPorts.testBit p && (s.place p).on && (s.head p).biEn)

/-- An uncorrectable entry resolved by broadcast (R77): SnpInv for each line to every pool member, BISnpInvBlk to every port
with a read permission bit. A transaction in progress for a line of the sector completes after the broadcast (R92). -/
def State.loseDir (s : State) (slice dpa : Nat) (e : Entry) : State :=
  let (devs, ports) := s.everyHolder e
  let s := s.log { type := 0x0304, sev := 1, cls := 1, level := 1, ukind := 3, unit := slice, loc := dpa }
  let s := s.putDir slice dpa 0
  let s : State := { s with coh := { s.coh with txs := s.coh.txs.map fun t =>
    if t.purpose == .serve && t.line / 256 == dpa / 256 then { t with lost := true } else t } }
  s.launchSector slice dpa .dirLost devs ports

/-- A request taken at its home, its line free (R85, R91). -/
def State.startHome (s : State) (r : Req) : State :=
  let s := if r.tr.home.isNone then s.countBlk r.slice 0x10 1 (some r.dom) (some r.entry.qclass) else s
  let r := { s.effective r with tr := { r.tr with home := some s.gtc } }
  let sl := r.slice
  if r.upset == .directory && (s.dirWay sl r.addr).isSome && !r.entry.paced then
    (s.loseDir sl r.addr r.entry).requeue { r with upset := .none }
  else if r.op.records && !s.dirRoom sl r.addr then s.needEntry r
  else if s.txFull sl then s.requeue r
  else
    let t : HomeTx := { (default : HomeTx) with slice := sl, line := r.addr, purpose := .serve, req := r }
    s.launch t (s.plan (s.dirBits sl r.addr) (lineIn r.addr) r)

/-- A paced request at its home (R96, R229): served at once, in issue order, without waiting behind its line. -/
def State.startPaced (s : State) (r : Req) : State :=
  let s := s.countBlk r.slice 0x10 1 (some r.dom) (some r.entry.qclass)
  let t : HomeTx := { (default : HomeTx) with slice := r.slice, line := r.addr, purpose := .serve, req := r, busy := false }
  let (t, s) := s.newTx t
  s.serveHome t

/-! ### A requester's side (Table 04-7) -/

/-- A request message of this device to a line's home. -/
def State.ask (s : State) (r : Req) (w : PeerWait) (opc : Nat) : State :=
  let home := r.entry.homeDev (r.entry.offset r.addr)
  let (t, s) := s.track home r.addr w r
  let wr := opc == 0x04 || opc == 0x05
  s.toPeer { (default : Msg) with
    opc := opc, dst := home, txn := t, addr := poolAddr home r.addr, data := if wr then r.data else 0,
    be := if opc == 0x05 then r.be else 0 }

/-- A paced request of a host forwarded to the line's home, or waiting for a paced credit (R234, R284). -/
def State.askPaced (s : State) (r : Req) : State :=
  let home := r.entry.homeDev (r.entry.offset r.addr)
  let w := b2n r.op.isWrite
  let t := s.freeTxn
  let e : ReqTrack := { txn := t, home := home, line := r.addr, wait := .isd, req := r, held := none }
  let s := { s with link := { s.link with preqs := s.link.preqs ++ [e] } }
  let m : Msg := { (default : Msg) with
    opc := if r.op.isWrite then 0xC1 else 0xC0, dst := home, txn := t, addr := poolAddr home r.addr,
    data := if r.op.isWrite then r.data else 0, be := if r.op.isWrite then (if r.fullLine then BitVec.allOnes 64 else r.be) else 0 }
  if s.link.pout.get (home * 2 + w) < s.link.pcr.get (home * 2 + w) then
    { s with link := { s.link with pout := s.link.pout.upd (home * 2 + w) (· + 1) } }.toPeer m
  else
    let s := if s.link.puncred.contains home then s
      else ({ s with link := { s.link with puncred := home :: s.link.puncred } }).log
        { type := 0x0407, level := 1, ukind := 8, unit := home, dom := r.dom, loc := r.addr }
    { s with link := { s.link with pwait := s.link.pwait.upd home (· ++ [m]) } }

/-- A host request for a line homed on a peer, its line free here (Table 04-7, R74). -/
def State.startReq (s : State) (r : Req) : State :=
  let r := s.effective r
  let sl := r.slice
  if r.entry.paced then s.askPaced r
  else
    let s := match s.kWay sl r.addr, r.upset with
      | some w, .kindling => s.lineUpset sl r.addr w
      | _, _ => s
    let r := { r with upset := .none }
    let st := match s.kWay sl r.addr with
      | some w => (s.kLine sl (kSet r.addr) w).st
      | none => .invalid
    let own := st == .peerE || st == .peerM
    let wants := r.op.isWrite || r.op == .hostRd .any
    let full := decide ((s.coh.reqs.filter fun t => t.req.slice == sl && t.wait != .mia && t.wait != .evt).length ≥ 256)
    if st == .invalid || (wants && !own) then
      if full || s.sectorEvicting r.addr then s.requeue r
      else if st != .invalid then s.ask r .smd 0x02
      else if r.op.isWrite then s.ask r .iwa (if r.fullLine then 0x04 else 0x05)
      else s.ask r .isd (if s.hasWay sl r.entry then 0x01 else 0x03)
    else if r.op.records && !s.dirRoom sl r.addr then s.needEntry r
    else if s.txFull sl then s.requeue r
    else
      let t : HomeTx := { (default : HomeTx) with slice := sl, line := r.addr, purpose := .serve, req := r }
      s.launch t (s.plan (s.dirBits sl r.addr) (lineIn r.addr) r)

/-- Whether a write waits for the promotion of its block, or for the end of a hold, after a lasting tag failure (R147). -/
def State.tagWaits (s : State) (r : Req) : Bool :=
  r.op.isWrite && s.homeHere r && s.tier.tagHeld.any fun x => x.1 == r.dom && x.2.1 == r.addr / 1024

/-- TAG_HOLD, raised once per block when a write begins to wait in a domain with TIERPOL 10 (R147). -/
def State.noteHold (s : State) (r : Req) : State :=
  let fresh := s.tier.tagHeld.any fun x => x.1 == r.dom && x.2.1 == r.addr / 1024 && !x.2.2
  if r.entry.tierPol == 2 && fresh then
    let s : State := { s with tier := { s.tier with tagHeld := s.tier.tagHeld.map fun x =>
      if x.1 == r.dom && x.2.1 == r.addr / 1024 then (x.1, x.2.1, true) else x } }
    (s.log { type := 0x0307, sev := 3, level := 1, ukind := 3, unit := r.slice, dom := r.dom, loc := r.addr / 1024 * 1024 }).event
      0x12 r.dom
  else s

/-- A request that has reached the slice that orders its line: served, or waiting behind what is ahead of it (R29, R87). -/
def State.arrive (s : State) (r : Req) : State :=
  if r.entry.paced then (if s.homeHere r then s.startPaced r else s.startReq r)
  else if s.tagWaits r then (s.noteHold r).enqueue r
  else if s.lineBusy r.addr || (s.coh.ordq.get r.slice).any fun q => q.addr / 64 == r.addr / 64 then s.enqueue r
  else if s.homeHere r then s.startHome r
  else s.startReq r

/-! ### What follows every command -/

/-- The requests of a slice's ordering queue that can go, taken in order (R29). -/
def State.settleSlice (s : State) (n : Nat) : State :=
  let q := s.coh.ordq.get n
  if q.isEmpty then s
  else
    let s := { s with coh := { s.coh with ordq := s.coh.ordq.put n [] } }
    q.foldl (fun s r => s.arrive r) s

/-- How far a home slice comes after the one an engine took last (R135); `turn` is 1 + that slice. -/
def turnOf (turn home : Nat) : Nat := (home + 16 - turn % 16) % 16

/-- Of the offers (an item, its home slice and the engine it goes to), the one taken next: the first engine's, by its turn. -/
def nextOffer {α : Type} (turn : Nat → Nat) (os : List (α × Nat × Nat)) : Option (α × Nat × Nat) :=
  match os with
  | [] => none
  | o :: _ => (os.filter fun x => x.2.2 == o.2.2).foldl (fun b x =>
      match b with
      | none => some x
      | some y => if turnOf (turn x.2.2) x.2.1 < turnOf (turn y.2.2) y.2.1 then some x else some y) none

/-- The waiting blocks that find a place in a compressor's queue, one after another. -/
def State.compressWaiting : Nat → State → State
  | 0, s => s
  | f + 1, s =>
    let pick := fun j : CzJob =>
      let home := j.entry.slice (j.granule * 1024)
      (chooseEngine (fun e => !s.flag (R.ENG_CZCTL_CDIS e)) (fun e => (s.eng.cq.get e).length) home j.first).map fun e => (j, home, e)
    match nextOffer s.eng.czTurn.get (s.eng.czWait.filterMap pick) with
    | none => s
    | some (j, home, e) => State.compressWaiting f (({ s with eng := { s.eng with czWait := s.eng.czWait.erase j } } : State).joinCompress e home j)

/-- The waiting fills that find a place in a decompressor's queue. -/
def State.decompressWaiting : Nat → State → State
  | 0, s => s
  | f + 1, s =>
    let pick := fun i : Nat => (s.fill i).bind fun x =>
      (chooseEngine (fun e => !s.flag (R.ENG_CZCTL_DDIS e)) (fun e => (s.eng.dq.get e).length) x.slice x.first).map fun e => (i, x.slice, e)
    match nextOffer s.eng.dzTurn.get (s.eng.dzWait.filterMap pick) with
    | none => s
    | some (i, home, e) =>
      State.decompressWaiting f (({ s with eng := { s.eng with dzWait := s.eng.dzWait.erase i } } : State).joinDecompress e home i)

/-- With no compressor of the device in service, what becomes of a waiting block: a demotion ends as incompressible, and a dirty
block is kept for its page's promotion (R139, R141). -/
def State.refuseBlock (s : State) (j : CzJob) : State :=
  match j.mig with
  | some id => (s.mig id).elim s fun m => s.migEnd m 0x65
  | none => { s with eng := { s.eng with czHeld := s.eng.czHeld ++ [j] } }

/-- Blocks and fills that found no engine offered again; two slices that offer to one queue are taken in turn (R135). -/
def State.settleCompress (s : State) : State :=
  let s := if s.noCompressor then
      s.eng.czWait.foldl (fun s j => s.refuseBlock j) ({ s with eng := { s.eng with czWait := [] } } : State)
    else State.compressWaiting s.eng.czWait.length s
  State.decompressWaiting s.eng.dzWait.length s

/-- Blocks that are ready, but whose victims had yet to leave, installed (R65), and written blocks of the staging buffers offered to
the compressors again (R63). -/
def State.settleFills (s : State) : State :=
  s.kind.fills.foldl (fun s f =>
    if f.asked && !f.dirty then s.installFill f.id else if f.dirty then s.sendStaged f.id else s) s

/-- The home's line after the partner's copy has come, or could not (R57): returned; and when it is good, its own line of a Firewood
page rewritten first, once its write finds a place. A line of a lost block is poison after its page's promotion (R147), and is
rewritten then. -/
def State.endMirrorRead (s : State) (t : HomeTx) (x : Line) (poison : Bool) : State :=
  let r := t.req
  let fw := !poison && (s.page (r.entry.mapKey r.addr)).state == 1 && (s.kWay t.slice r.addr).isNone
  if fw && (!s.lineRoom r.entry r.addr false || s.noEncrypt r.entry.encrypt) then s.updTx t.id fun _ => { t with phase := .mirrorRead, got := some (x, poison) }
  else
    let s := if fw then (s.queueLine r.dom r.entry r.addr x false false).unlistPoison r.addr else s
    s.deliver t x poison

/-- Whether returned data or a mirror write waits for the promotion of its block after a lasting tag failure (R147). -/
def State.blockLost (s : State) (t : HomeTx) : Bool :=
  t.purpose != .serve && s.tier.tagHeld.any fun x => x.1 == t.req.dom && x.2.1 == t.line / 1024

/-- A transaction that had to wait taken up again. -/
def State.resume (s : State) (t : HomeTx) : State :=
  match t.phase, t.got with
  | .snoop, _ => s.advance t.id
  | .mirrorRead, some (x, bad) => s.endMirrorRead t x bad
  | .install, got =>
    if s.gated t || s.blockLost t then s
    else
      match t.purpose, got with
      | .serve, some (x, bad) => s.giveLine t x bad
      | .serve, none => if s.homeHere t.req then s.serveHome t else s.serveLocal t
      | .mirIn, _ => s.doMirror t
      | _, _ => s.doWrite t
  | _, _ => s

/-- Every transaction taken as far as it goes. -/
def State.settleTxs (s : State) : State := s.coh.txs.foldl (fun s t => (s.tx t.id).elim s s.resume) s

/-- What the end of any piece of work lets go: compressors take waiting blocks, ways that leave service and migrations go on, kept
blocks have their pages promoted, waiting transactions and requests are taken, and the tier manager's quantities follow (R119,
R139). -/
def State.settle (s : State) : State :=
  let s := s.settleCompress.settleFills.settleDrains.settleMigs.promoteHeld.settleTxs
  let s := (List.range 16).foldl (fun s n => s.settleSlice n) s
  s.tierSync

end Sys2Proof.Machine
end

