-- ==== Sys2Proof/Machine/Mesh.lean ====
section
/-!
DEFINITION. The mesh between the stops of the die (R23 to R26): where a stop lies, the route of a message, the buffers of a link and
their credits, the arbiter of an output, and what one mesh clock moves. A message crosses within the command that sends it, unless
its buffers are full or its home cannot take it (DESIGN CHOICE, assumption 106).
-/
namespace Sys2Proof.Machine

/-! ### Stops, routes and classes -/

/-- The stop at local row `ly` of the unit `k` of its type: unit 4 * r + lx lies in the quadrant of region r (R23, Table 01-3). -/
def meshStop (ly k : Nat) : Nat × Nat :=
  let lx := k % 4
  (if k / 4 % 2 == 0 then lx else 7 - lx, if k / 8 == 0 then ly else 7 - ly)
/-- The stop of a port group, and of a home slice (Table 01-3). -/
def portStop (g : Nat) : Nat × Nat := meshStop 0 g
def homeStop (n : Nat) : Nat × Nat := meshStop 1 n

/-- The output a message takes at the stop that holds it: first along x, then along y, then its stop's own blocks (R24). -/
def MeshMsg.route (m : MeshMsg) : MeshPort :=
  if m.x < m.tox then .east else if m.tox < m.x then .west
  else if m.y < m.toy then .up else if m.toy < m.y then .down else .own

/-- The order in which an output grants the classes (R26). -/
def meshOrder : List MeshClass := [.pdat, .preq, .dat, .rsp, .snp, .wb, .mgt, .req]

/-- The mesh class of a Pennant message, which is its VC's (Table 04-5). -/
def meshClassOf (vc : Nat) : MeshClass := [MeshClass.req, .snp, .rsp, .dat, .wb, .mgt, .preq, .pdat].getD vc .pdat

/-! ### Buffers and credits -/

/-- Whether two messages are held by one buffer. -/
def MeshMsg.beside (a b : MeshMsg) : Bool := a.cls == b.cls && a.x == b.x && a.y == b.y && a.port == b.port

/-- Whether a buffer has a place: a credit for one more message of its class (R25). -/
def MeshState.room (m : MeshState) (at_ : MeshMsg) : Bool :=
  let q := m.msgs.filter at_.beside
  q.isEmpty || decide (q.length ≤ Config.meshDepth)

/-- A message after its hop through an output. -/
def MeshMsg.hop (m : MeshMsg) (out : MeshPort) : MeshMsg :=
  match out with
  | .east => { m with x := m.x + 1, port := .west }
  | .west => { m with x := m.x - 1, port := .east }
  | .up => { m with y := m.y + 1, port := .down }
  | .down => { m with y := m.y - 1, port := .up }
  | .own => m

/-- The oldest message of each buffer. -/
def MeshState.heads (m : MeshState) : List MeshMsg :=
  m.msgs.foldl (fun hs a => if hs.any a.beside then hs else hs ++ [a]) []

/-- Whether a message at the head of its buffer can go: into a buffer that has room, or into the blocks of its stop. `takes` says
what those can take; DAT and RSP wait for nothing there (R25). -/
def MeshState.ready (m : MeshState) (takes : MeshLoad → Bool) (a : MeshMsg) : Bool :=
  match a.route with
  | .own => a.cls == .dat || a.cls == .rsp || takes a.load
  | out => m.room (a.hop out)

/-! ### The arbiter of an output (R26) -/

def MeshPort.num : MeshPort → Nat
  | .west => 0 | .east => 1 | .down => 2 | .up => 3 | .own => 4
def MeshClass.num : MeshClass → Nat
  | .req => 0 | .snp => 1 | .rsp => 2 | .dat => 3 | .wb => 4 | .mgt => 5 | .preq => 6 | .pdat => 7

/-- The number of the output a message wants. -/
def MeshMsg.outNum (a : MeshMsg) : Nat := 8 * (8 * a.y + a.x) + a.route.num

/-- The class granted among the messages ready at an output: one that has waited 256 clocks, else the first of the fixed order. -/
def MeshState.grantClass (m : MeshState) (out : Nat) (as : List MeshMsg) : Option MeshClass :=
  let there := meshOrder.filter fun c => as.any fun a => a.cls == c
  match there.find? fun c => decide (m.waits.get (8 * out + c.num) ≥ 256) with
  | some c => some c
  | none => there.head?

/-- The message granted at an output: of the class granted, the next in order of input port after the input granted last. -/
def MeshState.grantAt (m : MeshState) (out : Nat) (as : List MeshMsg) : Option MeshMsg :=
  match m.grantClass out as with
  | none => none
  | some c =>
    let next := fun (a : MeshMsg) => (a.port.num + 5 - m.last.get out % 5) % 5
    (as.filter fun a => a.cls == c).foldl (fun b a =>
      match b with
      | none => some a
      | some x => if next a < next x then some a else some x) none

/-- The place of the round-robin after a grant: one past the input granted. -/
def MeshMsg.after (a : MeshMsg) : Nat := a.port.num + 1

/-- One mesh clock: every output that a ready message wants grants one. Answers the mesh and what leaves it, or none when nothing
can move. -/
def MeshState.clock (m : MeshState) (takes : MeshLoad → Bool) : Option (MeshState × List MeshLoad) :=
  let ready := m.heads.filter (m.ready takes)
  if ready.isEmpty then none
  else
    some ((ready.map (·.outNum)).eraseDups.foldl (fun (acc : MeshState × List MeshLoad) out =>
      let as := ready.filter fun a => a.outNum == out
      match m.grantAt out as with
      | none => acc
      | some a =>
        let waits := meshOrder.foldl (fun (w : Tab Nat) c =>
          if c != a.cls && as.any (fun b => b.cls == c) then w.upd (8 * out + c.num) (· + 1) else w.put (8 * out + c.num) 0) acc.1.waits
        let n : MeshState := { msgs := acc.1.msgs.erase a, waits := waits, last := acc.1.last.put out a.after }
        match a.route with
        | .own => (n, acc.2 ++ [a.load])
        | p => ({ n with msgs := n.msgs ++ [a.hop p] }, acc.2)) (m, []))

/-! ### Into the mesh -/

/-- A message at its stop's own input, bound for a home slice. -/
def meshMsg (cls : MeshClass) (g n : Nat) (x : MeshLoad) : MeshMsg :=
  let (a, b) := portStop g
  let (c, d) := homeStop n
  { cls := cls, x := a, y := b, port := .own, tox := c, toy := d, load := x }

/-- A message injected. -/
def State.inject (s : State) (m : MeshMsg) : State := { s with mesh := { s.mesh with msgs := s.mesh.msgs ++ [m] } }

/-- The class of a request: PREQ on the paced path, else REQ (R229). -/
def Req.meshClass (r : Req) : MeshClass := if r.entry.paced then .preq else .req

/-- Whether the mesh buffer of a port stop has space for a request (R219). -/
def State.meshRoom (s : State) (g : Nat) (r : Req) : Bool := s.mesh.room (meshMsg r.meshClass g r.slice (.req r))

/-! ### Out of the mesh -/

/-- Whether a request that arrives would be served without waiting in the ordering queue. -/
def State.startsNow (s : State) (r : Req) : Bool :=
  !s.txFull r.slice && !s.lineBusy r.addr && !s.tagWaits r && (s.dirRoom r.slice r.addr || !r.op.records) &&
    !((s.coh.ordq.get r.slice).any fun q => q.addr / 64 == r.addr / 64)

/-- The requests that a slice's ordering queue holds, those returned to it under R120 among them. -/
def State.ordLoad (s : State) (n : Nat) : Nat := (s.coh.ordq.get n).length + (s.tier.overq.get n).length

/-- Whether a slice takes a message from the mesh: a REQ that finds its transaction entries and its ordering queue of 2,048 full
stays in the mesh buffer (R82), as does one that would have to wait in a full queue (DEDUCED, assumption 107); a PREQ never
does. -/
def State.homeTakes (s : State) (x : MeshLoad) : Bool :=
  match x with
  | .req r => r.entry.paced || decide (s.ordLoad r.slice < 2048) || s.startsNow r
  | .msg _ => true

/-- The requests in the mesh. -/
def MeshState.reqs (m : MeshState) : List Req :=
  m.msgs.filterMap fun a => match a.load with
    | .req r => some r
    | .msg _ => none

/-- The mesh with its requests changed, those answered `none` dropped. -/
def MeshState.mapReqs (m : MeshState) (f : Req → Option Req) : MeshState :=
  { m with msgs := m.msgs.filterMap fun a => match a.load with
    | .req r => (f r).map fun r => { a with load := .req r }
    | .msg _ => some a }

end Sys2Proof.Machine
end

