-- ==== Sys2Proof/Machine/Admission.lean ====
section
/-!
DEFINITION. Requests on their way to a home: the decode at the port (R47, R48, R150), the decode of a peer's request (R49), paced
acceptance (R226 to R228), and admission (R215 to R222).
-/
namespace Sys2Proof.Machine

/-! ### State of the device as a whole -/

/-- Whether the device has been declared lost (R379). -/
def State.lost (s : State) : Bool := s.flag R.CF_STAT_DEVLOST
/-- Whether requests are served: once `READY` (R443), in Blaze and Smoulder (Table 20-2), and not while an orderly drain has
stopped admission (R448). -/
def State.serving (s : State) : Bool :=
  s.flag R.CHIP_BOOTSTAT_READY && decide (s.rd R.PS_STAT_STATE ≤ 1) && s.boot.drain.isNone && !s.boot.hold

/-! ### Decode -/

/-- The entry a home slice serves a domain under: the old one until the invalidation of step 3 of Table 02-5 has reached it. -/
def State.servedEntry (s : State) (d : Nat) : Entry :=
  match s.dom.commits.find? fun c => c.dom == d && !c.inval with
  | some c => c.old
  | none => s.entry d

/-- The domain a home slice finds a DPA in, under the entries it serves by. -/
def State.servedDomain (s : State) (dpa : Nat) : Option (Nat × Entry) :=
  match s.dom.commits.find? fun c => !c.inval && c.old.covers dpa with
  | some c => some (c.dom, c.old)
  | none =>
    match s.domOf dpa with
    | some d => if s.dom.commits.any fun c => c.dom == d.1 && !c.inval then none else some d
    | none => none

/-- The ingress decoder's lookup in its group's decode cache of 256 entries, with the range index behind it (R47): the
domain and entry, and whether it missed. -/
def State.decodeAt (s : State) (g dpa : Nat) : Option (Nat × Entry) × State :=
  let q := s.dom.dcache.get g
  match q.find? fun c => Entry.covers c.2 dpa with
  | some c =>
    (some c, { s with dom := { s.dom with dcache := s.dom.dcache.put g (c :: q.filter fun x => x.1 != c.1) } })
  | none =>
    let s := s.countBlk g 0x06 1 none none
    match s.domOf dpa with
    | some c =>
      (some c, { s with dom := { s.dom with dcache := s.dom.dcache.put g ((c :: q.filter fun x => x.1 != c.1).take 256) } })
    | none => (none, s)

/-- An event of a logical port recorded, with its domain and DPA. -/
def State.logPort (s : State) (type p : Nat) (dom : Option Nat) (dpa : Nat) : State :=
  s.log { type := type, level := 1, ukind := 9, unit := p, dom := dom.getD 0xFFFF, loc := dpa }

/-- Whether a domain's requests are refused because its key slot is being erased, or, where it is encrypted, is Empty (R150,
R155). -/
def State.keyAbsent (s : State) (d : Nat) (e : Entry) : Bool := (s.slot d).st == 3 || (e.encrypt && (s.slot d).st == 0)

/-- Another agent that may write a domain an HDM-H head reads (R301): another port with the write bit, or another device of
its interleave. -/
def State.othersWrite (s : State) (p : Nat) (e : Entry) : Bool :=
  ((List.range 32).any fun q => q != p && e.wrPorts.testBit q) || ((List.range e.ways).any fun m => e.member m != s.devNum)

/-- HDMH_SHARED, once per head and commit of the domain (R301). -/
def State.noteShared (s : State) (p d : Nat) (e : Entry) : State :=
  if s.hdmDb p || (s.head p).hdmh.contains d || !s.othersWrite p e then s
  else (s.updHead p fun h => { h with hdmh := d :: h.hdmh }).logPort 0x0405 p (some d) 0

/-- A request refused because its domain has no key (R48, R97). -/
def State.refuseKey (s : State) (r : Req) : State :=
  match r.agent with
  | .host p => (s.logPort 0x0404 p (some r.dom) r.addr).refuse r 0 2
  | .peer d => (s.log { type := 0x0404, level := 1, ukind := 8, unit := d, dom := r.dom, loc := r.addr }).refuse r 0x01 3

/-! ### Masters and credits -/

/-- The host master of a port and HDM decoder (R215). -/
def State.hostMaster (s : State) (p dec : Nat) : Nat := 8 * p + s.rd (R.RGL_RGMAP_GRP p).com / 8 ^ (dec % 8) % 8

/-- Whether a source is a paced one (R226). -/
def State.pacedSource (s : State) (src : Nat) : Bool :=
  s.rd (R.RGL_PACE_PQR src).com != 0 || s.rd (R.RGL_PACE_PQW src).com != 0

/-- Whether a source has a credit left: 0 for reads, 1 for writes. -/
def State.hasCredit (s : State) (src w : Nat) : Bool :=
  decide (s.rgl.taken.get (src * 2 + w) < s.rd (if w == 0 then R.RGL_PACE_PQR src else R.RGL_PACE_PQW src).com)

/-- The credit a request consumes (R226): every request of a paced port, and a PREQ of a paced peer. Answers whether a
request to a paced domain is accepted. -/
def State.takeCredit (s : State) (r : Req) : Bool × Req × State :=
  let src := r.source
  let w := b2n r.op.isWrite
  let uses := match r.agent with
    | .host _ => s.pacedSource src
    | .peer _ => s.pacedSource src && (r.op == .pRd || r.op == .pWr)
  if uses && s.hasCredit src w then
    (r.entry.paced, { r with credit := 1 + w }, { s with rgl := { s.rgl with taken := s.rgl.taken.upd (src * 2 + w) (· + 1) } })
  else (false, r, s)

/-- PACE_UNCREDITED, once for each source after each commit (R228). -/
def State.noteUncredited (s : State) (r : Req) : State :=
  if s.rgl.uncred.contains r.source then s
  else
    let s := { s with rgl := { s.rgl with uncred := r.source :: s.rgl.uncred } }
    match r.agent with
    | .host p => s.logPort 0x0407 p (some r.dom) r.addr
    | .peer d => s.log { type := 0x0407, level := 1, ukind := 8, unit := d, dom := r.dom, loc := r.addr }

/-! ### Admission (R219) -/

/-- The weight of a master. -/
def State.weight (s : State) (m : Nat) : Nat :=
  if m < 256 then s.rd (R.RGL_MST_WEIGHT m).com else s.rd (R.RGL_PEER_WEIGHT (m - 256)).com

/-- Whether a class is at its cap (R222). -/
def State.capped (s : State) (c : Nat) : Bool :=
  let cap := s.rd (R.RGL_CLS_CAP c).com
  decide (cap > 0) && decide (s.rgl.used.get c ≥ cap)

/-- Whether back-pressure holds a request (R121). -/
def State.heldBack (s : State) (r : Req) : Bool :=
  ((List.range 16).any fun n => s.tier.backPr.get n) && !r.entry.pinned && !r.entry.paced &&
    (match r.op with
    | .hostWr _ | .hostPtl _ | .rdS | .rdOwn | .wrCur | .wrPtl => true
    | .hostRd mv => mv == .any
    | _ => false)

/-- The head request of each master's queue at a point, in arrival order. A request held under R121 holds back what waits behind
it only on its own line, since R9 never pauses the others (DEDUCED, assumption 108). -/
def State.heads (s : State) (q : List Waiting) : List Waiting :=
  (q.foldl (fun (hs : List Waiting × List Waiting) w =>
    if s.heldBack w.req then (hs.1, w :: hs.2)
    else if hs.1.any (fun h => h.master == w.master) ||
        hs.2.any (fun h => h.master == w.master && h.req.addr / 64 == w.req.addr / 64) then hs
    else (hs.1 ++ [w], hs.2)) ([], [])).1

/-- Round-robin among masters, starting after the one granted last. -/
def afterLast (last : Nat) (ws : List Waiting) : Option Waiting :=
  let pick := fun (l : List Waiting) => l.foldl (fun (b : Option Waiting) w =>
    match b with
    | none => some w
    | some x => if w.master < x.master then some w else some x) none
  match pick (ws.filter fun w => decide (w.master > last)) with
  | some w => some w
  | none => pick ws

/-- Weighted round-robin: a master in its turn is granted until it has had its weight of grants (DESIGN CHOICE, assumption
22). Answers the request and the turn that follows. -/
def weighted (t : Turn) (weight : Nat → Nat) (ws : List Waiting) : Option (Waiting × Turn) :=
  match ws.find? fun w => w.master == t.last && t.left > 0 with
  | some w => some (w, { t with left := t.left - 1 })
  | none => (afterLast t.last ws).map fun w => (w, { last := w.master, left := weight w.master - 1 })

/-- The region of an admission point. -/
def regionOf (g : Nat) : Nat := g / 4

/-- What an admission point grants in a mesh clock among the requests considered (R219): the request, its tier (0 P, 1 G,
2 S, 3 X), and the state with the round-robin's place moved. -/
def State.choose (s : State) (g : Nat) (ws : List Waiting) : Option (Waiting × Nat × State) :=
  match ws.find? (·.accepted) with
  | some w => some (w, 0, s)
  | none =>
    let en := s.flag R.RGL_CTL_EN.com
    let own := ws.filter fun w => decide (s.rgl.own.get (regionOf g * 512 + w.master) ≥ 1)
    if en && !own.isEmpty then
      (afterLast (s.rgl.turnG.get g) own).map fun w =>
        (w, 1, { s with rgl := { s.rgl with turnG := s.rgl.turnG.put g w.master } })
    else
      let heavy := ws.filter fun w => decide (s.weight w.master > 0)
      if en && s.rgl.pool.get (regionOf g) ≥ 1 && !heavy.isEmpty then
        (weighted (s.rgl.turnS.get g) s.weight heavy).map fun x =>
          (x.1, 2, { s with rgl := { s.rgl with turnS := s.rgl.turnS.put g x.2 } })
      else
        (weighted (s.rgl.turnX.get g) (fun m => max (s.weight m) 1) ws).map fun x =>
          (x.1, 3, { s with rgl := { s.rgl with turnX := s.rgl.turnX.put g x.2 } })

/-- Whether a request may be considered in this mesh clock: below its class's cap (R222) and with space for it in the mesh
(R219). -/
def State.mayAdmit (s : State) (g : Nat) (w : Waiting) : Bool := (w.accepted || !s.capped w.cls) && s.meshRoom g w.req

/-- A request granted (R218, R219): charged to its master and class, counted, and sent over the mesh to the slice that orders its
line. One whose domain's key has been destroyed while it waited is refused (R155). -/
def State.grant (s : State) (g : Nat) (w : Waiting) (tier : Nat) : State :=
  let rg := regionOf g
  let rgl := s.rgl
  let rgl := { rgl with used := rgl.used.upd w.cls (· + w.lines) }
  let rgl := if tier == 1 then { rgl with own := rgl.own.upd (rg * 512 + w.master) (· - w.lines) }
    else if tier == 2 then { rgl with pool := rgl.pool.upd rg (· - w.lines) } else rgl
  let rgl := if w.master ≥ 256 then { rgl with admitted := rgl.admitted.upd (rg * 16 + (w.master - 256)) (· + w.lines) } else rgl
  let rgl := if w.accepted then { rgl with paced := rgl.paced.upd w.req.source (· + w.lines) } else rgl
  let s := { s with rgl := rgl, pow := { s.pow with quietSince := s.gtc } }
  let s := s.countBlk g (0x08 + tier) 1 (some w.req.dom) (some w.cls)
  let s := if w.accepted then s.count rg 0 0x40 1 (some w.req.dom) (some w.cls) else s
  let (tagged, s) := s.tagRequest rg w.req.entry
  let r := { w.req with tr := { w.req.tr with
    on := tagged, reg := some s.gtc, admTier := tier, master := w.master, cls := w.cls,
    peerHome := !s.homedHere w.req.entry w.req.addr } }
  if !r.tr.peerHome && s.keyAbsent w.req.dom (s.servedEntry w.req.dom) then s.refuseKey r
  else s.inject (meshMsg r.meshClass g r.slice (.req r))

/-- One grant of an admission point (R219). -/
def State.admitNext (s : State) (g : Nat) : State :=
  let q := s.rgl.admq.get g
  let heads := s.heads q
  let s := (heads.filter fun w => s.capped w.cls && !w.accepted).foldl (fun s w =>
    { s with rgl := { s.rgl with capHit := s.rgl.capHit.put w.cls true } }) s
  if !s.serving then s
  else
    match s.choose g (heads.filter (s.mayAdmit g)) with
    | some (w, tier, s) => ({ s with rgl := { s.rgl with admq := s.rgl.admq.put g (q.erase w) } }).grant g w tier
    | none => s

/-- A request offered at an admission point: it joins its master's queue, and the point makes its next grant. -/
def State.offer (s : State) (g : Nat) (w : Waiting) : State :=
  ({ s with rgl := { s.rgl with admq := s.rgl.admq.upd g (· ++ [w]) } } : State).admitNext g

/-! ### Requests that arrive -/

/-- Whether a port's host can send requests: its link is up and the device accepts them (R379). -/
def State.portOpen (s : State) (p : Nat) : Bool := (s.place p).on && (s.head p).flit != 0 && !s.lost

/-- A host request refused as a decode fault (R48), with the record its cause names. -/
def State.decodeFault (s : State) (p : Nat) (r : Req) (type : Nat) (dom : Option Nat) : State :=
  (s.logPort type p dom r.addr).refuse r 0 2

/-- The DPA a decoder gives a host physical address: its offset with the interleave of the host's devices taken out (R50, R304). -/
def HdmDecoder.dpaOf (d : HdmDecoder) (hpa : Nat) : Option Nat :=
  let off := hpa - d.hpaBase
  if d.committed && decide (d.hpaBase ≤ hpa) && decide (off < d.hpaSize) then
    some (d.dpaBase + off / (d.gran * d.ways) * d.gran + off % d.gran)
  else none

/-- The decoder of a head that translates a host physical address, and the DPA (R50). -/
def State.translate (s : State) (p hpa : Nat) : Option (Nat × Nat) :=
  (List.range 16).findSome? fun j => (((s.head p).dec.get j).dpaOf hpa).map fun a => (j, a / 64 * 64)

/-- A host request at its DPA. -/
def State.translated (s : State) (p dec g : Nat) (r : Req) : State :=
  let (found, s) := s.decodeAt g r.addr
  match found with
  | none => s.decodeFault p r 0x0401 none
  | some (d, e) =>
    let s := s.countBlk g 0x05 1 (some d) (some e.qclass)
    let r := { r with dom := d, entry := e }
    let may := if r.op.isWrite then e.wrPorts.testBit p else e.rdPorts.testBit p
    let (accepted, r, s) := s.takeCredit r
    if !may then s.decodeFault p r 0x0401 (some d)
    else if s.homedHere e r.addr && s.keyAbsent d e then s.refuseKey r
    else
      let s := if r.op.isWrite then s else s.noteShared p d e
      let s := if e.paced && !accepted then s.noteUncredited r else s
      s.offer g { req := r, master := s.hostMaster p dec, cls := e.qclass, lines := 1, accepted := accepted }

/-- A host request from its translation and decode to its admission (R47, R48, R50, R150, R226, R228, R301). It comes with its host
physical address; `offered` says whether its opcode is one the head offers (R299). -/
def State.hostRequest (s : State) (p : Nat) (offered : Bool) (r : Req) : State :=
  let g := (s.place p).group
  let r := { r with tr := { r.tr with t0 := s.gtc, group := g } }
  if !offered then (s.decodeFault p r 0x0403 none)
  else
    match s.translate p r.addr with
    | none => s.decodeFault p r 0x0401 none
    | some (dec, dpa) => s.translated p dec g { r with addr := dpa }

/-- Whether a SANITIZE that runs affects a domain (R355). -/
def State.sanitized (s : State) (d : Nat) : Bool :=
  s.ring.jobs.any fun j => j.op == 0x23 && (j.kind != 0 || j.dom == d)

/-- A peer request from its decode to its admission (R49, R97, R215, R226). -/
def State.peerRequest (s : State) (d : Nat) (r : Req) (devBits : Nat) : State :=
  let ls := s.linksTo d
  let g := (ls[poolAddr devBits r.addr / 16 % ls.length]?).getD 0
  let r := { r with agent := .peer d, tr := { r.tr with t0 := s.gtc, group := g } }
  let fault := fun (s : State) (r : Req) (type err : Nat) (dom : Nat) =>
    (s.log { type := type, level := 1, ukind := 8, unit := d, dom := dom, loc := r.addr }).refuse r err 3
  match s.servedDomain r.addr with
  | none => fault s r 0x0402 0x01 0xFFFF
  | some (k, e) =>
    let r := { r with dom := k, entry := e }
    if devBits != s.devNum || !s.homedHere e r.addr then fault s r 0x0402 0x02 k
    else if s.sanitized k then fault s r 0x0402 0x01 k
    else if s.keyAbsent k e then s.refuseKey r
    else
      let s := s.countBlk g 0x05 1 (some k) (some e.qclass)
      let (accepted, r, s) := s.takeCredit r
      let s := if e.paced && !accepted then s.noteUncredited r else s
      s.offer g { req := r, master := 256 + d, cls := e.qclass, lines := 1, accepted := accepted }

end Sys2Proof.Machine
end

