-- ==== Sys2Proof/Machine/Protocol.lean ====
section
/-!
DEFINITION. What a message of the pool or a response of a host does when it arrives: requests, snoops, responses, data, writebacks,
mirror and paced messages (R57, R77, R83 to R92, R229 to R234). The commands and a received flit both come here.
-/
namespace Sys2Proof.Machine

/-- A reply to a message, toward its sender. -/
def Msg.reply (m : Msg) (opc : Nat) : Msg := { (default : Msg) with opc := opc, dst := m.src, txn := m.txn, addr := m.addr }

/-! ### Data returned to the home -/

/-- The granule of a line whose data has changed under a migration's hold copied again before the flip (R112). -/
def State.unhold (s : State) (d : Nat) (e : Entry) (dpa : Nat) : State :=
  let key := e.mapKey dpa
  { s with tier := { s.tier with migs := s.tier.migs.map fun m =>
      if m.dom == d && m.page == key && m.phase == .held then { m with phase := .written } else m } }

/-- Returned data written as Home Dirty (R85, R86), mirrored where the domain is replicated (R57); discarded while the domain's
key slot is being erased (step 3 of Table 07-9). It needs no transaction entry: where its block has to be fetched, or a victim has yet
to leave, it holds its line until it finds its place, and data that comes after it takes its place. -/
def State.absorb (s : State) (dpa : Nat) (x : Line) (poison : Bool) : State :=
  match s.servedDomain dpa with
  | none => s
  | some (d, e) =>
    if (s.slot d).st == 3 then s
    else
      match s.coh.txs.find? fun t => t.purpose == .absorb && t.line / 64 == dpa / 64 with
      | some t => s.updTx t.id fun t => { t with req := { t.req with data := x, poison := poison } }
      | none =>
        let r : Req := { (default : Req) with
          op := .wrCur, dom := d, entry := e, addr := dpa, data := x, be := BitVec.allOnes 64, poison := poison }
        let (t, s) := (s.unhold d e dpa).newTx { (default : HomeTx) with
          slice := e.slice dpa, line := dpa, purpose := .absorb, phase := .install, req := r }
        s.doWrite t

/-! ### Requests from peers -/

/-- A request message taken at its home (R85). -/
def State.onRequest (s : State) (op : ReqOp) (m : Msg) (upset : Upset) : State :=
  if s.lost then s
  else
    let r : Req := { (default : Req) with
      op := op, tag := m.txn, addr := m.dpa, data := m.data, be := m.be, poison := m.poison, upset := upset }
    s.peerRequest m.src r (m.addr / 2 ^ 40)

/-! ### Snoops (Table 04-8) -/

/-- The way of a line that this device caches as a peer's. -/
def State.peerWay (s : State) (dpa : Nat) : Option (Nat × Entry × Nat) :=
  match s.servedDomain dpa with
  | none => none
  | some (d, e) =>
    match s.kWay (e.slice dpa) dpa with
    | some w => if (s.kLine (e.slice dpa) (kSet dpa) w).st.isPeer then some (d, e, w) else none
    | none => none

/-- The data forwarded to the requester that a snoop names. -/
def State.forward (s : State) (m : Msg) (grant : Nat) (x : Line) (poison : Bool) : State :=
  s.toPeer { (default : Msg) with
    opc := 0x61, dst := m.reqDev, txn := m.reqTxn, addr := m.addr, grant := grant, poison := poison, data := x }

/-- A snoop answered from the line as this device holds it (Table 04-8). A tracker that waits for ownership falls to IMD
when the line is lost. -/
def State.answerSnoop (s : State) (m : Msg) : State :=
  let a := m.dpa
  match s.peerWay a with
  | none =>
    let mia := s.coh.reqs.any fun t => t.wait == .mia && t.line / 64 == a / 64
    s.toPeer { m.reply 0x40 with wbp := mia }
  | some (_, e, w) =>
    let sl := e.slice a
    let l := s.kLine sl (kSet a) w
    let dirty := l.st == .peerM
    let shared := l.st == .peerS
    let s := if m.opc == 0x20 then
        let s := s.kDrop sl (kSet a) w
        { s with coh := { s.coh with reqs := s.coh.reqs.map fun t =>
            if t.wait == .smd && t.line / 64 == a / 64 then { t with wait := .imd } else t } }
      else if m.opc == 0x23 then s.kTouch sl a w
      else (s.setKLine sl (kSet a) w { l with st := .peerS }).kTouch sl a w
    let data := { m.reply 0x62 with poison := l.poison, data := l.data }
    if m.opc == 0x20 then (if dirty then s.toPeer data else s.toPeer (m.reply 0x40))
    else if shared then s.toPeer (m.reply 0x41)
    else if m.opc == 0x21 then (if dirty then s.toPeer { data with opc := 0x63 } else s.toPeer (m.reply 0x41))
    else if m.opc == 0x22 then
      let s := s.forward m 2 l.data l.poison
      if dirty then s.toPeer { data with opc := 0x64 } else s.toPeer (m.reply 0x42)
    else (s.forward m 0 l.data l.poison).toPeer (m.reply 0x43)

/-- The hosts to recall before a snoop is answered (R74), and the back-invalidation they get: those whose copies exceed the
state it leaves. A forward without caching recalls a host that may have changed the line (R93). -/
def State.snoopRecalls (s : State) (m : Msg) : List Nat × Nat :=
  match s.peerWay m.dpa with
  | none => ([], 0)
  | some (_, e, _) =>
    if m.opc == 0x20 then (s.ownHosts (e.slice m.dpa) m.dpa false, biInv)
    else (s.ownHosts (e.slice m.dpa) m.dpa true, biData)

/-- A snoop taken: held behind a grant in flight (R88), waiting for this device's own work on the line, or answered, its
hosts first (R74). -/
def State.onSnoop (s : State) (m : Msg) : State :=
  let a := m.dpa
  let track := s.coh.reqs.find? fun t => t.line / 64 == a / 64 && (t.wait == .isd || t.wait == .imd)
  if m.ord && track.isSome then
    { s with coh := { s.coh with reqs := s.coh.reqs.map fun t =>
        if t.line / 64 == a / 64 && (t.wait == .isd || t.wait == .imd) then { t with held := some m } else t } }
  else if (s.coh.recalls.any fun r => r.line / 64 == a / 64) || s.coh.txs.any fun t => t.touches a then
    { s with coh := { s.coh with snpWait := s.coh.snpWait ++ [m] } }
  else
    let (ports, kind) := s.snoopRecalls m
    match s.peerWay a, ports.isEmpty with
    | some (_, e, w), false =>
      let l := s.kLine (e.slice a) (kSet a) w
      s.startRecall (e.slice a) a ports kind (some m) l.st l.data l.poison
    | _, _ => s.answerSnoop m

/-- Snoops that waited for this device's own work taken again. -/
def State.wakeSnoops (s : State) : State :=
  let ms := s.coh.snpWait
  if ms.isEmpty then s
  else ms.foldl State.onSnoop { s with coh := { s.coh with snpWait := [] } }

/-! ### Responses at the home -/

/-- The transaction a response counts toward, while it awaits its sender. -/
def State.awaited (s : State) (m : Msg) : Option HomeTx :=
  match s.tx m.txn with
  | some t => if t.phase == .snoop && t.peers.contains m.src then some t else none
  | none => none

/-- A response without data counted (R85, R86): `fwded` when the holder has forwarded the line. -/
def State.onResponse (s : State) (m : Msg) (fwded : Bool) : State :=
  match s.awaited m with
  | none => s
  | some t =>
    let wb := m.wbp && !t.wbSeen.contains m.src
    let seen := if m.wbp then t.wbSeen.erase m.src else t.wbSeen
    (s.updTx t.id fun t => { t with
      peers := t.peers.erase m.src, fwded := t.fwded || fwded, wbSeen := seen,
      wbWait := if wb then t.wbWait ++ [m.src] else t.wbWait }).advance t.id

/-- A response with data: merged as Home Dirty, then counted (R85). -/
def State.onResponseData (s : State) (m : Msg) (fwded : Bool) : State :=
  match s.awaited m with
  | none => s
  | some t =>
    (s.absorb t.line m.data m.poison).onResponse { m with wbp := false } fwded

/-- An uncorrectable entry met by a writeback, a notice or a host's response (R77). -/
def State.meetUpset (s : State) (dpa : Nat) (upset : Upset) : State :=
  match s.servedDomain dpa with
  | some (_, e) =>
    if upset == .directory && s.homedHere e dpa && (s.dirWay (e.slice dpa) dpa).isSome then s.loseDir (e.slice dpa) dpa e
    else s
  | none => s

/-- `HELD` applied (R77): with none of the sector held, the sender's vector bit is cleared. -/
def State.applyHeld (s : State) (m : Msg) : State :=
  match s.servedDomain m.dpa with
  | some (_, e) =>
    let sl := e.slice m.dpa
    if m.held == 0 && (s.dirWay sl m.dpa).isSome then s.putDir sl m.dpa (dirPeer (s.dirBits sl m.dpa) m.src false) else s
  | none => s

/-- Whether a transaction snoops a line: a request's own, or one of a sector. -/
def HomeTx.snoops (t : HomeTx) (dpa : Nat) : Bool := t.phase == .snoop && t.line / 64 == dpa / 64

/-- The transactions in progress for a line that a writeback joins (R86): its sender's response is counted once both have come. -/
def State.joinWb (s : State) (m : Msg) : State :=
  (s.coh.txs.filter fun t => t.snoops m.dpa).foldl (fun s t =>
    if t.wbWait.contains m.src then (s.updTx t.id fun t => { t with wbWait := t.wbWait.erase m.src }).advance t.id
    else if t.peers.contains m.src then s.updTx t.id fun t => { t with wbSeen := t.wbSeen ++ [m.src] }
    else s) s

/-- A WbData at the home (R86, Table 04-9). -/
def State.onWbData (s : State) (m : Msg) (upset : Upset) : State :=
  let s := s.meetUpset m.dpa upset
  let s := (s.absorb m.dpa m.data m.poison).applyHeld m
  let s := match s.servedDomain m.dpa with
    | some (_, e) =>
      let sl := e.slice m.dpa
      let bits := s.dirBits sl m.dpa
      if dirLs bits (lineIn m.dpa) == dirPE && dirPtr bits (lineIn m.dpa) == m.src then s.dirLine sl m.dpa dirU 0 else s
    | none => s
  (s.toPeer (m.reply 0x44)).joinWb m

/-- An EvictNotice at the home (Table 04-9). -/
def State.onEvictNotice (s : State) (m : Msg) (upset : Upset) : State :=
  let s := (s.meetUpset m.dpa upset).applyHeld m
  let s := match s.servedDomain m.dpa with
    | some (_, e) =>
      let sl := e.slice m.dpa
      let bits := s.dirBits sl m.dpa
      let st := dirLs bits (lineIn m.dpa)
      let mine := dirPtr bits (lineIn m.dpa) == m.src
      let none_ := dirPeers bits == 0 && dirHosts bits == 0
      if st == dirSH then (if none_ then s.dirLine sl m.dpa dirU 0 else s)
      else if st == dirSF && mine then s.dirLine sl m.dpa (if none_ then dirU else dirSH) 0
      else if st == dirPE && mine then s.dirLine sl m.dpa dirU 0
      else s
    | none => s
  s.toPeer (m.reply 0x44)

/-! ### Replies at the requester (Table 04-7) -/

/-- A tracker entry freed. -/
def State.untrack (s : State) (t : ReqTrack) : State :=
  { s with coh := { s.coh with reqs := s.coh.reqs.filter fun x => x.txn != t.txn } }

/-- The tracker entry that a reply names, in one of the states given, for a transaction with the sender. -/
def State.tracked (s : State) (m : Msg) (ws : List PeerWait) : Option ReqTrack :=
  s.coh.reqs.find? fun t => t.txn == m.txn && ws.contains t.wait && (t.home == m.src || m.opc == 0x61)

/-- A snoop held in a tracker entry answered once the entry's own work is done (R88). -/
def State.answerHeld (s : State) (t : ReqTrack) : State :=
  match t.held with
  | some m => s.onSnoop m
  | none => s

/-- A host request served on a line that has just been granted (Table 04-7); a line that owns itself takes the waiting write. -/
def State.serveGranted (s : State) (r : Req) : State :=
  if (s.coh.recalls.any fun x => x.line / 64 == r.addr / 64) || s.coh.txs.any fun t => t.touches r.addr then s.requeue r
  else s.startReq r

/-- A line granted F or E installed, and the host served (Table 04-7). Until its victim has left, the data waits in the tracker
(R65). A line that no way may take any more is given up. -/
def State.installGrant (s : State) (t : ReqTrack) (grant : Nat) (x : Line) (poison : Bool) : State :=
  let r := t.req
  let sl := r.slice
  let st := if grant == 3 then LState.peerE else .peerF
  match s.kWay sl r.addr with
  | some w => ((((s.untrack t).kWrite sl r.addr w st x poison)).serveGranted r).answerHeld t
  | none =>
    let f := s.fillLine sl r.entry r.addr st x poison
    if !f.1 then
      { f.2 with coh := { f.2.coh with reqs := f.2.coh.reqs.map fun y => if y.txn == t.txn then { y with got := some (grant, x, poison) } else y } }
    else
      let s := f.2.untrack t
      if (s.kWay sl r.addr).isSome then (s.serveGranted r).answerHeld t
      else
        let s := if r.op.isWrite then s.requeue r else s.toHost r true x poison 0
        (s.sendEviction r.entry r.addr st x poison).answerHeld t

/-- Line data at a requester: the host is served, and a line granted F or E is installed (Table 04-7). -/
def State.onData (s : State) (m : Msg) : State :=
  match s.tracked m [.isd, .imd, .smd] with
  | none => s
  | some t =>
    if m.grant == 2 || m.grant == 3 then s.installGrant t m.grant m.data m.poison
    else ((s.untrack t).toHost t.req true m.data m.poison 0).answerHeld t

/-- Granted lines whose victims had yet to leave installed (R65). -/
def State.settleGrants (s : State) : State :=
  s.coh.reqs.foldl (fun s t =>
    match t.got with
    | some (g, x, poison) => s.installGrant t g x poison
    | none => s) s

/-- The line of a refused RdOwn given up (Table 04-7), once this device's own hosts have given up theirs (R74). -/
def State.giveUp (s : State) (r : Req) : State :=
  match s.kWay r.slice r.addr with
  | some w =>
    if (s.ownHosts r.slice r.addr false).isEmpty then s.kDrop r.slice (kSet r.addr) w else (s.evictWay r.slice (kSet r.addr) w).2
  | none => s

/-- A refused request at the requester: poison to a read, a discarded write completed, and recorded; the line is in I (Table
04-7). -/
def State.erred (s : State) (t : ReqTrack) (home err : Nat) : State :=
  let r := t.req
  let s := s.log { type := 0x0402, level := 1, ukind := 8, unit := home, dom := r.dom, loc := r.addr }
  (if t.wait == .smd then s.giveUp r else s).refuse r err 3

/-- The end of a mirror write (R57): the write it carried completes. -/
def State.endMirror (s : State) (tx : Nat) : State :=
  match s.tx tx with
  | some t =>
    let s := s.endTx tx
    match t.purpose with
    | .serve => s.sendCmp t.req
    | _ => s
  | none => s

/-- The transaction of a mirror message outstanding to a partner, and the state without it. -/
def State.takeMirror (s : State) (txn partner : Nat) : Option (HomeTx × State) :=
  match s.coh.mirOut.find? fun x => x.1 == txn && x.2.2 == partner with
  | some x =>
    let s := { s with coh := { s.coh with mirOut := s.coh.mirOut.erase x } }
    (s.tx x.2.1).map fun t => (t, s)
  | none => none

/-- A Cmp: a write, writeback, notice or mirror write of this device is complete (Table 04-7, R57). -/
def State.onCmp (s : State) (m : Msg) : State :=
  match s.tracked m [.iwa, .mia, .evt] with
  | some t =>
    let s := s.untrack t
    if t.wait == .iwa then s.toHost t.req false 0 false 0 else s
  | none =>
    match s.takeMirror m.txn m.src with
    | some (t, s) => if t.phase == .mirror then s.endMirror t.id else s
    | none => s

/-- An Err (Table 04-7): of a request, or of a mirror message, whose write then completes at the home alone. -/
def State.onErr (s : State) (m : Msg) : State :=
  match s.tracked m [.isd, .imd, .smd, .iwa, .mia, .evt] with
  | some t =>
    let s := s.untrack t
    if t.wait == .mia || t.wait == .evt then s else (s.erred t m.src m.err).answerHeld t
  | none =>
    match s.takeMirror m.txn m.src with
    | some (t, s) =>
      let s := s.log { type := 0x0402, level := 1, ukind := 8, unit := m.src, dom := t.req.dom, loc := t.line }
      if t.phase == .mirror then s.endMirror t.id else s.endMirrorRead t 0 true
    | none =>
      match s.link.preqs.find? fun t => t.txn == m.txn && t.home == m.src with
      | some t =>
        let s := { s with link := { s.link with preqs := s.link.preqs.filter fun x => x.txn != t.txn } }
        s.erred t m.src m.err
      | none => s

/-! ### Mirrors at the partner (R57) -/

/-- The domain under which a replication partner serves a mirror message: valid, replicated here, and of the sender. -/
def State.mirrorDomain (s : State) (m : Msg) : Option (Nat × Entry) :=
  match s.servedDomain m.dpa with
  | some (d, e) => if e.repl && e.replDev == s.devNum && e.member 0 == m.src then some (d, e) else none
  | none => none

/-- A mirror message answered NOT_HOME and recorded; one whose domain has no key here is handled as any other request (R150). -/
def State.mirrorRefused (s : State) (m : Msg) (type err : Nat) : State :=
  let s := s.log { type := type, level := 1, ukind := 8, unit := m.src, loc := m.dpa }
  s.toPeer { m.reply 0x45 with err := err }

/-- A MirWr: stored in the partner's own page map, under its own tiering, and answered with Cmp once it is. -/
def State.onMirWr (s : State) (m : Msg) : State :=
  match s.mirrorDomain m with
  | none => s.mirrorRefused m 0x0402 2
  | some (d, e) =>
    if s.keyAbsent d e then s.mirrorRefused m 0x0404 1
    else
      let a := m.dpa
      let r : Req := { (default : Req) with
        op := .wrCur, agent := .peer m.src, tag := m.txn, dom := d, entry := e, addr := a, data := m.data,
        be := BitVec.allOnes 64, poison := m.poison }
      let (t, s) := (s.unhold d e a).newTx { (default : HomeTx) with
        slice := e.slice a, line := a, purpose := .mirIn, phase := .install, req := r }
      s.doMirror t

/-- A MirRd: answered from DRAM with the partner's copy. -/
def State.onMirRd (s : State) (m : Msg) : State :=
  match s.mirrorDomain m with
  | none => s.mirrorRefused m 0x0402 2
  | some (d, e) =>
    if s.keyAbsent d e then s.mirrorRefused m 0x0404 1
    else
      let (x, poison) := s.lineNow d e m.dpa
      s.toPeer { m.reply 0x65 with data := x, poison := poison }

/-- A MirData at the home. -/
def State.onMirData (s : State) (m : Msg) : State :=
  match s.takeMirror m.txn m.src with
  | some (t, s) => if t.phase == .mirrorRead then s.endMirrorRead t m.data m.poison else s
  | none => s

/-! ### Paced replies (R234) -/

/-- A paced read's data or a paced write's completion at an exposing device: forwarded to its host, the credit's return
being the home's. -/
def State.onPaced (s : State) (m : Msg) : State :=
  match s.link.preqs.find? fun t => t.txn == m.txn && t.home == m.src with
  | some t =>
    if t.req.op.isWrite != (m.opc == 0xE1) then s
    else
      let s := { s with link := { s.link with preqs := s.link.preqs.filter fun x => x.txn != t.txn } }
      let s := if t.req.op.isWrite then s.freeWriteCredit t.req else s
      s.toHost t.req (m.opc == 0xE0) m.data m.poison 0
  | none => s

/-! ### Hosts' answers to back-invalidation -/

/-- The outstanding BISnp of a port that an answer for a line belongs to. -/
def State.biFor (s : State) (p dpa : Nat) : Option (Nat × Nat × Nat × Nat) :=
  s.coh.biOut.find? fun b => b.1 == p && (b.2.1 / 64 == dpa / 64 || (b.2.2.1 == biBlk && b.2.1 / 256 == dpa / 256))

/-- `HOSTVEC` after a port's BIRspI to a BISnpInvBlk: the bit of its group is cleared once no port under it has yet to
answer (R77). -/
def State.clearHost (s : State) (dpa p : Nat) (left : List Nat) : State :=
  let g := (s.place p).group
  if (s.portsUnder g).any fun q => q != p && left.contains q then s
  else
    match s.servedDomain dpa with
    | some (_, e) =>
      let sl := e.slice dpa
      if (s.dirWay sl dpa).isSome then s.putDir sl dpa (dirHost (s.dirBits sl dpa) g false) else s
    | none => s

/-- The lines of a sector after a port gave up its copies to a recall of a domain (steps 4 of Table 02-5 and 3 of Table
07-9): what it held alone is no longer held. -/
def State.lowerHost (s : State) (dpa p : Nat) (blk shared : Bool) : State :=
  match s.servedDomain dpa with
  | none => s
  | some (_, e) =>
    let sl := e.slice dpa
    let bits := s.dirBits sl dpa
    let alone := dirPeers bits == 0 && dirHosts bits == 0
    let new := (List.range 4).foldl (fun b i =>
      if !(blk || i == lineIn dpa) then b
      else if dirLs b i == dirHE && dirPtr b i == p then dirSet b i (if shared then dirSH else dirU) 0
      else if dirLs b i == dirSH && alone then dirSet b i dirU 0
      else b) bits
    if (s.dirWay sl dpa).isSome then s.putDir sl dpa new else s

/-- The end of a recall of this device's own hosts (R74): the record lowered, then the snoop answered or the eviction
sent. -/
def State.endRecall (s : State) (rc : HostRecall) (shared : Bool) : State :=
  let s := { s with coh := { s.coh with recalls := s.coh.recalls.filter fun x => x.line / 64 != rc.line / 64 } }
  match s.servedDomain rc.line with
  | none => s
  | some (_, e) =>
    let s := s.dirLine (e.slice rc.line) rc.line (if shared then dirSH else dirU) 0
    match rc.snoop with
    | some m =>
      if (s.peerWay rc.line).isSome then s.answerSnoop m
      else (s.sendEviction e rc.line rc.st rc.data rc.poison).answerSnoop m
    | none =>
      match s.kWay (e.slice rc.line) rc.line with
      | some w => s.evictPeer (e.slice rc.line) (kSet rc.line) w e
      | none => s

/-- A host's answer to a back-invalidation (R74, R77, R85): `shared` when it keeps a Shared copy. -/
def State.onBiRsp (s : State) (p dpa : Nat) (shared : Bool) : State :=
  match s.biFor p dpa with
  | none => s
  | some b =>
    let s := ({ s with coh := { s.coh with biOut := s.coh.biOut.erase b } } : State).biSync p
    let s : State := match s.coh.recalls.find? fun r => r.line / 64 == dpa / 64 && r.ports.contains p with
      | some rc =>
        let left := rc.ports.erase p
        if left.isEmpty then s.endRecall rc shared
        else { s with coh := { s.coh with
            recalls := s.coh.recalls.map fun x => if x.line / 64 == dpa / 64 then { x with ports := left } else x } }
      | none =>
        match s.coh.txs.find? fun t => t.phase == .snoop && t.ports.contains p && t.line / 256 == dpa / 256 &&
            (if b.2.2.1 == biBlk then t.purpose != .serve else t.touches dpa) with
        | some t =>
          let left := t.ports.erase p
          let s := s.updTx t.id fun t => { t with ports := left, hostShared := t.hostShared || shared }
          let s := if b.2.2.1 == biBlk && !shared then s.clearHost dpa p left else s
          let s := match t.purpose with
            | .recall _ _ => s.lowerHost dpa p (b.2.2.1 == biBlk) shared
            | _ => s
          s.advance t.id
        | none => s
    s.biDrain p

/-- A host's write that crosses a back-invalidation of the line to it (R86): absorbed, or merged into the copy whose recall
it answers (R74). -/
def State.hostWriteback (s : State) (p dpa : Nat) (x : Line) (poison : Bool) : State :=
  match s.coh.recalls.find? fun r => r.line / 64 == dpa / 64 && r.ports.contains p with
  | some rc =>
    let s : State := { s with coh := { s.coh with recalls := s.coh.recalls.map fun r =>
      if r.line / 64 == dpa / 64 then { rc with st := .peerM, data := x, poison := poison } else r } }
    match s.peerWay dpa with
    | some (_, e, w) => s.kWrite (e.slice dpa) dpa w .peerM x poison
    | none => s
  | none =>
    match s.peerWay dpa with
    | some (_, e, w) => s.kWrite (e.slice dpa) dpa w .peerM x poison
    | none => s.absorb dpa x poison

/-- One message fewer of a class outstanding to a peer (R281). -/
def State.lessOut (s : State) (d vc : Nat) : State :=
  { s with link := { s.link with outst := s.link.outst.upd (d * 8 + vc) (· - 1) } }

/-- What a message that arrives ends of the messages outstanding to its sender (Table 12-7): a request, writeback or mirror
message answered, or a snoop. -/
def State.endsLimit (s : State) (m : Msg) : State :=
  if m.opc == 0x65 then s.lessOut m.src 5
  else if m.opc / 32 == 2 && m.opc != 0x44 && m.opc != 0x45 || [0x62, 0x63, 0x64].contains m.opc then s.lessOut m.src 1
  else if [0x44, 0x45, 0x60, 0x61].contains m.opc then
    match s.coh.reqs.find? fun t => t.txn == m.txn && (t.home == m.src || m.opc == 0x61) with
    | some t => s.lessOut t.home (if t.wait == .mia || t.wait == .evt then 4 else 0)
    | none =>
      match s.coh.mirOut.find? fun x => x.1 == m.txn && x.2.2 == m.src with
      | some x => s.lessOut m.src (if (s.tx x.2.1).any fun t => t.phase == .mirrorRead then 5 else 4)
      | none => s
  else s

/-- A message of the coherence protocol or a paced one delivered (Table 04-5). -/
def State.deliverMsg (s : State) (m : Msg) : State :=
  match m.opc with
  | 0x01 => s.onRequest .rdS m .none
  | 0x02 => s.onRequest .rdOwn m .none
  | 0x03 => s.onRequest .rdCur m .none
  | 0x04 => s.onRequest .wrCur { m with be := BitVec.allOnes 64 } .none
  | 0x05 => s.onRequest .wrPtl m .none
  | 0x20 | 0x21 | 0x22 | 0x23 => s.onSnoop m
  | 0x40 | 0x41 => s.onResponse m false
  | 0x42 | 0x43 => s.onResponse m true
  | 0x44 => s.onCmp m
  | 0x45 => s.onErr m
  | 0x60 | 0x61 => s.onData m
  | 0x62 | 0x63 => s.onResponseData m false
  | 0x64 => s.onResponseData m true
  | 0x65 => s.onMirData m
  | 0x80 => s.onWbData m .none
  | 0x81 => s.onEvictNotice m .none
  | 0x82 => s.onMirWr m
  | 0xA2 => s.onMirRd m
  | 0xC0 => s.onRequest .pRd m .none
  | 0xC1 => s.onRequest .pWr m .none
  | 0xE0 | 0xE1 => s.onPaced m
  | _ => s

/-- What leaves the mesh taken by the blocks of its stop. -/
def State.eject (s : State) (x : MeshLoad) : State :=
  match x with
  | .req r => s.arrive r
  | .msg m => s.deliverMsg m

/-- Mesh clocks until nothing in the mesh can move, at most as many as its messages have hops to make. -/
def State.meshLoop : Nat → State → State
  | 0, s => s
  | f + 1, s =>
    match s.mesh.clock s.homeTakes with
    | none => s
    | some (m, out) => State.meshLoop f (out.foldl State.eject { s with mesh := m })

/-- The mesh run until nothing in it can move; a route has at most 14 hops (R24). -/
def State.meshRun (s : State) : State := s.meshLoop (15 * s.mesh.msgs.length)

/-- What the arrival of any message or request lets go: what crosses the mesh, waiting snoops, then waiting requests, and the
requests of the mesh that find their homes with room again (R82). -/
def State.settleAll (s : State) : State :=
  let s := s.meshRun.settle.settleGrants.wakeSnoops.settle
  if s.mesh.msgs.isEmpty then s else s.meshRun.settle

end Sys2Proof.Machine
end

