-- ==== Sys2Proof/Machine/Regulation.lean ====
section
/-!
DEFINITION. Regulation, pacing and shaping (chapter 10): FLOOR, windows and pools (R217 to R225), the regulator's commits
(R224, R238), and the egress shaper with its samples (R235 to R237).
-/
namespace Sys2Proof.Machine

/-! ### FLOOR and effmin -/

/-- A healthy channel (R223). -/
def State.healthy (s : State) (n : Nat) : Bool := s.chanTakes n && !s.flag (R.CH_REFSTAT_THROTTLE n)

/-- FLOOR for a window of `w` µs (R223): 70 % of the peak of each healthy channel, 8 bytes at each transfer; `RATE` counts
100 MT/s. -/
def State.floorFor (s : State) (w : Nat) : Nat :=
  ((List.range 16).foldl (fun a n => if s.healthy n then a + s.rd (R.CH_CFG_RATE n) else a) 0) * 35 * w / 4

/-- The committed window in µs. -/
def State.window (s : State) : Nat := s.rd R.RGL_CTL_WINDOW.com

/-- Every master: 256 host masters and 16 peer masters (R215). -/
def allMasters : List Nat := List.range 272

/-- A master's committed minimum. -/
def State.minOf (s : State) (m : Nat) : Nat :=
  if m < 256 then s.rd (R.RGL_MST_MIN m).com else s.rd (R.RGL_PEER_MIN (m - 256)).com

/-- Σ `MIN`. -/
def State.sumMin (s : State) : Nat := allMasters.foldl (fun a m => a + s.minOf m) 0

/-- PT, the paced total of a setting of the pace registers (R224). -/
def pacedTotal (rd : Fld → Nat) : Nat :=
  (List.range 48).foldl (fun a i =>
    let pq := rd (R.RGL_PACE_PQR i) + rd (R.RGL_PACE_PQW i)
    a + rd (R.RGL_PACE_PBUDGET i) + pq) 0

/-- A committed field. -/
def State.rdCom (s : State) (f : Fld) : Nat := s.rd f.com

/-- FLOOR recomputed after a change of channel state, rate or throttle, and a fall handled (R223, R225). -/
def State.floorSync (s : State) : State :=
  let floor := s.floorFor s.window
  let pt := pacedTotal s.rdCom
  let healthy := ((List.range 16).filter s.healthy).length
  let s := (s.wr R.RGL_FLOOR_FLOOR floor).wr R.RGL_FLOOR_HEALTHY healthy
  if s.sumMin + pt > floor then
    let beyond := decide (pt > floor / 4)
    let s := if beyond then s.set1 R.RGL_STAT_PACEOVER else s
    if s.flag R.RGL_STAT_DEGRADED then s
    else
      let s := (s.set1 R.RGL_STAT_DEGRADED).set1 R.RGL_STAT_DEGEVT
      let s := s.log { type := 0x0605, level := 3, ukind := 7, detail := BitVec.ofNat 128 (b2n beyond) }
      s.event 0x07 floor
  else s

/-- The return of QOS at a boundary, once the minima fit again (R225). -/
def State.qosReturn (s : State) : State :=
  if s.flag R.RGL_STAT_DEGRADED && s.sumMin + pacedTotal s.rdCom ≤ s.rd R.RGL_FLOOR_FLOOR then
    let s := (s.clr R.RGL_STAT_DEGRADED).clr R.RGL_STAT_PACEOVER
    (s.log { type := 0x0606, level := 3, ukind := 7 }).event 0x08 (s.rd R.RGL_FLOOR_FLOOR)
  else s

/-- effmin of a master (R225). -/
def State.effminOf (s : State) (m sum av : Nat) : Nat := if sum ≤ av then s.minOf m else s.minOf m * av / sum

/-! ### Windows -/

/-- Whether a master has a request waiting in a region. -/
def State.waitsIn (s : State) (rg m : Nat) : Bool :=
  [0, 1, 2, 3].any fun i => (s.rgl.admq.get (4 * rg + i)).any fun w => w.master == m

/-- The sum of `WEIGHT` over the masters that wait in a region. -/
def State.waitingWeight (s : State) (rg : Nat) : Nat :=
  (allMasters.filter (s.waitsIn rg)).foldl (fun a m => a + s.weight m) 0

/-- The regions in which a peer's requests arrive: those of its links. -/
def State.peerRegions (s : State) (d : Nat) : List Nat :=
  [0, 1, 2, 3].filter fun r => [0, 1, 2, 3].any fun i => s.linkUp (4 * r + i) d

/-- The share of a peer master's effmin in one of its regions (R220). -/
def State.peerShare (s : State) (d eff r : Nat) : Nat :=
  let rs := s.peerRegions d
  let tot := rs.foldl (fun a q => a + s.rgl.lastAdm.get (q * 16 + d)) 0
  if !rs.contains r then 0
  else if s.rgl.fresh || tot == 0 then eff / rs.length
  else eff * s.rgl.lastAdm.get (r * 16 + d) / tot

/-- own at a boundary: each master's effmin in its region (R215, R219). -/
def State.ownTable (s : State) (eff : Nat → Nat) : Tab Nat :=
  allMasters.foldl (fun t m =>
    if m < 256 then
      if (s.place (m / 8)).on then t.put ((s.place (m / 8)).group / 4 * 512 + m) (eff m) else t
    else [0, 1, 2, 3].foldl (fun t r => t.put (r * 512 + m) (s.peerShare (m - 256) (eff m) r)) t) Tab.empty

/-- An amount divided among the regions by weight; in four equal parts where no weight waits (R220). -/
def splitPool (a : Nat) (w : Nat → Nat) : Tab Nat :=
  let tot := w 0 + w 1 + w 2 + w 3
  [0, 1, 2, 3].foldl (fun t r => t.put r (if tot == 0 then a / 4 else a * w r / tot)) Tab.empty

/-- Credits withheld under R227 given back. -/
def State.payOwed (s : State) : State :=
  (List.range 96).foldl (fun s i =>
    (List.range (s.rgl.owed.get i)).foldl (fun s _ =>
      ({ s with rgl := { s.rgl with owed := s.rgl.owed.upd i (· - 1) } } : State).giveCredit (i / 2) (i % 2)) s) s

/-- The paced credit totals granted to a peer (R226). -/
def State.totalsFor (s : State) (d : Nat) : Nat := s.rdCom (R.RGL_PACE_PQR (32 + d)) + 16 * s.rdCom (R.RGL_PACE_PQW (32 + d))

/-- PCrInit sent to a peer (R284, Table 12-9). -/
def State.pcrInit (s : State) (d : Nat) : State :=
  s.toPeer { (default : Msg) with opc := 0xA0, dst := d, data := BitVec.ofNat 512 (s.totalsFor d) }

/-- Pending settings put in force (R224); a peer whose totals they change is told (R284). -/
def State.applyPending (s : State) : State :=
  match s.rgl.pending with
  | none => s
  | some t =>
    let old := s.totalsFor
    let s := t.cells.foldl (fun s c => s.setReg (3 * 2 ^ 28 + c.1) c.2) s
    let s := { s with rgl := { s.rgl with pending := none, fresh := true } }
    let told := (List.range 16).filter fun d => s.totalsFor d != old d && !(s.linksTo d).isEmpty
    (told.foldl (fun s d => s.pcrInit d) s).wr R.RGL_STAT_WINDOW s.window

/-- The class counters of a window closed (Table 10-10). -/
def State.closeCounts (s : State) : State :=
  let s := (List.range 64).foldl (fun s c =>
    (s.wr (R.RGL_CLSCNT_COUNT c) (min (s.rgl.used.get c) (2 ^ 25 - 1))).wr (R.RGL_CLSCNT_CAPHIT c) (b2n (s.rgl.capHit.get c))) s
  { s with rgl := { s.rgl with used := Tab.empty, capHit := Tab.empty } }

/-- A window boundary (R217, R219, R220, R224, R225, R227). -/
def State.windowStart (s : State) : State :=
  let s : State := { s with rgl := { s.rgl with lastAdm := s.rgl.admitted, admitted := Tab.empty } }
  let s := (s.closeCounts.applyPending.floorSync).qosReturn
  let floor := s.rd R.RGL_FLOOR_FLOOR
  let pt := pacedTotal s.rdCom
  let sum := s.sumMin
  let eff := fun m => s.effminOf m sum (floor - pt)
  let total := allMasters.foldl (fun a m => a + eff m) 0
  let rgl := s.rgl
  let s := { s with rgl := { rgl with
    effmin := allMasters.foldl (fun t m => t.put m (eff m)) Tab.empty
    own := s.ownTable eff
    pool := splitPool (floor - total - pt) s.waitingWeight
    fresh := false
    paced := Tab.empty } }
  s.payOwed

/-- WINDOW_START (R217). -/
def execWindowStart (s : State) : Answer := .next s.windowStart.settleAll

/-- Unused pool moved to the regions where a master with weight waits, in proportion (R220); what the division leaves over
goes to the first of them. -/
def State.rebalance (s : State) : State :=
  let w := s.waitingWeight
  let need := [0, 1, 2, 3].filter fun r => w r > 0
  let spare := ([0, 1, 2, 3].filter fun r => w r == 0).foldl (fun a r => a + s.rgl.pool.get r) 0
  match need with
  | [] => s
  | f :: _ =>
    let tot := need.foldl (fun a r => a + w r) 0
    let part := fun r => spare * w r / tot
    let left := spare - need.foldl (fun a r => a + part r) 0
    let pool := [0, 1, 2, 3].foldl (fun (t : Tab Nat) r =>
      if w r == 0 then t.put r 0 else t.upd r (· + part r + if r == f then left else 0)) s.rgl.pool
    { s with rgl := { s.rgl with pool := pool } }

/-- POOL_REBALANCE (R220). -/
def execPoolRebalance (s : State) : Answer := .next s.rebalance

/-! ### Commits -/

/-- The staged regulator registers: `RGL_CTL`, and Tables 10-7, 10-8, 10-9 and 10-11 (R238). -/
def stagedRgl : List Nat :=
  R.RGL_CTL :: ((List.range 256).map R.RGL_MST ++ (List.range 16).map R.RGL_PEER ++ (List.range 48).map R.RGL_PACE ++
    (List.range 64).map R.RGL_CLS ++ (List.range 32).map R.RGL_RGMAP)

/-- A regulator register as last committed: the settings that wait for the boundary, or those in force. -/
def State.rglLatest (s : State) (off : Nat) : BitVec 32 :=
  match s.rgl.pending with
  | some t => ((t.cells.find? fun c => c.1 == off).map (·.2)).getD (s.reg (3 * 2 ^ 28 + off))
  | none => s.reg (3 * 2 ^ 28 + off)

/-- A field of a setting given by its registers. -/
def rdSetting (get : Nat → BitVec 32) (f : Fld) : Nat := fld (get f.off) f.hi f.lo

/-- Σ `MIN` of a setting. -/
def settingMin (rd : Fld → Nat) : Nat :=
  allMasters.foldl (fun a m => a + rd (if m < 256 then R.RGL_MST_MIN m else R.RGL_PEER_MIN (m - 256))) 0

/-- Check 4 of Table 10-2: the paced merge reservation in every channel of every paced domain. -/
def State.mergeCovers (s : State) (pqw : Nat) : Bool :=
  s.domains.all fun d => !Entry.paced d.2 || (Entry.channels d.2).all fun c => decide (pqw ≤ s.claim.merge.get (c * 256 + 0x30))

/-- The checks of a regulator setting in the order of Table 10-2: 0 when it passes. Checks 1 and 2 are `made` or not. -/
def State.rglChecks (s : State) (new : Nat → BitVec 32) (made : Bool) : Nat :=
  let rd := rdSetting new
  let floor := s.floorFor (rd R.RGL_CTL_WINDOW)
  let m := settingMin rd
  let pt := pacedTotal rd
  let sum := fun (f : Nat → Fld) => (List.range 48).foldl (fun a i => a + rd (f i)) 0
  if made && decide (m + pt > floor) then 0x30
  else if made && decide (pt > floor / 4) then 0x30
  else if sum R.RGL_PACE_PQR > 16 || sum R.RGL_PACE_PQW > 8 then 0x31
  else if !s.mergeCovers (sum R.RGL_PACE_PQW) then 0x31
  else 0

/-- The checks of a commit: 1 and 2 are made when it raises Σ `MIN`, raises PT or changes `WINDOW` (R224). -/
def State.rglCheck (s : State) (new : Nat → BitVec 32) : Nat :=
  let rd := rdSetting new
  let old := rdSetting s.rglLatest
  s.rglChecks new (decide (settingMin rd > settingMin old) || decide (pacedTotal rd > pacedTotal old) ||
    rd R.RGL_CTL_WINDOW != old R.RGL_CTL_WINDOW)

/-- The checks of a commit group: it is exempt from 1 and 2 when no `MIN` rises, no paced total rises and `WINDOW` stays
(item 4 of R331). -/
def State.rglGroupCheck (s : State) (new : Nat → BitVec 32) : Nat :=
  let rd := rdSetting new
  let old := rdSetting s.rglLatest
  let min := fun (rd : Fld → Nat) (m : Nat) => rd (if m < 256 then R.RGL_MST_MIN m else R.RGL_PEER_MIN (m - 256))
  s.rglChecks new ((allMasters.any fun m => decide (min rd m > min old m)) || decide (pacedTotal rd > pacedTotal old) ||
    rd R.RGL_CTL_WINDOW != old R.RGL_CTL_WINDOW)

/-- A setting that has passed its checks: it waits for the next boundary (R224). The sources recorded as uncredited are
forgotten (R228, R234). -/
def State.rglCommit (s : State) (new : Nat → BitVec 32) : State :=
  let t : Tab (BitVec 32) := ⟨(stagedRgl.mergeSort).map fun o => (o, new o)⟩
  { s with
    rgl := { s.rgl with pending := some t, uncred := [] }
    link := { s.link with puncred := [] } }

/-- Σ `PQW` of a setting. -/
def settingPqw (rd : Fld → Nat) : Nat := (List.range 48).foldl (fun a i => a + rd (R.RGL_PACE_PQW i)) 0

/-- The claims of feature 0x30 that a regulator setting of `pqw` paced writes makes: that many entries in every channel of the
channel set of a paced domain among `doms` that holds fewer. The spec gives the reservation no register of its own: that the
commit claims it is the model's (DESIGN CHOICE, log entry 102). -/
def State.pacedClaims (s : State) (doms : List (Nat × Entry)) (pqw : Nat) : List Claim :=
  let chans := ((doms.filter fun d => Entry.valid d.2 && Entry.paced d.2).map fun d => Entry.channels d.2).flatten.eraseDups
  (chans.filter fun c => decide (s.claim.merge.get (c * 256 + 0x30) < min pqw 8)).map fun c =>
    { on := .merge c, feature := 0x30, n := pqw }

/-- The releases of feature 0x30 by a setting with no paced write. -/
def State.pacedReleases (s : State) (pqw : Nat) : List Claim :=
  if pqw = 0 then
    (s.claim.merge.cells.filter fun x => x.1 % 256 == 0x30).map fun x => { on := .merge (x.1 / 256), feature := 0x30 }
  else []

/-- The claims and releases of the paced merge reservation that a setting makes as one step, the valid domains being `doms`. A
denied claim leaves every holder as it was. -/
def State.rglClaims (s : State) (doms : List (Nat × Entry)) (new : Nat → BitVec 32) : Bool × State :=
  let pqw := settingPqw (rdSetting new)
  let r := s.claimStep (s.pacedReleases pqw) (if pqw ≤ 8 then s.pacedClaims doms pqw else [])
  if r.1.isEmpty then (true, r.2) else (false, { r.2 with claim := s.claim })

/-- A setting checked for a path and committed, or its status told (R224). A setting that its checks refuse claims nothing. -/
def State.rglTake (s : State) (p : Path) (new : Nat → BitVec 32) : State :=
  let r := s.rglClaims s.domains new
  let st := r.2.rglCheck new
  let s := if st == 0 then r.2.rglCommit new else { (if r.1 then s else r.2) with claim := s.claim }
  (s.wr (R.RGL_STAT_STATUS.on p) st).clr (R.RGL_STAT_BUSY.on p)

/-- A commit of a path's staged regulator settings (R224): discarded while its `BUSY` is 1; before `READY` it waits at the
arbiter (R456). -/
def State.rglCommitFrom (s : State) (p : Path) : State :=
  let new := fun off => s.reg (pathOff p off)
  if s.flag (R.RGL_STAT_BUSY.on p) then s
  else if !s.flag R.CHIP_BOOTSTAT_READY then
    let t : Tab (BitVec 32) := ⟨(stagedRgl.mergeSort).map fun o => (o, new o)⟩
    (({ s with rgl := { s.rgl with queued := s.rgl.queued ++ [(p, t)] } }) : State).set1 (R.RGL_STAT_BUSY.on p)
  else s.rglTake p new

/-- The settings that waited for `READY` taken in order. -/
def State.rglTakeQueued (s : State) : State :=
  s.rgl.queued.foldl (fun s x =>
    s.rglTake x.1 fun off => ((x.2.cells.find? fun c => c.1 == off).map (·.2)).getD (regReset off))
    ({ s with rgl := { s.rgl with queued := [] } } : State)

/-- The committed settings copied into a path's staging (R238). -/
def State.rglCopy (s : State) (p : Path) : State :=
  if s.flag (R.RGL_STAT_BUSY.on p) then s
  else
    let s := stagedRgl.foldl (fun s o => s.setReg (pathOff p o) (s.rglLatest o)) s
    s.wr (R.RGL_STAT_STATUS.on p) 0

/-- REGULATOR_COMMIT (R224). -/
def execRegulatorCommit (p : Path) (s : State) : Answer :=
  .next (s.viaPath p R.RGL_COMMIT fun s => s.rglCommitFrom p)
/-- REGULATOR_COPY_TO_STAGING (R238). -/
def execRegulatorCopyToStaging (p : Path) (s : State) : Answer :=
  .next (s.viaPath p R.RGL_COMMIT fun s => s.rglCopy p)

/-! ### The egress shaper -/

/-- The slot and class of a bucket register (R239). -/
def bktOf (off : Nat) : Option (Nat × Nat) :=
  let o := off - 0x1000000
  let i := o % 0x400000 - 0x240000
  if off < 0x1000000 || o % 0x400000 < 0x240000 || i ≥ 0x4000 then none
  else if i % 0x800 < 0x200 || i % 0x800 ≥ 0x300 then none
  else some (8 * (o / 0x400000) + i / 0x800, (i % 0x800 - 0x200) / 4)

/-- A shaper register written: a write of a bucket refills it (R236, Table 10-13). -/
def State.writeShaper (s : State) (off : Nat) (v : BitVec 32) : State :=
  let s := s.putReg off v
  match bktOf off with
  | some (x, c) => { s with rgl := { s.rgl with bucket := s.rgl.bucket.put (bktKey x c) { below := 0, at_ := s.gtc } } }
  | none => s

/-- Whether a class may send: the shaper is off, the class is not shaped, or b ≥ 0. -/
def State.maySend (s : State) (x c : Nat) : Bool :=
  !s.flag (R.SH_CTL_EN x) || s.rd (R.SH_BKT_RATE x c) == 0 ||
    decide ((s.bucketNow x c).below ≤ s.rd (R.SH_BKT_BURST x c) * 640)

/-- The oldest message of a class. -/
def headOf (q : List Egress) (c : Nat) : Option Egress := q.find? fun e => e.cls == c

/-- The message a slot sends next (R229, R236): the oldest paced one, else round-robin among the classes that may send. -/
def State.egressPick (s : State) (x : Nat) : Option Egress :=
  let q := s.rgl.egress.get x
  match q.find? (·.paced) with
  | some e => some e
  | none =>
    let last := s.rgl.turnE.get x
    match ((List.range 64).map fun k => (last + 1 + k) % 64).find? fun c => (headOf q c).isSome && s.maySend x c with
    | some c => headOf q c
    | none => none

/-- A message of the shaper charged to its bucket, and its wait noted (R236, R237). -/
def State.charge (s : State) (x : Nat) (e : Egress) : State :=
  let s := s.chargeBucket x e.cls (if e.isData then 64 else 0)
  { s with rgl := { s.rgl with maxWait := s.rgl.maxWait.upd (bktKey x e.cls) (max · (s.gtc - e.at_)) } }

/-- Whether a slot's host can be sent to: its link is up. -/
def State.slotUp (s : State) (e : Egress) : Bool :=
  match e.toHost, e.req.agent with
  | true, .host p => (s.head p).flit != 0
  | _, _ => true

/-- A message sent from its slot: to the host, or into the Pennant outbound store; a paced read credit falls due
(R226, R236, R372). -/
def State.egressSend (s : State) (x : Nat) : State :=
  match s.egressPick x with
  | none => s
  | some e =>
    if !s.slotUp e then s
    else
      let s := s.charge x e
      let s := { s with rgl := { s.rgl with
        egress := s.rgl.egress.upd x (·.erase e), turnE := if e.paced then s.rgl.turnE else s.rgl.turnE.put x e.cls } }
      if e.toHost then
        let s := match e.req.agent with
          | .host p => s.send (if e.isData then .hostData p e.req.tag e.data e.poison e.hostState else .hostCmp p e.req.tag)
          | .peer _ => s
        let s := if e.credit == 0 then s else s.returnCredit e.req.source (e.credit - 1)
        s.traceLeave e.req e.outcome
      else (s.pushOut e.msg).traceLeave e.req 0

/-- EGRESS_SEND (R236). -/
def execEgressSend (slot : Fin 32) (s : State) : Answer := .next (s.egressSend slot)

/-- A slot's sample (R237): messages waiting and the longest wait of each class, in units of 10 ns. -/
def State.sampleSlot (s : State) (x : Nat) : State :=
  let q := s.rgl.egress.get x
  let s := (List.range 64).foldl (fun s c =>
    let k := bktKey x c
    let s := (s.wr (R.SH_SAMP_DEPTH x c) (min (q.filter fun e => e.cls == c).length 0xFFF)).wr
      (R.SH_SAMP_MAXDLY x c) (min (s.rgl.maxWait.get k / 10) 0xFFFF)
    { s with rgl := { s.rgl with maxWait := s.rgl.maxWait.put k 0 } }) s
  s.event 0x09 x

/-- SAMPLE (R237). -/
def execSample (slot : Fin 32) (s : State) : Answer := .next (s.sampleSlot slot)

end Sys2Proof.Machine
end

