-- ==== Sys2Proof/Machine/Reply.lean ====
section
/-!
DEFINITION. How a command's outcome reaches the one who gave it: completion records (R349), mailbox results (R307, R308),
Dynamic Capacity events (R51, R443) and head event logs (R311).
-/
namespace Sys2Proof.Machine

/-! ### Completion records -/

/-- A completion record (Table 15-6); its GTC is filled in when it is written. -/
def completion (tag op status kind job : Nat) (result : List Byte) : BitVec 1024 :=
  ofLe 1024 (leBytes 4 (BitVec.ofNat 32 tag) ++ leBytes 2 (BitVec.ofNat 16 op) ++ [byteOf status, byteOf kind] ++
    leBytes 4 (BitVec.ofNat 32 job) ++ List.replicate 20 0 ++ result)

/-- A completion record with its GTC. -/
def stamped (rec : BitVec 1024) (gtc : Nat) : BitVec 1024 := setFld rec 191 128 gtc

/-- Fields of a descriptor header (Table 15-4). -/
def descOp (d : BitVec 1024) : Nat := fld d 15 0
def descTag (d : BitVec 1024) : Nat := fld d 63 32
def descFence (d : BitVec 1024) : Bool := bit d 16
def descIrq (d : BitVec 1024) : Bool := bit d 17
/-- Bytes `lo` to `hi` of a descriptor, as a number. -/
def descBytes (d : BitVec 1024) (hi lo : Nat) : Nat := fld d (8 * hi + 7) (8 * lo)

/-- A ring. -/
def State.ringOf (s : State) (k : Nat) : Ring := s.ring.rings.get k
/-- The state with a ring changed. -/
def State.updRing (s : State) (k : Nat) (f : Ring → Ring) : State :=
  { s with ring := { s.ring with rings := s.ring.rings.upd k f } }

/-- The descriptor in progress of a source: ring k, or 8 + the logical port of a mailbox command 0xC030. -/
def State.descOf (s : State) (src : Nat) : Option (BitVec 1024) :=
  if src < 8 then (s.ringOf src).cur else s.ring.subs.get (src - 8)

/-- The return code of a device-specific status (R308). -/
def retOf (status : Nat) : RetCode := if status == 0 then .success else .invalidInput

/-- The end of a head's background command (R307). A result that crosses a Port reset finds none (R314). -/
def State.bgEnd (s : State) (p op status : Nat) : State :=
  s.updHead p fun h => if h.bg == some op then { h with bg := none, bgDone := some (op, status) } else h

/-- A CXL Sanitize or Secure Erase of a port told of its job (R298, R355): a refusal, its acceptance as a background command, or
its end. -/
def State.tellSanitize (s : State) (p kind status : Nat) : State :=
  let op := (s.head p).bg.getD 0x4400
  if kind == 3 then s.bgEnd p op status
  else if status != 0 then
    (s.updHead p fun h => { h with bg := none }).send (.mailbox p op (retOf status) status [])
  else s.send (.mailbox p op .background 0 [])

/-- A completion handed to its source: a ring's waits for its slot; a mailbox's first one is its command's output, and its
job's final one is read with 0xC031 (R347). Sources from 40 are the heads' CXL Sanitize commands. -/
def State.handCompletion (s : State) (src : Nat) (rec : BitVec 1024) (irq : Bool) : State :=
  let kind := fld rec 63 56
  let status := fld rec 55 48
  let s := if src < 8 || kind == 3 then s else { s with ring := { s.ring with subs := s.ring.subs.put (src - 8) none } }
  if src < 8 then s.updRing src fun r => { r with due := r.due ++ [(rec, irq)] }
  else if src ≥ 40 then s.tellSanitize (src - 40) kind status
  else if kind == 3 then s
  else s.send (.mailbox (src - 8) 0xC030 (retOf status) status (leBytes 128 (stamped rec s.gtc)))

/-- The first completion of the descriptor in progress of a source: kind 1 for an immediate one, 2 for a job's. -/
def State.firstCompletion (s : State) (src status kind job : Nat) (result : List Byte) : State :=
  match s.descOf src with
  | some d => s.handCompletion src (completion (descTag d) (descOp d) status kind job result) (descIrq d)
  | none => s

/-- A job changed. -/
def State.updJob (s : State) (id : Nat) (f : Job → Job) : State :=
  { s with ring := { s.ring with jobs := s.ring.jobs.map fun j => if j.id == id then f j else j } }

/-! ### Heads -/

/-- A Dynamic Capacity event sent to the head of a port: 1 Add Capacity, 2 Release Capacity (R51). -/
def State.dcSend (s : State) (p d : Nat) (add : Bool) : State :=
  (s.headLog p 4 (if add then 1 else 2) d (s.entry d).baseAddr).send (.dcEvent p d add)

/-- An Add Capacity event of a port: held until its head's mailbox is enabled (R35, R443). -/
def State.dcAdd (s : State) (p d : Nat) : State :=
  if (s.head p).mbx then s.dcSend p d true
  else { s with dom := { s.dom with decl := (s.dom.decl.filter fun x => x != (p, d)) ++ [(p, d)] } }

/-- A Release Capacity event of a port: an Add Capacity event still held for it is no longer sent. -/
def State.dcRelease (s : State) (p d : Nat) : State :=
  if s.dom.decl.contains (p, d) then { s with dom := { s.dom with decl := s.dom.decl.filter fun x => x != (p, d) } }
  else s.dcSend p d false

/-- The Dynamic Capacity events of a commit (R51): ports that gain their first permission bit, and ports that lose both. -/
def State.dcCommit (s : State) (d : Nat) (old new : Entry) : State :=
  let has := fun (e : Entry) (p : Nat) => e.valid && (e.rdPorts.testBit p || e.wrPorts.testBit p)
  (List.range 32).foldl (fun s p =>
    if has new p && !has old p then s.dcAdd p d
    else if has old p && !has new p then s.dcRelease p d
    else s) s

end Sys2Proof.Machine
end

