-- ==== Sys2Proof/Machine/Scan.lean ====
section
/-!
DEFINITION. Heat scans (R326): the records of the pages visited, and a scan stopped on its way.
-/
namespace Sys2Proof.Machine

/-- The record of a page in a scan (Table 14-10). -/
def scanRecord (p : PageEntry) (heat page : Nat) : BitVec 64 :=
  let ch := if p.state == 2 then p.slot * 2 ^ 52 + p.cchan * 2 ^ 48 else 0
  BitVec.ofNat 64 (ch + heat * 2 ^ 40 + b2n p.incomp * 2 ^ 37 + b2n p.mig * 2 ^ 36 + p.state * 2 ^ 34 + page)

/-- The pages of a scan visited from a page on: pages visited and records, newest first (R326). Heat is decayed to the
present epoch without an increment. -/
def State.scanFrom (s : State) (x : Scan) (e : Entry) : Nat → Nat → Nat → List (BitVec 64) → Nat × List (BitVec 64)
  | 0, _, n, out => (n, out)
  | f + 1, page, n, out =>
    if page ≥ e.pages || out.length ≥ x.outmax then (n, out)
    else
      let dpa := s.pageDpa e page
      let key := e.mapKey dpa
      let p := s.page key
      let heat := (heatStep p s.tier.epoch (s.resynced (e.owner dpa) key) false).heat
      let pick := (x.mode == 2 || (x.mode == 0 && heat ≥ x.thr) || (x.mode == 1 && heat ≤ x.thr)) && x.states.testBit p.state
      State.scanFrom s x e f (page + 1) (n + 1) (if pick then scanRecord p heat page :: out else out)

/-- Up to `n` pages of a scan visited and their records written, in order: pages visited, records written, and the state. A valid
domain only. -/
def State.scanPages (s : State) (x : Scan) (n : Nat) : Nat × Nat × State :=
  let e := s.entry x.dom
  if !e.valid then (0, 0, s)
  else
    let (n, out) := s.scanFrom x e (min n x.count) x.start 0 []
    let out := out.reverse
    (min n (2 ^ 24 - 1), out.length, s.updCore x.core fun c => { c with
      dmem := (List.range out.length).foldl (fun t i => t.put (x.outptr / 8 + i) (out.getD i 0)) c.dmem })

/-- A scan stopped after a number of pages that the spec leaves to its speed (R326, R327): a free value. -/
def State.stopScan (s : State) (x : Scan) : Nat × Nat × Nat × State :=
  let (i, s) := s.fresh
  (i, s.scanPages x (Config.scanProgress i % (x.count + 1)))

/-- The scans of a domain stopped when it is deleted or its key destroyed (R340): the records written stand. -/
def State.stopScans (s : State) (d : Nat) : State :=
  (s.core.scans.filter fun x => x.dom == d && x.gone.isNone).foldl (fun s x =>
    let (n, m, s) := (s.stopScan x).2
    { s with core := { s.core with scans := s.core.scans.map fun y => if y == x then { y with gone := some (n, m) } else y } }) s

end Sys2Proof.Machine
end

