-- ==== Sys2Proof/Machine/Keys.lean ====
section
/-!
DEFINITION. Key slots (R150 to R155): generation, installs and their checks, destruction with its erase walk, and the
activation of the key-encryption keys.
-/
namespace Sys2Proof.Machine

/-! ### Slots and key caches -/

/-- A key slot written. -/
def State.setSlot (s : State) (d : Nat) (k : KeySlot) : State :=
  { s with eng := { s.eng with slots := s.eng.slots.put d k } }

/-- A slot invalidated in every key cache (R154, Table 07-9). -/
def State.flushKey (s : State) (d : Nat) : State :=
  { s with eng := { s.eng with
      kcache := (List.range 32).foldl (fun t i => t.upd i fun q => q.filter (· != d)) s.eng.kcache } }

/-- A slot loaded into a pipeline's cache of 32 (R148). The spec gives no replacement rule: the least recently loaded one that is not
pinned makes room (DESIGN CHOICE, assumption 123). -/
def State.loadKey (s : State) (pipe d : Nat) : State :=
  let q := d :: (s.eng.kcache.get pipe).filter (· != d)
  let q := if q.length ≤ 32 then q
    else match q.reverse.find? fun x => !s.eng.kpin.contains x && x != d with
      | some x => q.filter (· != x)
      | none => q.take 32
  { s with eng := { s.eng with kcache := s.eng.kcache.put pipe q } }

/-- A slot loaded into every pipeline's cache and kept there (R148). -/
def State.pinKey (s : State) (d : Nat) : State :=
  let s := { s with eng := { s.eng with kpin := d :: s.eng.kpin.filter (· != d) } }
  (List.range 32).foldl (fun s i => s.loadKey i d) s

/-- A slot no longer pinned. -/
def State.unpinKey (s : State) (d : Nat) : State :=
  { s with eng := { s.eng with kpin := s.eng.kpin.filter (· != d) } }

/-- A slot filled with generated keys (R150, R151). -/
def State.generateKey (s : State) (d : Nat) : State :=
  let n := s.freeCtr
  ({ s with freeCtr := n + 3 }).setSlot d
    { st := 1, k1 := Config.drbg n, k2 := Config.drbg (n + 1), kt := Config.drbg (n + 2) }

/-- Generated keys for a slot that is Empty, unless the host is to install them (R151). -/
def State.generateIfEmpty (s : State) (d : Nat) : State :=
  if (s.slot d).st == 0 && !s.flag R.SEC_KEYCTL_REQHOST then s.generateKey d else s

/-! ### Installs (R153, R154) -/

/-- Whether every page of a domain's share here is Unbacked. -/
def State.unbacked (s : State) (e : Entry) : Bool :=
  (keysIn s.tier.pmap (e.mapBase * 256) (e.mapBase * 256 + e.pages)).all fun k => (s.page k).state == 0

/-- Whether a slot may take an install (check 6 of Table 07-8). -/
def State.keyFree (s : State) (d : Nat) : Bool :=
  let e := s.entry d
  (s.slot d).st == 0 || ((s.slot d).st == 1 && (!e.valid || (s.unbacked e && e.rdPorts == 0 && e.wrPorts == 0)))

/-- The plaintext of a blob on a path that accepts one KEKSEL value, or the status of checks 1 and 2 of Table 07-8. A blob
whose reserved bytes are not 0 is taken as its fields say. -/
def State.openBlob (s : State) (kek : Option Nat) (b : List Byte) : Except Nat (List Byte) :=
  let sel := (b.getD 1 0).toNat
  if b.getD 0 0 != 1 || kek != some sel then .error 0x14
  else if sel == 0xFF then .ok ((b.drop 8).take 104)
  else
    match s.eng.dk.get (4 * sel) with
    | none => .error 0x14
    | some k =>
      match kwUnwrap k ((b.drop 8).take 112) with
      | none => .error 0x10
      | some p => .ok p

/-- An install of a blob for a slot (R154): its status, and the state it leaves. `kek` is the KEKSEL value the path accepts:
0 and 1 name DK0 and DK4, 255 a secured session. -/
def State.installKey (s : State) (kek : Option Nat) (d : Nat) (b : List Byte) : Nat × State :=
  match s.openBlob kek b with
  | .error st => (st, s)
  | .ok p =>
    let sel := kek.getD 0
    let part := fun i n => (p.drop i).take n
    let seq := (ofLe 32 (part 4 4)).toNat
    let k1 := ofLe 256 (part 8 32)
    let k2 := ofLe 256 (part 40 32)
    let kt := ofLe 256 (part 72 32)
    if (ofLe 16 (part 0 2)).toNat != d then (0x15, s)
    else if sel != 0xFF && !decide (seq > s.eng.seq.get (4 * sel)) then (0x11, s)
    else if k1 == k2 then (0x12, s)
    else if !s.keyFree d then (0x13, s)
    else
      let s := s.setSlot d { st := 2, k1 := k1, k2 := k2, kt := kt }
      let s := if sel == 0xFF then s else { s with eng := { s.eng with seq := s.eng.seq.put (4 * sel) seq } }
      let s := s.flushKey d
      (0, if s.eng.kpin.contains d then s.pinKey d else s)

/-! ### Destruction (R155) -/

/-- A request of an erased or deleted domain answered without being served (R48, R49, R150). -/
def State.refuseErased (s : State) (r : Req) : State :=
  match r.agent with
  | .host p => s.decodeFault p r 0x0404 (some r.dom)
  | .peer d => (s.log { type := 0x0404, level := 1, ukind := 8, unit := d, dom := r.dom, loc := r.addr }).refuse r 0x01 3

/-- Whether a request is of a domain homed on this device. -/
def State.ofDomain (s : State) (d : Nat) (r : Req) : Bool := r.dom == d && s.homeHere r

/-- The channel reads made for transactions that have ended taken out of their queues. -/
def State.dropReads (s : State) (ids : List Nat) : State :=
  let keep := fun r : RdEntry => match r.use with
    | .demand t | .paced t => !ids.contains t
    | _ => true
  { s with dram := { s.dram with subs := ⟨s.dram.subs.cells.map fun c => (c.1, { c.2 with
    rq := c.2.rq.filter keep, prq := c.2.prq.filter keep, inflight := c.2.inflight.filter keep, rereads := c.2.rereads.filter keep })⟩ } }

/-- The requests of a domain that are in the home slices taken out and answered as R48 says, with a partner's mirror writes; a transaction that still awaits
responses stays for them, its data to be discarded (step 3 of Table 07-9). -/
def State.abandonRequests (s : State) (d : Nat) : State :=
  let mine := fun (t : HomeTx) =>
    (t.purpose == .serve && s.ofDomain d t.req) || (t.purpose == .mirIn && t.req.dom == d)
  let gone := fun (t : HomeTx) => t.purpose == .absorb && t.req.dom == d
  let queued := ((List.range 16).map fun n => (s.coh.ordq.get n).filter (s.ofDomain d)).flatten ++ s.mesh.reqs.filter (s.ofDomain d)
  let reqs := (s.coh.txs.filter mine).map (·.req) ++ queued
  let open_ := fun (t : HomeTx) => t.phase == .snoop && !(t.peers.isEmpty && t.ports.isEmpty)
  let ids := (s.coh.txs.filter mine).map (·.id)
  let s := { s with
    coh := { s.coh with
      txs := (s.coh.txs.filter fun t => !gone t && (!mine t || open_ t)).map fun t =>
        if mine t then { t with purpose := .recall d true } else t
      ordq := (List.range 16).foldl (fun q n => q.upd n fun l => l.filter fun r => !s.ofDomain d r) s.coh.ordq }
    mesh := s.mesh.mapReqs fun r => if s.ofDomain d r then none else some r
    tier := { s.tier with
      waitq := (List.range 16).foldl (fun q n => q.upd n fun l => l.filter fun i => !ids.contains i) s.tier.waitq
      overq := (List.range 16).foldl (fun q n => q.upd n fun l => l.filter fun i => !ids.contains i) s.tier.overq }
    kind := { s.kind with fills := s.kind.fills.filter fun f => f.dom != d } }
  reqs.foldl (fun s r => s.refuseErased r) (s.dropReads ids)

/-- A domain's blocks on their way through the compressors dropped. -/
def State.dropBlocks (s : State) (d : Nat) : State :=
  let keep := fun j : CzJob => j.dom != d || j.mig.isSome
  let s := (List.range 16).foldl (fun s e =>
    let q := (s.eng.cq.get e).filter keep
    let s := { s with eng := { s.eng with cq := s.eng.cq.put e q } }
    s.wr (R.ENG_CZSTAT_CQ e) q.length) s
  { s with eng := { s.eng with czWait := s.eng.czWait.filter keep, czHeld := s.eng.czHeld.filter keep } }

/-- The home slice and the DPA of the sector a directory key holds. -/
def State.dirPlace (s : State) (k : Nat) : Nat × Nat :=
  (k / 16 / 65536, dirAddr (k / 16 % 65536) (s.coh.dir.get k))

/-- The directory entries of a range of addresses, as slice and sector address. -/
def State.sectorsIn (s : State) (lo hi : Nat) : List (Nat × Nat) :=
  ((s.coh.dir.cells.map fun c => s.dirPlace c.1)).filter fun x => decide (lo ≤ x.2) && decide (x.2 < hi)

/-- The Kindling lines and directory entries of a range of addresses dropped without write-back (R55). -/
def State.dropRangeOf (s : State) (lo hi : Nat) : State :=
  let within := fun a => decide (lo ≤ a) && decide (a < hi)
  { s with
    kind := { s.kind with lines := ⟨s.kind.lines.cells.filter fun c => !within (lineAddr (c.1 / 16 % 12288) c.2)⟩ }
    coh := { s.coh with dir := ⟨s.coh.dir.cells.filter fun c => !within (s.dirPlace c.1).2⟩ } }

/-- Every holder of a sector of a range told to invalidate it (step 3 of Table 07-9). -/
def State.recallRange (s : State) (d lo hi : Nat) : State :=
  (s.sectorsIn lo hi).foldl (fun s x =>
    let bits := s.dirBits x.1 x.2
    let devs := otherPeers bits (.host 32)
    let ports := s.otherPorts bits (.peer 16)
    if devs.isEmpty && ports.isEmpty then s else s.launchSector x.1 x.2 (.recall d true) devs ports) s

/-- Steps 1 to 3 of Table 07-9: the slot zeroised, its keys invalidated, the domain's lines and entries dropped. -/
def State.startErase (s : State) (d : Nat) (e : Entry) (path : Option Path) (port : Option Nat) : State :=
  let s := (s.setSlot d { st := 3, k1 := 0, k2 := 0, kt := 0 }).flushKey d
  let s := { s with eng := { s.eng with
    erases := s.eng.erases ++ [{ dom := d, entry := e, path := path, port := port }] } }
  if e.valid then
    let s := ((s.stopScans d).abandonRequests d).dropBlocks d
    let s := s.recallRange d e.baseAddr (e.baseAddr + e.bytes)
    s.dropRangeOf e.baseAddr (e.baseAddr + e.bytes)
  else s

/-- The erase of a slot in progress. -/
def State.eraseOf (s : State) (d : Nat) : Option Erase := s.eng.erases.find? fun x => x.dom == d

/-- A destroy asked for (R155): its status, and the state in which it has begun. -/
def State.destroyKey (s : State) (d : Nat) (path : Option Path) (port : Option Nat) : Nat × State :=
  let e := s.entry d
  if (s.slot d).st == 3 || (e.valid && (e.rdPorts != 0 || e.wrPorts != 0)) then (0x13, s)
  else (0, s.startErase d e path port)

/-- Migrations of a domain that have not reached step 5 ended without a flip (R113). -/
def State.endMigsOf (s : State) (d status : Nat) : State :=
  (s.tier.migs.filter fun m => m.dom == d && m.phase != .held).foldl (fun s m => s.migEnd m status) s

/-- The pages of a domain's share here from one share page to another set Unbacked, their frames and slots freed. -/
def State.clearPages (s : State) (e : Entry) (lo hi : Nat) : State :=
  (keysIn s.tier.pmap (e.mapBase * 256 + lo) (e.mapBase * 256 + hi)).foldl (fun s k =>
    (s.freeBacking e (s.page k)).setPage k 0) s

/-- What a domain leaves in the lists of lost blocks and poisoned lines dropped. -/
def State.forgetDomain (s : State) (d : Nat) : State :=
  { s with
    tier := { s.tier with tagHeld := s.tier.tagHeld.filter fun x => x.1 != d }
    dram := { s.dram with media := s.dram.media.filter fun m => m.1 != d } }

/-- Whether the erase walk of a domain can end: every response has come, and no migration of it is past step 5. -/
def State.walkReady (s : State) (d : Nat) : Bool :=
  !(s.coh.txs.any fun t => t.purpose == .recall d true) && !(s.tier.migs.any fun m => m.dom == d && m.phase == .held)

/-- Steps 4 and 5 of Table 07-9: the walk ends, the slot is Empty and then Generated where the domain is valid and
encrypted, and whoever asked is told (R156). -/
def State.endErase (s : State) (x : Erase) : State :=
  let d := x.dom
  let e := s.entry d
  let s := s.endMigsOf d 0x68
  let s := if Entry.valid x.entry then (s.clearPages x.entry 0 (Entry.pages x.entry)).forgetDomain d else s
  let s := { s with eng := { s.eng with erases := s.eng.erases.filter fun y => y.dom != d } }
  let s := s.setSlot d default
  let s := if e.valid && e.encrypt then s.generateIfEmpty d else s
  let s := match x.path with
    | some p => (s.clr (R.SEC_KEYSTAT_BUSY.on p)).wr (R.SEC_KEYSTAT_STATUS.on p) 0
    | none => s
  match x.port with
  | some p => s.bgEnd p 0xC011 0
  | none => s

/-- The end of an erase walk (R155). A deletion that has joined it ends with its commit. -/
def State.eraseWalkDone (s : State) (d : Nat) : State :=
  match s.eraseOf d with
  | some x => if s.walkReady d then s.endErase x else s
  | none => s

/-! ### The key registers (R158) -/

/-- The KEKSEL value that blobs staged through a path carry (R153). -/
def kekOf : Path → Option Nat
  | .bar => some 0
  | .sideband => some 1
  | .rom => none

/-- The blob a path has staged. -/
def State.stagedBlob (s : State) (p : Path) : List Byte :=
  ((List.range 30).map fun k => leBytes 4 (s.reg (pathOff p (R.SEC_KEYSTAGE k)))).flatten

/-- A key operation of a register path started, unless one is in progress: its staging words are zeroised, and its status
follows (R158). -/
def State.keyOp (s : State) (p : Path) (d : Nat) (f : State → Nat × State) : State :=
  if s.flag (R.SEC_KEYSTAT_BUSY.on p) then s
  else
    let (st, s) := f s
    let s := (List.range 30).foldl (fun s k => s.setReg (pathOff p (R.SEC_KEYSTAGE k)) 0) s
    let s := (s.wr (R.SEC_KEYSTAT_STATUS.on p) st).wr (R.SEC_KEYSTAT_DOMAIN.on p) d
    if s.eng.erases.any fun x => x.path == some p then s.set1 (R.SEC_KEYSTAT_BUSY.on p) else s

/-- The activation of DK6 as DK0 or DK7 as DK4 (R152): `k` is 0 or 4. -/
def State.activateKek (s : State) (k : Nat) : Nat × State :=
  let from_ := if k == 0 then 6 else 7
  match s.eng.dk.get from_ with
  | none => (0x14, s)
  | some x => (0, { s with eng := { s.eng with
      dk := (s.eng.dk.put k (some x)).put from_ none, seq := s.eng.seq.put k 0 } })

/-- KEY_INSTALL (R154). -/
def execKeyInstall (p : Path) (dom : BitVec 14) (s : State) : Answer :=
  .next (s.viaPath p R.SEC_KEYOP fun s => s.keyOp p dom.toNat fun s => s.installKey (kekOf p) dom.toNat (s.stagedBlob p))
/-- KEY_DESTROY (R155). -/
def execKeyDestroy (p : Path) (dom : BitVec 14) (s : State) : Answer :=
  .next (s.viaPath p R.SEC_KEYOP fun s => s.keyOp p dom.toNat fun s => s.destroyKey dom.toNat (some p) none).settleAll
/-- KEY_ACTIVATE_DK6 (R152). -/
def execKeyActivateDk6 (p : Path) (dom : BitVec 14) (s : State) : Answer :=
  .next (s.viaPath p R.SEC_KEYOP fun s => s.keyOp p dom.toNat fun s => s.activateKek 0)
/-- KEY_ACTIVATE_DK7 (R152). -/
def execKeyActivateDk7 (p : Path) (dom : BitVec 14) (s : State) : Answer :=
  .next (s.viaPath p R.SEC_KEYOP fun s => s.keyOp p dom.toNat fun s => s.activateKek 4)
/-- KEY_CACHE_LOAD (R148). -/
def execKeyCacheLoad (pipe : Fin 32) (slot : BitVec 14) (s : State) : Answer := .next (s.loadKey pipe slot.toNat)

end Sys2Proof.Machine
end

