-- ==== Sys2Proof/Machine/Domains.lean ====
section
/-!
DEFINITION. Changing a domain (R40 to R42, R52 to R56, R116, R151): the checks of a commit, its commit point, the recalls of
step 4 and its end, and what a deletion takes away.
-/
namespace Sys2Proof.Machine

/-! ### The checks of step 1 -/

/-- An entry as a commit would leave it: reserved bits 0, `GEN` and `MIRRORLOST` the device's own (Table 02-1, R54). -/
def cleanEntry (old new : Entry) : Entry :=
  let e := entryReserved.foldl (fun e r => setFld e r.1 r.2 0) new
  let e : Entry := setFld e 399 384 old.gen
  setFld e 400 400 (b2n (old.mirrorLost && old.valid && e.repl))

/-- A reserved encoding in an entry (Table 02-1). -/
def Entry.reservedCode (e : Entry) : Bool :=
  e.pgran == 3 || decide (e.pways ≥ 5) || decide (e.scrub ≥ 2) || e.tierPol == 3 || e.chSize == 3

/-- Whether two ranges meet. -/
def meets (a n b m : Nat) : Bool := decide (a < b + m) && decide (b < a + n)

/-- The other valid domains. -/
def State.others (s : State) (d : Nat) : List Entry := (s.domains.filter fun c => c.1 != d).map (·.2)

/-- BAD_GEOMETRY (R41, R100). -/
def State.badGeometry (s : State) (d : Nat) (old e : Entry) : Bool :=
  e.size == 0 || decide (e.base + e.size > 2 ^ 25) || e.reservedCode || e.size % e.ways != 0 || e.chBase % e.chans != 0 ||
    (!old.valid && e.channels.any fun c => s.chanState c == 5) ||
    ((List.range e.ways).map e.member).eraseDups.length != e.ways ||
    decide (e.mapBase + e.mapUnits > s.tier.region * 512 * 3 / 4) ||
    (s.others d).any fun o => meets e.mapBase e.mapUnits o.mapBase o.mapUnits

/-- OVERLAP (R41). -/
def State.overlaps (s : State) (d : Nat) (e : Entry) : Bool := (s.others d).any fun o => meets e.base e.size o.base o.size

/-- Valid encrypted paced domains besides one (R148). -/
def State.pinnedKeys (s : State) (d : Nat) : Nat := ((s.others d).filter fun o => o.paced && o.encrypt).length

/-- ATTR_CONFLICT (R42; R148 for a ninth pinned key; check 4 of Table 10-2 for a paced merge reservation that is too small). -/
def State.attrConflict (s : State) (d : Nat) (old e : Entry) : Bool :=
  (e.paced && (e.tierPol != 1 || e.scrub == 0 || e.repl)) || (e.repl && (e.ways != 1 || e.replDev == e.member 0)) ||
    if !e.valid then old.valid && (old.rdPorts != 0 || old.wrPorts != 0)
    else
      (e.paced && e.encrypt && !(old.valid && old.paced) && decide (s.pinnedKeys d ≥ 8)) ||
      (e.paced && !(old.valid && old.paced) && !(e.channels.all fun c =>
        decide ((List.range 48).foldl (fun a i => a + s.rd (R.RGL_PACE_PQW i).com) 0 ≤ s.claim.merge.get (c * 256 + 0x30)))) ||
      (e.paced && !(old.valid && old.paced) && e.channels.any fun c =>
        s.redirects c && decide ((s.pacedExtents c [(d, e)]).length > 2048))

/-- The fields a commit may change on a valid domain (Table 02-6). -/
def mutableFields : List (Nat × Nat) :=
  [(319, 256), (49, 44), (60, 60), (59, 59), (58, 57), (56, 55), (367, 352), (511, 448), (62, 62), (63, 63)]

/-- A field copied from one entry to another. -/
def copyField (dst from_ : Entry) (r : Nat × Nat) : Entry := setFld dst r.1 r.2 (fld from_ r.1 r.2)

/-- IMMUTABLE_FIELD (R54). -/
def immutableBreak (old e : Entry) : Bool :=
  let m := mutableFields.foldl (fun m r => copyField m e r) old
  let m := if old.repl && !e.repl then setFld (setFld m 54 54 0) 400 400 0 else m
  old.valid && m != e

/-- The limit on V of R116, in sectors. -/
def State.vLimit (s : State) : Nat := Nat.min (48 * 2 ^ 34) (s.capU * s.rd R.CHIP_TMCTL_OVC / 16)

/-- NO_CAPACITY (R116). -/
def State.noCapacity (s : State) (d : Nat) (e : Entry) : Bool :=
  let t := s.setEntry d e
  (decide (t.capV > s.capV) && decide (t.capV > s.vLimit)) ||
    (decide (t.capP > s.capP) && decide ((t.capP : Int) - s.capP > s.capFree - s.capE))

/-- A port bit given to a domain that a SANITIZE not yet Done names (Table 15-13). -/
def State.sanitizing (s : State) (d : Nat) (old : Entry) : Bool :=
  s.ring.jobs.any fun j => j.op == 0x23 && ((j.kind == 0 && j.dom == d) || (j.kind != 0 && old.valid))

/-- The status of a commit's checks, in the order R41, R42, R54, R116; 0 when it passes. The entry is as `cleanEntry`
leaves it; `resize` is the commit of a RESIZE, which may change SIZE (R356). -/
def State.commitStatus (s : State) (d : Nat) (e : Entry) (resize : Bool) : Nat :=
  let old := s.entry d
  if e.valid && s.badGeometry d old e then 0x03
  else if e.valid && s.overlaps d e then 0x02
  else if s.attrConflict d old e then 0x05
  else if immutableBreak (if resize then copyField old e (114, 89) else old) e then 0x04
  else if s.noCapacity d e then 0x06
  else if (e.rdPorts != 0 || e.wrPorts != 0) && s.sanitizing d old then 0x82
  else 0

/-! ### Answers -/

/-- A commit's end told on its own channel (R52). -/
def State.answerCommit (s : State) (c : Commit) (status : Nat) : State :=
  match c.src with
  | 0 =>
    match c.path with
    | some p =>
      ((s.clr (R.CHIP_DOMSTAT_BUSY.on p)).wr (R.CHIP_DOMSTAT_STATUS.on p) status).wr (R.CHIP_DOMSTAT_DOMAIN.on p) c.dom
    | none => s
  | 1 => s.bgEnd c.arg 0xC000 status
  | 2 => s.firstCompletion c.arg status 1 0 []
  | 3 =>
    let s := { s with core := { s.core with left := s.core.left.upd c.arg (· - 1) } }
    if s.core.left.get c.arg == 0 then s.ticketDone (c.arg / 16) (c.arg % 16) 0 0 0 else s
  | 5 => s.updJob c.arg fun j => { j with phase := if status == 0 then 2 else 3, status := status }
  | _ => s

/-! ### The commit point -/

/-- Step 2 of Table 02-5: the entry written, GEN incremented, and what a new or changed entry brings with it: Dynamic
Capacity events (R51), generated keys (R151), pinned keys (R148). Blocks held for a failed tag are promoted by `settle` once
TIERPOL lets them (R147). -/
def State.commitPoint (s : State) (d : Nat) (e : Entry) : State :=
  let old := s.entry d
  let s := if e.valid then s else s.stopScans d
  let e : Entry := setFld e 399 384 ((old.gen + 1) % 65536)
  let s := s.setEntry d e
  let s := s.count 4 0 0x80 1 (some d) none
  let heads := (List.range 32).foldl (fun t p => t.upd p fun h => { h with hdmh := h.hdmh.filter (· != d) }) s.host.heads
  let s := { s with host := { s.host with heads := heads } }
  let s := s.dcCommit d old e
  let s := if e.valid && !old.valid && e.encrypt then s.generateIfEmpty d else s
  let s := if e.valid && e.paced && e.encrypt then s.pinKey d else s.unpinKey d
  s.limitSync

/-- Whether a commit has to wait at step 1: for `READY` (R456), behind another of its domain, or for Blaze (R53, R429). -/
def State.commitWaits (s : State) (d : Nat) (e : Entry) : Bool :=
  !s.flag R.CHIP_BOOTSTAT_READY || ((s.dom.commits ++ s.dom.waiting).any fun c => c.dom == d) ||
    (s.pacedActive e && !s.pacedActive (s.entry d) && (s.rd R.PS_STAT_STATE != 0 || s.flag R.PS_STAT_BUSY))

/-- A commit that reaches the chip arbiter (R53): it waits, fails, or is committed and goes on to steps 3 to 5. -/
def State.takeCommit (s : State) (c : Commit) : State :=
  let old := s.entry c.dom
  let e := cleanEntry old c.new
  if s.commitWaits c.dom e then { s with dom := { s.dom with waiting := s.dom.waiting ++ [c] } }
  else
    let st := s.commitStatus c.dom e (c.src == 5)
    if st != 0 then s.answerCommit c st
    else
      let s := s.commitPoint c.dom e
      { s with dom := { s.dom with commits := s.dom.commits ++
          [{ c with old := old, new := s.entry c.dom, inval := false, recalled := false }] } }

/-- The commits that wait offered again, in order (R53, R429). -/
def State.retryCommits (s : State) : State :=
  let ws := s.dom.waiting
  ws.foldl (fun s c => s.takeCommit c) { s with dom := { s.dom with waiting := [] } }

/-- A commit asked for by one of the paths of Table 02-7: `src` and `arg` say who is answered. -/
def State.askCommit (s : State) (d : Nat) (new : Entry) (path : Option Path) (src arg : Nat) : State :=
  s.takeCommit { dom := d, path := path, src := src, arg := arg, old := s.entry d, new := new, inval := false, recalled := false }

/-- The entry a path has staged (R52). -/
def State.stagedEntry (s : State) (p : Path) : Entry :=
  ofLe 512 ((List.range 16).map fun k => leBytes 4 (s.reg (pathOff p (R.CHIP_DOMSTAGE k)))).flatten

/-- `CHIP_DOMCOMMIT` with GO and OP 00 (R52, R53): discarded while the path's operation is in progress. -/
def State.pathCommit (s : State) (p : Path) (d : Nat) : State :=
  if s.flag (R.CHIP_DOMSTAT_BUSY.on p) then s
  else ((s.set1 (R.CHIP_DOMSTAT_BUSY.on p)).wr (R.CHIP_DOMSTAT_DOMAIN.on p) d).askCommit d (s.stagedEntry p) (some p) 0 0

/-- `CHIP_DOMCOMMIT` with GO and OP 01 (R52): the committed entry copied into the path's staging. -/
def State.pathCopy (s : State) (p : Path) (d : Nat) : State :=
  if s.flag (R.CHIP_DOMSTAT_BUSY.on p) then s
  else
    let e := s.entry d
    let s := (List.range 16).foldl (fun s k =>
      s.setReg (pathOff p (R.CHIP_DOMSTAGE k)) (e.extractLsb' (32 * k) 32)) s
    (s.wr (R.CHIP_DOMSTAT_STATUS.on p) 0).wr (R.CHIP_DOMSTAT_DOMAIN.on p) d

/-! ### Steps 3 to 5 -/

/-- The recalls of step 4 (Table 02-5): BISnpInvBlk where a port loses its read bit, BISnpData for lines a port holds
exclusively when it loses only its write bit. -/
def State.recallPorts (s : State) (c : Commit) : State :=
  let lost := fun p => c.old.rdPorts.testBit p && !(c.new.valid && c.new.rdPorts.testBit p)
  let lowered := fun p => c.old.wrPorts.testBit p && !c.new.wrPorts.testBit p && !lost p
  (s.sectorsIn c.old.baseAddr (c.old.baseAddr + c.old.bytes)).foldl (fun s x =>
    let bits := s.dirBits x.1 x.2
    let ports := (s.otherPorts bits (.peer 16)).filter fun p => lost p || !c.new.valid
    let s := if ports.isEmpty then s else s.launchSector x.1 x.2 (.recall c.dom false) [] ports
    (List.range 4).foldl (fun s i =>
      if dirLs bits i == dirHE && lowered (dirPtr bits i) then
        let t : HomeTx := { (default : HomeTx) with
          slice := x.1, line := x.2 + 64 * i, purpose := .recall c.dom false, phase := .snoop, busy := true,
          ports := [dirPtr bits i] }
        let (t, s) := s.newTx t
        s.biSnp x.1 (dirPtr bits i) t.line biData
      else s) s) s

/-- Whether a request in the device was decoded under an entry before a commit. -/
def Commit.before (c : Commit) (r : Req) : Bool := r.dom == c.dom && r.entry != c.new

/-- Whether requests decoded under the old entry remain, here or at a peer's home, but for those that wait for backing (Table
05-12), or recalls await their answers. -/
def State.commitBusy (s : State) (c : Commit) : Bool :=
  (s.coh.txs.any fun t => t.purpose == .recall c.dom false ||
    (t.purpose == .serve && c.before t.req && !(t.phase == .backing && !c.new.valid))) ||
    ((List.range 16).any fun n => (s.coh.ordq.get n).any c.before) ||
    ((List.range 16).any fun g => (s.rgl.admq.get g).any fun w => c.before w.req) || s.mesh.reqs.any c.before ||
    ((s.coh.reqs ++ s.link.preqs).any fun t => c.before t.req)

/-- Whether a commit removes a permission or the domain, so that step 4 has work. -/
def Commit.removes (c : Commit) : Bool :=
  c.old.valid && (!c.new.valid || (List.range 32).any fun p =>
    (c.old.rdPorts.testBit p && !c.new.rdPorts.testBit p) || (c.old.wrPorts.testBit p && !c.new.wrPorts.testBit p))

/-- Requests that wait for backing in a domain being deleted: completed without being written, reads with poison
(Table 05-12). Returned data and mirror writes that have yet to find their places go with it. -/
def State.dropWaiting (s : State) (d : Nat) : State :=
  let mine := fun (t : HomeTx) => t.req.dom == d &&
    ((t.purpose == .serve && t.phase == .backing) || t.purpose == .absorb || t.purpose == .mirIn)
  let ts := s.coh.txs.filter mine
  let ids := ts.map (·.id)
  let cut := fun (q : Tab (List Nat)) => (List.range 16).foldl (fun q n => q.upd n fun l => l.filter fun i => !ids.contains i) q
  let s := { s with
    coh := { s.coh with txs := s.coh.txs.filter fun t => !mine t }
    tier := { s.tier with waitq := cut s.tier.waitq, overq := cut s.tier.overq } }
  (ts.filter fun t => t.purpose != .absorb).foldl (fun s t => s.refuse t.req 0x01 0) s

/-- What step 4 does before it frees a deleted domain's backing and map (R55). -/
def State.deleteDomain (s : State) (c : Commit) : State :=
  let e := c.old
  let s := (s.dropWaiting c.dom).dropBlocks c.dom
  let s := { s with kind := { s.kind with fills := s.kind.fills.filter fun f => f.dom != c.dom } }
  let s := s.dropRangeOf e.baseAddr (e.baseAddr + e.bytes)
  let s := s.endMigsOf c.dom 0x68
  ((s.clearPages e 0 e.pages).forgetDomain c.dom).unpinKey c.dom

/-- Step 5 of Table 02-5. -/
def State.endCommit (s : State) (c : Commit) : State :=
  let s := { s with dom := { s.dom with commits := s.dom.commits.filter fun x => x.dom != c.dom } }
  (s.answerCommit c 0).retryCommits

/-- A commit's record changed. -/
def State.updCommit (s : State) (d : Nat) (f : Commit → Commit) : State :=
  { s with dom := { s.dom with commits := s.dom.commits.map fun x => if x.dom == d then f x else x } }

/-- A commit with no request of the old entry and no recall left: step 5, after what a deletion does in step 4. A deletion
destroys the domain's key slot, or joins the erase in progress (R55, R155). -/
def State.finishQuiet (s : State) (c : Commit) : State :=
  if c.old.valid && !c.new.valid then
    if s.tier.migs.any fun m => m.dom == c.dom && m.phase == .held then s
    else if c.old.encrypt && !c.recalled then
      let s := s.updCommit c.dom fun x => { x with recalled := true }
      match s.eraseOf c.dom with
      | some _ => s
      | none => s.startErase c.dom c.old none none
    else if (s.eraseOf c.dom).isSome then s
    else (s.deleteDomain c).endCommit c
  else s.endCommit c

/-- Steps 3 to 5 of a commit as far as they go now (Table 02-5): the invalidation with the recalls it starts; once no request of
the old entry and no recall remains, the recalls of the copies that those requests left; then the end. -/
def State.finishCommit (s : State) (c : Commit) : State :=
  if !c.inval then
    let dc := (List.range 16).foldl (fun t g => t.upd g fun q => q.filter fun x => x.1 != c.dom) s.dom.dcache
    let s := ({ s with dom := { s.dom with dcache := dc } } : State).updCommit c.dom fun x => { x with inval := true }
    if c.removes then s.recallPorts c else s
  else if c.removes && s.commitBusy c then s
  else if c.removes && !c.swept then
    let s := (s.recallPorts c).updCommit c.dom fun x => { x with swept := true }
    if s.commitBusy c then s else s.finishQuiet c
  else s.finishQuiet c

/-- The commit of a domain in progress taken further. -/
def State.commitOn (s : State) (d : Nat) : State :=
  match s.dom.commits.find? fun c => c.dom == d with
  | some c =>
    let s := s.finishCommit c
    -- a commit with nothing to wait for ends in the step that invalidates
    match s.dom.commits.find? fun x => x.dom == d && x.inval && !c.inval with
    | some x => s.finishCommit x
    | none => s
  | none => s

/-! ### Commands -/

/-- DOMAIN_TABLE_WRITE (R40): discarded, and recorded with its offset whatever it carries. -/
def execDomainTableWrite (p : Path) (off : BitVec 20) (val : BitVec 32) (s : State) : Answer :=
  let _ := val
  let o := 0x100000 + off.toNat
  .next (s.viaPath p o fun s => s.badValue o)

/-- DOMAIN_COMMIT (R53). -/
def execDomainCommit (p : Path) (dom : BitVec 14) (s : State) : Answer :=
  .next (s.viaPath p R.CHIP_DOMCOMMIT fun s => s.pathCommit p dom.toNat).settleAll
/-- DOMAIN_COPY_TO_STAGING (R52). -/
def execDomainCopyToStaging (p : Path) (dom : BitVec 14) (s : State) : Answer :=
  .next (s.viaPath p R.CHIP_DOMCOMMIT fun s => s.pathCopy p dom.toNat)

/-- ADD_CAPACITY_EVENT_SEND (R443): a held event sent once its head's mailbox is enabled. -/
def execAddCapacityEventSend (port : Fin 32) (dom : BitVec 14) (s : State) : Answer :=
  .next (if (s.place port).on && (s.head port).flit != 0 && s.dom.decl.contains (port.val, dom.toNat) then
    ({ s with dom := { s.dom with decl := s.dom.decl.filter fun x => x != (port.val, dom.toNat) } }).dcSend port dom.toNat true
  else s)

/-! ### Release candidates (R122, R123) -/

/-- Whether an entry of `CHIP_TMREL` is a candidate now (R122). -/
def State.relCandidate (s : State) (k : Nat) : Bool :=
  let e := s.entry (s.rd (R.CHIP_TMREL_DOMAIN k))
  s.flag (R.CHIP_TMREL_VALID k) && s.rd (R.CHIP_TMREL_RSTATE k) == 0 && e.valid && e.ways == 1 && s.memberHere e &&
    (e.tierPol == 0 || e.tierPol == 2) && !e.paced

/-- The end of a release: once every head has answered, both permission bits are cleared for those ports, and the domain is
deleted where the entry says so. -/
def State.endRelease (s : State) (k d : Nat) (ports : List Nat) : State :=
  let s := { s with dom := { s.dom with release := s.dom.release.filter fun x => x.1 != k } }
  let e : Entry := s.entry d
  let keep := fun (m : Nat) => (List.range 32).foldl (fun a p => if m.testBit p && !ports.contains p then a + 2 ^ p else a) 0
  let wr := keep e.wrPorts
  let rd := keep e.rdPorts
  let e' : Entry := setFld (setFld e 319 288 wr) 287 256 rd
  let s := (s.askCommit d e' none 4 k).wr (R.CHIP_TMREL_RSTATE k) 2
  if s.flag (R.CHIP_TMREL_AUTODEL k) then s.askCommit d (setFld e' 63 63 0) none 4 k else s

/-- One release candidate taken (R122): a Release Capacity event to every head whose port has a permission bit. -/
def State.releaseOne (s : State) : State :=
  if s.pressure < 2 || !s.flag R.CHIP_TMCTL_RELEN then s
  else
    match (List.range 16).find? s.relCandidate with
    | none => s
    | some k =>
      let d := s.rd (R.CHIP_TMREL_DOMAIN k)
      let e := s.entry d
      let ports := (List.range 32).filter fun p => e.rdPorts.testBit p || e.wrPorts.testBit p
      let s := s.wr (R.CHIP_TMREL_RSTATE k) 1
      let s := ports.foldl (fun s p => s.dcSend p d false) s
      if ports.isEmpty then s.endRelease k d []
      else { s with dom := { s.dom with release := s.dom.release ++ [(k, d, ports, ports)] } }

/-- RELEASE_CANDIDATE (R122). -/
def execReleaseCandidate (s : State) : Answer := .next s.releaseOne.settleAll

/-- A write of `CHIP_TMRELk` (R123): the entry takes its fields, and `RSTATE` is idle again; a release asked for it is
forgotten. -/
def State.writeTmrel (s : State) (k : Nat) (val : BitVec 32) : State :=
  let s := s.setReg (R.CHIP_TMREL k) (setFld (setFld val 29 28 0) 27 14 0)
  { s with dom := { s.dom with release := s.dom.release.filter fun x => x.1 != k } }

/-- TMREL_WRITE (R123). -/
def execTmrelWrite (p : Path) (k : Fin 16) (val : BitVec 32) (s : State) : Answer :=
  .next (s.viaPath p (R.CHIP_TMREL k) fun s => s.writeTmrel k val)

end Sys2Proof.Machine
end

