-- ==== Sys2Proof/Machine/Blocks.lean ====
section
/-!
DEFINITION. Blocks between the Kindling cache and DRAM (R60 to R65, R118, R130 to R147): what a compressor and a decompressor
answer, the tag check of a fill, the install of a block, the operations on a slice (R67, R68).
-/
namespace Sys2Proof.Machine

/-! ### Compressors -/

/-- A block as the compressor and the encrypt pipeline leave it, or INCOMPRESSIBLE (R131, R134, R142, R145), under the `MAXSECT` and
`PATEN` of the start of its compression (R141); a block that holds poison is incompressible (R310). -/
def State.compressBlock (s : State) (j : CzJob) : Option Stored :=
  if j.poison then none
  else
    let (most, pat) := j.limit.getD (s.rd R.CHIP_CZCTL_MAXSECT, s.flag R.CHIP_CZCTL_PATEN)
    (tbcEncode pat most j.data).map fun u => { n := u.1, bytes := s.sealBlock j.dom j.entry j.granule u.1 u.2 }

/-- The events of a compressed block: its form, its sectors, or an INCOMPRESSIBLE report (Table 16-1). -/
def State.countForm (s : State) (e : Nat) (j : CzJob) (b : Option Stored) : State :=
  let one := fun (s : State) code n => s.countBlk e code n (some j.dom) (some j.entry.qclass)
  match b with
  | none => one s 0x24 1
  | some b =>
    if b.n == 0 then one s 0x22 1
    else
      let pattern := (j.limit.map (·.2)).getD (s.flag R.CHIP_CZCTL_PATEN) && ([1, 2, 4, 8, 16, 32].any (tbcHasPeriod j.data))
      one (one s (if pattern then 0x21 else 0x20) 1) 0x23 b.n

/-- An engine or pipeline fault recorded (R138, R149): contained in its block, but for the loss of a region's last one, which passes
to the chip (R378). -/
def State.logEngine (s : State) (e : Nat) (dis : Nat → Fld) (lasting : Bool) : State :=
  let last := lasting && [0, 1, 2, 3].all fun i => s.flag (dis (e / 4 * 4 + i))
  s.log {
    type := 0x0303, sev := if lasting then 2 else 1, cls := if lasting then 2 else 1, level := if last then 3 else 1,
    ukind := 4, unit := e }

/-- The page map entry of a page after one of its blocks has been rewritten: `OPEN` stays while a line of it is held for
writing or a block of it is dirty (R118). -/
def State.closeOpen (s : State) (e : Entry) (dpa : Nat) (p : PageEntry) : PageEntry :=
  setFld p 124 124 (b2n (s.pageOwned e dpa || s.pageDirty e dpa))

/-- A dirty block written back to its page (R65, R105, R118): over its old sectors when its length is unchanged, else with
the page's other blocks into a new slot. A page whose blocks are all zero has no slot (R99). Answers the sectors written, and none
where no slot is free. -/
def State.rewriteBlock (s : State) (j : CzJob) (b : Stored) : Option (List (Nat × Nat) × State) :=
  let e := j.entry
  let dpa := j.granule * 1024
  let key := e.mapKey dpa
  let p := s.page key
  let g := j.granule % 4
  let blens := (List.range 4).map fun k => if k == g then b.n else p.blen k
  let total := sumN blens
  let done := fun (s : State) (p : PageEntry) => (s.setPage key p).heat (e.owner dpa) key |>.redo j.dom e dpa
  if total == 0 then
    let s := if p.slot == 0 then s else s.freeSlot p.cchan p.csect
    let q := s.closeOpen e dpa (p.toCharcoal p.cchan 0 0 [])
    some ([], done s (if q.open_ then q else q.form 0))
  else if b.n == p.blen g && p.slot != 0 then
    let at_ := p.csect + p.blockAt g
    let s := s.queueSectors j.dom dpa e.encrypt p.cchan at_ b.bytes
    some (slotLines p.cchan at_ b.n, done s (s.closeOpen e dpa p))
  else
    let k := (total + 7) / 8
    match s.allocSlot e k e.channels with
    | none => none
    | some (c, q, s) =>
      let bytes := ((List.range 4).map fun i =>
        if i == g then b.bytes else (s.sectorsNow p.cchan (p.csect + p.blockAt i) (p.blen i)).1).flatten
      let s := s.queueSectors j.dom dpa e.encrypt c q bytes
      let s := if p.slot == 0 then s else s.freeSlot p.cchan p.csect
      some (slotLines c q total, done s (s.closeOpen e dpa (p.toCharcoal c k q blens)))

/-- A dirty block that stays where it is until its page is promoted (R139). -/
def State.keepBlock (s : State) (j : CzJob) : State :=
  { s with eng := { s.eng with czHeld := s.eng.czHeld ++ [j] } }

/-- The slice of a job's block. -/
def CzJob.slice (j : CzJob) : Nat := j.entry.slice (j.granule * 1024)

/-- A block's bytes as they are now, where it has stayed while it was compressed. -/
def State.jobData (s : State) (j : CzJob) : Option (List Byte) :=
  match j.place with
  | .out => some j.data
  | .staged id => (s.fill id).map (·.out)
  | .way => (s.kWay j.slice (j.granule * 1024)).map fun w => s.blockBytes j.slice j.granule w

/-- A block that has been written back: clean in its way, and gone from a staging buffer (R63, R65). -/
def State.leaveClean (s : State) (j : CzJob) : State :=
  match j.place with
  | .out => s
  | .staged id => s.dropFill id
  | .way =>
    match s.kWay j.slice (j.granule * 1024) with
    | some w => (List.range 16).foldl (fun s i =>
        let k := 16 * (j.granule % 768) + i
        s.setKLine j.slice k w { s.kLine j.slice k w with st := .homeClean }) s
    | none => s

/-- A dirty block compressed, or found incompressible, taken where it belongs: to its page (R118), or left where it is for its page's
promotion (R139). One that returned data has changed meanwhile stays dirty, to be compressed again. None while its sectors find no
places in the write queues (R165). -/
def State.takeDirty (s : State) (j : CzJob) (b : Option Stored) : Option State :=
  if s.jobData j != some j.data then some s
  else
    match b with
    | none => some (s.keepBlock j)
    | some b =>
      match (s.leaveClean j).rewriteBlock j b with
      | none => some (s.keepBlock j)
      | some (ls, s') => if s.roomFor ls then some s' else none

/-- A compressed block, or an incompressible one, taken where it belongs: a demotion (steps 3 and 4 of Table 05-4; R113), or
its page. -/
def State.takeBlock (s : State) (j : CzJob) (b : Option Stored) : Option State :=
  match j.mig with
  | some id =>
    match s.mig id, b with
    | none, _ => some s
    | some m, none => some (s.migEnd m 0x65)
    | some m, some b =>
      let m' := { m with blocks := m.blocks.filter (·.1 != j.granule % 4) ++ [(j.granule % 4, b)] }
      let s := s.updMig id fun _ => m'
      some (if m'.blocks.length == 4 then s.placeDemotion m' else s)
  | none => s.takeDirty j b

/-- The oldest block of a compressor's queue taken; the compression of the next starts (R134). The block in compression has held one of
the queue's 4 places until now, and counted in `CQ` (DESIGN CHOICE, assumption 122; R140 does not say). -/
def State.popCompress (s : State) (e : Nat) : Option (CzJob × State) :=
  match s.eng.cq.get e with
  | [] => none
  | j :: q =>
    let q := match q with
      | [] => []
      | k :: q => { k with limit := some (s.rd R.CHIP_CZCTL_MAXSECT, s.flag R.CHIP_CZCTL_PATEN) } :: q
    let s : State := { s with eng := { s.eng with cq := s.eng.cq.put e q } }
    some (j, s.wr (R.ENG_CZSTAT_CQ e) q.length)

/-- A fault of a compressor on its first attempt at a block is retried on another; a second one, or one with no other
compressor in service, is lasting: the first compressor leaves service and the block is handled as incompressible (R138). -/
def State.compressFault (s : State) (e : Nat) (j : CzJob) : State :=
  let s := s.set1 (R.ENG_CZSTAT_CFAULT e)
  let other := (List.range 16).any fun k => k != e && !s.flag (R.ENG_CZCTL_CDIS k)
  if j.first.isNone && other then s.pushCompress j.slice { j with first := some e, limit := none } (some e)
  else
    let f := j.first.getD e
    let s := (s.set1 (R.ENG_CZCTL_CDIS f)).logEngine f R.ENG_CZCTL_CDIS true
    (s.takeBlock j none).getD s

/-- The end of a compressor's work on the oldest block of its queue. Nothing happens while what it leaves finds no encrypt pipeline in
service (R149) or no room in the write queues (R165). -/
def State.compressDone (s : State) (e : Nat) (fault : Bool) : State :=
  match s.popCompress e with
  | none => s
  | some (j, s') =>
    if fault then s'.compressFault e j
    else if s.noEncrypt j.entry.encrypt then s
    else
      let s' := match j.first with
        | some f => s'.logEngine f R.ENG_CZCTL_CDIS false
        | none => s'
      let b := s.compressBlock j
      ((s'.countForm e j b).takeBlock j b).getD s

/-! ### Fills -/

/-- The second read of a block's sectors (R138, R147). -/
def State.readAgain (s : State) (f : Fill) (cause : Nat) (engine : Option Nat) : State :=
  let f := { f with got := [], bad := false, unit := [], out := [], ready := false, second := true, cause := cause, first := engine }
  (s.updFill f.id fun _ => f).readSectors f

/-- The bytes of a fill's sectors, in order. -/
def Fill.bytes (f : Fill) : List Byte :=
  ((List.range f.n).map fun i => leBytes 64 (((f.got.find? fun g => g.1 == i).map (·.2)).getD 0)).flatten

/-- A fill whose sectors have all come: the tag checked and the unit decrypted (R145 to R147), then handed to a
decompressor. `lasting` is a pipeline fault that a second pipeline did not clear (R149). A block that fails its tag and has no valid
form is handled as a tag failure whose record names both (R141). -/
def State.checkFill (s : State) (id : Nat) (lasting : Bool) : State :=
  match s.fill id with
  | none => s
  | some f =>
    if f.got.length < f.n || f.n == 0 then s
    else
      let st := f.bytes
      let unit := st.take (64 * f.n - 8)
      let o := granuleOff f.entry f.granule
      let ok := blockTag (s.tagKey f.dom f.entry.encrypt) f.dom f.n o unit == st.drop (64 * f.n - 8)
      let plain := if f.entry.encrypt then xtsDec (s.slot f.dom).k1 (s.slot f.dom).k2 (tweakBlock f.dom o) unit else unit
      if f.bad then s.loseBlock f 0x0202
      else if lasting then s.loseBlock f 0
      else if !ok then
        let s := s.countTag f
        let both := (tbcDecode plain f.n).isNone
        if f.second then s.loseBlock f (if f.cause ≥ 2 || both then 0x0302 else 0) else s.readAgain f (if both then 4 else 1) none
      else
        let s := if f.cause == 1 || f.cause == 4 then s.logTag f 0x0301 (if f.cause == 4 then 0x0302 else 0) false else s
        (s.updFill id fun f => { f with unit := plain }).pushDecompress id

/-- The oldest fill of a decompressor's queue taken. It has held one of the queue's 4 places until now, and counted in `DQ` (DESIGN
CHOICE, assumption 122; R140 does not say). -/
def State.popDecompress (s : State) (e : Nat) : Option (Nat × State) :=
  match s.eng.dq.get e with
  | [] => none
  | i :: q =>
    let s : State := { s with eng := { s.eng with dq := s.eng.dq.put e q } }
    some (i, s.wr (R.ENG_CZSTAT_DQ e) q.length)

/-- A decompressor's failure on a block (R138): read again and decoded elsewhere; a second failure loses the block, and a
parity fault that the retry did not clear takes the first decompressor out of service. -/
def State.decompressFault (s : State) (e : Nat) (f : Fill) (parity : Bool) : State :=
  let s := s.set1 (if parity then R.ENG_CZSTAT_DFAULT e else R.ENG_CZSTAT_FMTERR e)
  let other := (List.range 16).any fun k => k != e && !s.flag (R.ENG_CZCTL_DDIS k)
  let decoded := f.cause == 2 || f.cause == 3
  if !decoded && other then s.readAgain f (if parity then 2 else 3) (some e)
  else
    let first := f.first.getD e
    let s := if (if decoded then f.cause == 2 else parity) then
        (s.set1 (R.ENG_CZCTL_DDIS first)).logEngine first R.ENG_CZCTL_DDIS true
      else s
    s.loseBlock f 0x0302

/-- The end of a decompressor's work on the oldest fill of its queue. A fault that the second attempt clears is transient: of the
first decompressor, or of the block's form (R138). -/
def State.decompressDone (s : State) (e : Nat) (fault : Bool) : State :=
  match s.popDecompress e with
  | none => s
  | some (id, s) =>
    match s.fill id with
    | none => s
    | some f =>
      match (if fault then none else tbcDecode f.unit f.n) with
      | none => s.decompressFault e f fault
      | some b =>
        let s := if f.cause == 2 then s.logEngine (f.first.getD e) R.ENG_CZCTL_DDIS false
          else if f.cause == 3 then s.logTag f 0x0302 0 false else s
        let s := s.countBlk e 0x25 1 (some f.dom) (some f.entry.qclass)
        s.updFill id fun f => { f with out := b, ready := true }

/-! ### Operations on a slice (R67, R68) -/

/-- An operation begun on a slice. -/
def State.beginClean (s : State) (n op : Nat) (scope : Bool) (d : Nat) : State :=
  let s : State := { s with kind := { s.kind with
    op := s.kind.op.put n (1 + 2 * op + b2n scope), opDom := s.kind.opDom.put n d, opSet := s.kind.opSet.put n 0 } }
  (s.set1 (R.KS_OPSTAT_BUSY n)).clr (R.KS_OPSTAT_SETS n)

/-- An operation started on a slice, unless one is in progress. -/
def State.startClean (s : State) (n op : Nat) (scope : Bool) (d : Nat) : State :=
  if s.flag (R.KS_OPSTAT_BUSY n) then s else s.beginClean n op scope d

/-- Whether a way of a set is in the scope of the slice's operation. -/
def State.inScope (s : State) (n set w : Nat) : Bool :=
  let l := s.kLine n set w
  l.st != .invalid && ((s.kind.op.get n - 1) % 2 == 0 ||
    (match s.domOf (lineAddr set l) with
    | some (d, _) => d == s.kind.opDom.get n
    | none => false))

/-- A dirty home line or block written back, to be left clean in its way: true once it is. -/
def State.cleanWay (s : State) (n set w : Nat) : Bool × State :=
  let l := s.kLine n set w
  if l.blk then (false, s.evictBlock n l.tag w)
  else
    match s.domOf (lineAddr set l) with
    | some (d, e) =>
      let (c, x) := firewoodLine e (s.page (Entry.mapKey e (lineAddr set l))) (lineAddr set l)
      let (c, x) := s.resolve c x
      if !s.wqRoom c x false || s.noEncrypt (Entry.encrypt e) then (false, s)
      else
        let s := s.countBlk n 0x16 1 (some d) (some (Entry.qclass e))
        (true, (s.setKLine n set w { l with st := .homeClean, upset := false }).queueLine d e (lineAddr set l) l.data l.poison false)
    | none => (true, s.kDrop n set w)

/-- Whether a way of a set holds a line found uncorrectable, of its block too, that is written back as poison (R69). -/
def State.upsetIn (s : State) (n set w : Nat) : Bool :=
  let l := s.kLine n set w
  if l.blk then (List.range 16).any fun i => (s.kLine n (set / 16 * 16 + i) w).upset else l.upset

/-- The visit of one way of a set: true once nothing dirty in scope is left in it, and under the second operation nothing at all. -/
def State.visitWay (s : State) (n set w : Nat) : Bool × State :=
  let l := s.kLine n set w
  if !s.inScope n set w then (true, s)
  else
    let s := if (l.st == .homeDirty || l.st == .peerM) && s.upsetIn n set w then s.set1 (R.KS_OPSTAT_POISONED n) else s
    if l.st.isPeer || (s.kind.op.get n - 1) / 2 == 1 then s.evictWay n set w
    else if l.st == .homeDirty then s.cleanWay n set w
    else (true, s)

/-- The visit of a set: the next one follows once the dirty data of this one has left (R65); the operation ends after set 12,287
(R68). -/
def State.visitSet (s : State) (n : Nat) : State :=
  if s.kind.op.get n == 0 then s
  else
    let set := s.kind.opSet.get n
    let r := (List.range 16).foldl (fun (a : Bool × State) w => let r := a.2.visitWay n set w; (a.1 && r.1, r.2)) (true, s)
    if !r.1 then r.2
    else
      let s := r.2.wr (R.KS_OPSTAT_SETS n) (set + 1)
      let last := decide (set ≥ 12287)
      let s : State := { s with kind := { s.kind with
        opSet := s.kind.opSet.put n (if last then 0 else set + 1)
        op := if last then s.kind.op.put n 0 else s.kind.op } }
      if last then s.clr (R.KS_OPSTAT_BUSY n) else s

/-- `KSn_WAYDIS` written (R67): a way whose bit is set is cleaned and invalidated before it leaves service. -/
def State.writeWays (s : State) (n ways : Nat) : State :=
  let old := s.rd (R.KS_WAYDIS_WAYS n)
  let s := s.wr (R.KS_WAYDIS_WAYS n) ways
  (List.range 16).foldl (fun s w => if ways.testBit w && !old.testBit w then s.emptyWay n w else s) s

/-! ### Commands -/

/-- CLEAN (R68). -/
def execClean (p : Path) (slice : Fin 16) (scope : Bool) (dom : BitVec 14) (s : State) : Answer :=
  .next (s.viaPath p (R.KS_OPCTL slice) fun s => s.startClean slice 0 scope dom.toNat)
/-- CLEAN_AND_INVALIDATE (R68). -/
def execCleanAndInvalidate (p : Path) (slice : Fin 16) (scope : Bool) (dom : BitVec 14) (s : State) : Answer :=
  .next (s.viaPath p (R.KS_OPCTL slice) fun s => s.startClean slice 1 scope dom.toNat)
/-- KINDLING_SET_VISIT (R68). -/
def execKindlingSetVisit (slice : Fin 16) (s : State) : Answer := .next (s.visitSet slice).settleAll
/-- WAY_DISABLE (R67). -/
def execWayDisable (p : Path) (slice : Fin 16) (ways : BitVec 16) (s : State) : Answer :=
  .next (s.viaPath p (R.KS_WAYDIS slice) fun s => s.writeWays slice ways.toNat).settleAll

end Sys2Proof.Machine
end

