-- ==== Sys2Proof/Machine/Flags.lean ====
section
/-!
DEFINITION. What a Grihar core computes: the functions of Table 14-6, the conditions of CMP and CMPI, the flag operations of
FOP (Table 14-5), and the fields of an instruction word (Table 14-4).
-/
namespace Sys2Proof.Machine

/-! ### Fields of a word -/

/-- The opcode. -/
def gOp (w : BitVec 32) : Nat := fld w 27 22
/-- The negation bit of the predicate. -/
def gNeg (w : BitVec 32) : Bool := bit w 31
/-- The flag of the predicate. -/
def gFlag (w : BitVec 32) : Nat := fld w 30 28
def gRd (w : BitVec 32) : Nat := fld w 21 17
def gRa (w : BitVec 32) : Nat := fld w 16 12
def gRb (w : BitVec 32) : Nat := fld w 11 7
def gFunc (w : BitVec 32) : Nat := fld w 6 0
/-- `imm12` of format I, sign-extended. -/
def gImm12 (w : BitVec 32) : BitVec 64 := (w.extractLsb' 0 12).signExtend 64
/-- `imm17` of format L, sign-extended. -/
def gImm17 (w : BitVec 32) : BitVec 64 := (w.extractLsb' 0 17).signExtend 64
/-- `imm11` of format CI, sign-extended. -/
def gImm11 (w : BitVec 32) : BitVec 64 := (w.extractLsb' 0 11).signExtend 64
/-- `off22` of format B in bytes. -/
def gOff (w : BitVec 32) : BitVec 64 := (w.extractLsb' 0 22).signExtend 64 * 4

/-! ### Results -/

/-- Leading zeros of a word. -/
def clz64 (a : BitVec 64) : Nat := ((List.range 64).find? fun i => a.getLsbD (63 - i)).getD 64

/-- The ALU functions (Table 14-6). -/
def gAlu (func : Nat) (a b : BitVec 64) : BitVec 64 :=
  match func with
  | 0x00 => a + b
  | 0x01 => a - b
  | 0x02 => a &&& b
  | 0x03 => a ||| b
  | 0x04 => a ^^^ b
  | 0x05 => a <<< (b.toNat % 64)
  | 0x06 => a >>> (b.toNat % 64)
  | 0x07 => a.sshiftRight (b.toNat % 64)
  | 0x08 => a * b
  | 0x09 => BitVec.ofNat 64 (a.toNat * b.toNat / 2 ^ 64)
  | 0x0A => if b = 0 then BitVec.allOnes 64 else a / b
  | 0x0B => if b = 0 then a else a % b
  | 0x0C => if a.toNat ≤ b.toNat then a else b
  | 0x0D => if a.toNat ≤ b.toNat then b else a
  | 0x0E => if a.toInt ≤ b.toInt then a else b
  | 0x0F => if a.toInt ≤ b.toInt then b else a
  | 0x10 => BitVec.ofNat 64 (bitsOf 64 a).length
  | 0x11 => BitVec.ofNat 64 (clz64 a)
  | 0x12 => BitVec.ofNat 64 (min (a.toNat + b.toNat) (2 ^ 64 - 1))
  | _ => BitVec.ofNat 64 (a.toNat - b.toNat)

/-- The clocks of an ALU function. -/
def gAluClocks (func : Nat) : Nat :=
  if func == 0x08 || func == 0x09 then 3 else if func == 0x0A || func == 0x0B then 34 else 1

/-- The shifts and the rotate of SHI, by kind. -/
def gShift (kind amount : Nat) (a : BitVec 64) : BitVec 64 :=
  match kind with
  | 0 => a <<< amount
  | 1 => a >>> amount
  | 2 => a.sshiftRight amount
  | _ => a.rotateRight amount

/-- A condition of CMP and CMPI. -/
def gCond (cond : Nat) (a b : BitVec 64) : Bool :=
  match cond with
  | 0 => a == b
  | 1 => a != b
  | 2 => decide (a.toInt < b.toInt)
  | 3 => decide (b.toInt ≤ a.toInt)
  | 4 => decide (a.toNat < b.toNat)
  | 5 => decide (b.toNat ≤ a.toNat)
  | _ => (a &&& b) != 0

/-- The flag operations of FOP. -/
def gFop (op : Nat) (a b : Bool) : Bool :=
  match op with
  | 0 => a && b
  | 1 => a || b
  | 2 => a != b
  | _ => a && !b

/-! ### Legal words -/

/-- Whether a word faults with ILLEGAL: a reserved opcode, function, condition, shift kind or special register, or a nonzero
bit where Table 14-4 gives 0 (R321). -/
def gIllegal (w : BitVec 32) : Bool :=
  let op := gOp w
  let z := fun (hi lo : Nat) => fld w hi lo != 0
  if op == 0x00 then decide (gFunc w > 0x13) || ((gFunc w == 0x10 || gFunc w == 0x11) && z 11 7)
  else if (1 ≤ op ∧ op ≤ 4) ∨ op = 6 then false
  else if op == 0x05 then z 11 8
  else if 0x07 ≤ op ∧ op ≤ 0x0A then z 16 16
  else if op == 0x0B then z 5 0 || fld w 18 16 == 7
  else if op == 0x0C then fld w 18 16 == 7
  else if op == 0x0D then z 10 0
  else if op == 0x0E then z 3 0
  else if 0x10 ≤ op ∧ op ≤ 0x15 then false
  else if op == 0x16 || op == 0x17 then z 6 0
  else if op == 0x18 || op == 0x22 || op == 0x23 then z 21 0
  else if op == 0x1C || op == 0x1D || op == 0x24 then false
  else if op == 0x1E then z 11 0
  else if op == 0x20 then z 16 12 || decide (fld w 11 0 > 5)
  else if 0x28 ≤ op ∧ op ≤ 0x39 then z 6 0
  else true

/-- The row of the table of operations a legal word belongs to: 0x100 + func for ALU, one code for MOVK0 to MOVK3 and one
for CMP and CMPI, else the opcode. -/
def gRow (w : BitVec 32) : Nat :=
  let op := gOp w
  if op == 0 then 0x100 + gFunc w
  else if 0x07 ≤ op ∧ op ≤ 0x0A then 0x07
  else if op == 0x0B then 0x0C
  else op

/-- Whether a word may come with a row: it is the row's own, or it is illegal under R321. -/
def gBelongs (row : Nat) (w : BitVec 32) : Bool := gIllegal w || gRow w == row

/-- Whether an instruction is a checkpoint (R333). -/
def gCheckpoint (w : BitVec 32) : Bool := gOp w == 0x22 || gOp w == 0x23 || gOp w == 0x2C

end Sys2Proof.Machine
end

