-- ==== Sys2Proof/Machine/Banks.lean ====
section
/-!
DEFINITION. The banks of the channels: activate counting and mitigation (R173 to R175), refresh (R169 to R172), the commands an access
needs to reach its row (R166), and the retry buffer (R177).
-/
namespace Sys2Proof.Machine

/-! ### Banks and the retry buffer -/

/-- A bank. -/
def State.bank (s : State) (n sub rank bank : Nat) : Bank := s.dram.banks.get (bankKey n sub rank bank)
/-- The state with a bank changed. -/
def State.updBank (s : State) (n sub rank bank : Nat) (f : Bank → Bank) : State :=
  { s with dram := { s.dram with banks := s.dram.banks.upd (bankKey n sub rank bank) f } }

/-- A command entered in the retry buffer (R177). -/
def State.enterRetry (s : State) (n sub : Nat) (c : DramCmd) : State := s.updSub n sub fun b => { b with retry := b.retry ++ [c] }

/-! ### Activate counts (R173) -/

/-- The threshold T in force in the present refresh window (R173). -/
def State.threshT (s : State) (n : Nat) : Nat :=
  let t := (s.dram.chans.get n).threshNow
  if t == 0 then s.rd (R.CH_RHTHRESH_THRESH n) else t

/-- The valid entry of least count, the lowest index on ties. -/
def leastEntry (l : List (Nat × Nat)) : Nat × Nat := l.foldl (fun b e => if e.2 < b.2 then e else b) (l.headD (0, 0))

/-- The table of a bank after an activate of a row, its floor, and the row's count (R173). -/
def countActivate (b : Bank) (row : Nat) : Bank × Nat :=
  match b.act.find? fun e => e.1 == row with
  | some e => ({ b with act := b.act.map fun x => if x.1 == row then (row, e.2 + 1) else x }, e.2 + 1)
  | none =>
    if b.act.length < 32 then ({ b with act := b.act ++ [(row, b.floor + 1)] }, b.floor + 1)
    else
      let x := leastEntry b.act
      let f := max b.floor x.2
      ({ b with act := b.act.map fun y => if y.1 == x.1 then (row, f + 1) else y, floor := f }, f + 1)

/-- A mitigation of a row's neighbours queued, and the row's count returned to the floor. A bank holds at most 4 (R173): the spec does
not say what becomes of a fifth, and here its row keeps its count and is queued as soon as one of the four has been issued (DESIGN
CHOICE, assumption 110). -/
def Bank.askMitigation (b : Bank) (row : Nat) : Bank :=
  if b.mits.length < 4 then { b with mits := b.mits ++ [row], act := b.act.map fun x => if x.1 == row then (row, b.floor) else x }
  else { b with owed := if b.owed.contains row then b.owed else b.owed ++ [row] }

/-- The oldest mitigation of a bank issued: one that has waited for its place is queued. -/
def Bank.takeMitigation (b : Bank) : Bank :=
  let b : Bank := { b with mits := b.mits.tail, row := none }
  match b.owed with
  | [] => b
  | r :: rest => ({ b with owed := rest } : Bank).askMitigation r

/-- An activate counted (R173): at T the neighbours' mitigation is queued and the count returns to the floor; a floor of T/2
raises RH_PRESSURE once a window. While `RFMEN` is 1 the bank's rolling count rises too (R175). -/
def State.activate (s : State) (n : Nat) (c : Coord) : State :=
  let t := s.threshT n
  let (b, cnt) := countActivate (s.bank n c.sub c.rank c.bank) c.row
  let b : Bank := { b with
    row := some c.row, fresh := true, last := (s.sub n c.sub).clock, raa := if s.flag (R.CH_RHTHRESH_RFMEN n) then b.raa + 1 else b.raa }
  let b := if cnt ≥ t then b.askMitigation c.row else b
  let press := decide (b.floor * 2 ≥ t) && !b.flagged
  let s := s.updBank n c.sub c.rank c.bank fun _ => { b with flagged := b.flagged || press }
  let s := (s.countBlk n 0x32 1 none none).wr (R.CH_RHSTAT_MAXF n) (max (s.rd (R.CH_RHSTAT_MAXF n)) (min b.floor 32767))
  if press then
    let s := s.set1 (R.CH_RHSTAT_PRESSURE n)
    let s := s.log { type := 0x020C, level := 1, ukind := 2, unit := n, detail := dramDetail c 0 0 0 }
    s.event 0x11 (n + 256 * (Config.eventKind 0x020C % 256))
  else s

/-! ### Mitigation (R175) -/

/-- Rows of a bank (R164). -/
def State.rows (s : State) (n : Nat) : Nat :=
  s.chanLines n / 2 ^ ((if s.flag (R.CH_CFG_WIDTH n) then 6 else 7) + 6 + log2Loop 6 (s.ranks n))

/-- The rows at distance 1 and 2 of a row, within the bank's rows. -/
def State.neighbours (s : State) (n row : Nat) : List Nat :=
  let below := [2, 1].filterMap fun d => if d ≤ row then some (row - d) else none
  below ++ [row + 1, row + 2].filter fun r => decide (r < s.rows n)

/-- Whether every device of a rank reports support for directed refresh management: slot 0 holds the lower half of a channel's ranks
where it has two modules (Table 08-2). -/
def State.drfmRank (s : State) (n rank : Nat) : Bool :=
  (s.dram.chans.get n).drfm.get (if s.flag (R.CH_CFG_DPC n) && decide (2 * rank ≥ s.ranks n) then 1 else 0)

/-- The neighbours of a row refreshed: by the directed command, or by an activate and a precharge of each, which count. The bank is
left closed. -/
def State.refreshRows (s : State) (n sub rank bank row : Nat) : State :=
  let s := if s.drfmRank n rank then s
    else (s.neighbours n row).foldl (fun s r => s.activate n { sub := sub, rank := rank, bank := bank, row := r }) s
  s.updBank n sub rank bank fun b => { b with row := none }

/-- The oldest mitigation of a bank issued (R175). -/
def State.issueMitigation (s : State) (n sub rank bank row : Nat) : State :=
  let s := (s.updBank n sub rank bank Bank.takeMitigation).refreshRows n sub rank bank row
  let s := (s.satAdd (R.CH_RHSTAT_MITCNT n) 1).countBlk n 0x35 1 none none
  s.enterRetry n sub (.mitigate (rank * 32 + bank) row)

/-- The rolling activate count at which a bank is due for refresh management (R175); no part asks for it below 32 (PRESUMED, assumption
112). -/
def managementDue : Nat := Config.managementLimit + 32

/-- The rolling count of a bank lowered by the standard's threshold, as a refresh or a refresh management command of it does (R175). -/
def Bank.managed (b : Bank) : Bank := { b with row := none, raa := b.raa - managementDue }

/-- A refresh management command issued to a bank whose rolling count has reached the standard's threshold (R175). -/
def State.issueManagement (s : State) (n sub rank bank : Nat) : State :=
  (s.updBank n sub rank bank Bank.managed).enterRetry n sub (.manage (rank * 32 + bank))

/-! ### Refresh (R169 to R172) -/

/-- Whether same-bank refresh is in force (R169, R170). -/
def State.sameBank (s : State) (n : Nat) : Bool := s.flag (R.CH_REFCTL_SBMODE n) || s.servesPaced n

/-- The key of a rank. -/
def rankKey (n sub rank : Nat) : Nat := (n * 2 + sub) * 16 + rank

/-- Whether a same-bank refresh of a rank would start on a bank with a queued paced read (R169). -/
def State.refreshBarred (s : State) (n sub rank : Nat) : Bool :=
  s.sameBank n && (s.sub n sub).prq.any fun e =>
    let c := s.coord n e.line
    c.rank == rank && c.bank % 4 == s.dram.refBank.get (rankKey n sub rank)

/-- The banks of a rank that a refresh of bank `b` of each group, or of every bank, leaves closed and refreshed. -/
def State.refreshBanks (s : State) (n sub rank b : Nat) : State :=
  (List.range 32).foldl (fun s k => if b == 4 || k % 4 == b then s.updBank n sub rank k Bank.managed else s) s

/-- The bank of each group that the next refresh of a rank takes, 4 for all of them. -/
def State.nextRefBank (s : State) (n sub rank : Nat) : Nat := if s.sameBank n then s.dram.refBank.get (rankKey n sub rank) else 4

/-- A refresh of a rank issued: the banks it refreshes are closed (R170). -/
def State.refresh (s : State) (n sub rank : Nat) : State :=
  let k := rankKey n sub rank
  let s := (s.refreshBanks n sub rank (s.nextRefBank n sub rank)).enterRetry n sub (.refresh rank (s.nextRefBank n sub rank))
  let s := if s.sameBank n then { s with dram := { s.dram with refBank := s.dram.refBank.upd k fun b => (b + 1) % 4 } } else s
  s.countBlk n 0x34 1 none none

/-- A refresh issued against the rank's postponed or pulled-in count. -/
def State.issueRefresh (s : State) (n sub rank : Nat) : State :=
  let k := rankKey n sub rank
  let s : State :=
    if s.dram.refDue.get k > 0 then { s with dram := { s.dram with refDue := s.dram.refDue.upd k (· - 1) } }
    else { s with dram := { s.dram with refAhead := s.dram.refAhead.upd k (· + 1) } }
  s.refresh n sub rank

/-- The postponed refreshes of a rank issued (step 3 of Table 08-7). -/
def State.pullIn (s : State) (n sub rank : Nat) : State :=
  (List.range (s.dram.refDue.get (rankKey n sub rank))).foldl (fun s _ => s.issueRefresh n sub rank) s

/-! ### Rows (R166) -/

/-- Whether an access to a line may be issued now: other rows of a bank whose row is being repaired wait (Table 08-7), and a
bank with mitigations queued takes no activate. -/
def State.lineLegal (s : State) (n l : Nat) : Bool :=
  let c := s.coord n l
  let b := s.bank n c.sub c.rank c.bank
  match (s.dram.chans.get n).save with
  | some r =>
    if r.sub == c.sub && r.rank == c.rank && r.bank == c.bank then r.row == c.row else b.row.isSome || b.mits.isEmpty
  | none => b.row.isSome || b.mits.isEmpty

/-- Whether a line lies in its bank's open row. -/
def State.rowHit (s : State) (n l : Nat) : Bool :=
  let c := s.coord n l
  (s.bank n c.sub c.rank c.bank).row == some c.row

/-- The bank command an access needs before it can be issued, and whether the access is ready. A line of the row save buffer
is ready at once. -/
def State.openRow (s : State) (n sub l : Nat) : Bool × State :=
  let c := s.coord n l
  let b := s.bank n c.sub c.rank c.bank
  if (s.saved n l).isSome then (true, s)
  else
    match b.row with
    | some r =>
      if r == c.row then (true, s)
      else
        let s := s.updBank n c.sub c.rank c.bank fun b => { b with row := none }
        (false, s.enterRetry n sub (.precharge (c.rank * 32 + c.bank)))
    | none => (false, (s.activate n c).enterRetry n sub (.activate (c.rank * 32 + c.bank) c.row))

/-- An access made to an open row: a hit counted unless it is the first since the activate, and the row closed under
`PAGEPOL` 1. -/
def State.useRow (s : State) (n l : Nat) : State :=
  let c := s.coord n l
  let s := if s.rowHit n l && !(s.bank n c.sub c.rank c.bank).fresh then s.countBlk n 0x33 1 none none else s
  let close := s.flag (R.CH_CTL_PAGEPOL n)
  if (s.saved n l).isSome then s
  else s.updBank n c.sub c.rank c.bank fun b =>
    { b with fresh := false, last := (s.sub n c.sub).clock, row := if close then none else b.row }

/-- Whether an access that is issued with the bank commands it needs may be issued now: its line is legal, also once its row has been
closed, and the retry buffer takes its commands (R177). -/
def State.accessFree (s : State) (n l : Nat) : Bool :=
  let c := s.coord n l
  let b := s.bank n c.sub c.rank c.bank
  s.lineLegal n l && (s.rowHit n l || b.mits.isEmpty) && (s.sub n (l % 2)).alert == .none && decide ((s.sub n (l % 2)).retry.length ≤ 37)

/-- An access issued with the bank commands it needs: its row opened, which counts (R173), and used. -/
def State.access (s : State) (n l : Nat) : State :=
  let s := ((s.openRow n (l % 2) l).2.openRow n (l % 2) l).2
  s.useRow n l

/-- The first bank of a subchannel, in order of rank and bank, that `p` takes: rank, bank and the bank's state. -/
def State.pickBank (s : State) (n sub : Nat) (p : Bank → Bool) : Option (Nat × Nat × Bank) :=
  (s.dram.banks.cells.find? fun c => c.1 / 512 == n * 2 + sub && p c.2).map fun c => (c.1 / 32 % 16, c.1 % 32, c.2)

/-- Whether a bank has been open for `PGTIMEOUT` × 4 clocks since its last access, under open-page policy (R166). -/
def State.timedOut (s : State) (n sub : Nat) (b : Bank) : Bool :=
  !s.flag (R.CH_CTL_PAGEPOL n) && b.row.isSome && decide ((s.sub n sub).clock ≥ b.last + 4 * s.rd (R.CH_CTL_PGTIMEOUT n))

end Sys2Proof.Machine
end

