-- ==== Sys2Proof/Machine/Repair.lean ====
section
/-!
DEFINITION. What stored data's faults lead to: the classification of two reads (R202), the records and counts (R197, R311,
R381, R384), marks (R199, R200), soft repair (R183, R184), retirement (R186) and lost metadata (R386).
-/
namespace Sys2Proof.Machine

/-! ### Where a line belongs -/

/-- The metadata extent that a channel's extent holds (R100): where it was placed at first, or has been moved to. -/
def State.metaAt (s : State) (c x : Nat) : Option Nat :=
  match s.tier.place.cells.find? fun p => p.2 == 1 + extKey c x with
  | some p => some p.1
  | none =>
    match s.tier.metaChans.findIdx? (· == c) with
    | some j =>
      let i := (x - s.dataExtents c) * s.tier.metaChans.length + j
      if x ≥ s.dataExtents c && i < s.tier.region && s.tier.place.get i == 0 then some i else none
    | none => none

/-- The domain a stored line belongs to, with its entry, the DPA of the line or of its block, and whether it is a line of a
Firewood page. -/
def State.lineOwner (s : State) (n l : Nat) : Option (Nat × Entry × Nat × Bool) :=
  s.domains.findSome? fun d =>
    let e := d.2
    if !s.storesShare e then none
    else
      s.tier.pmap.cells.findSome? fun c =>
        let sp := c.1 - Entry.mapBase e * 256
        if c.1 < Entry.mapBase e * 256 || sp ≥ Entry.pages e then none
        else
          let p := c.2
          let a := s.pageDpa e sp
          if PageEntry.state p == 1 then
            ((List.range 64).find? fun i => s.resolve (firewoodLine e p (a + 64 * i)).1 (firewoodLine e p (a + 64 * i)).2 == (n, l)).map
              fun i => (d.1, e, a + 64 * i, true)
          else if PageEntry.state p == 2 then
            ((List.range 4).find? fun g => (List.range (PageEntry.blen p g)).any fun i =>
              s.resolve (PageEntry.cchan p) (PageEntry.csect p + PageEntry.blockAt p g + i) == (n, l)).map
              fun g => (d.1, e, a + 1024 * g, false)
          else none

/-! ### Retirement (R186) -/

/-- The in-use extents of a channel still to be moved, in ascending order: those not redirected yet, then those that hold
metadata. -/
def State.extentsToMove (s : State) (n : Nat) : List Nat :=
  let used := (keysIn s.tier.extents (extKey n 0) (extKey (n + 1) 0)).map (· - extKey n 0)
  let used := used.filter fun x => (s.ext n x).kind != 4 && (s.dram.chans.get n).redirect.get x == 0
  let meta_ := (List.range (s.reserveExtents n)).filter fun i => (s.metaAt n (s.dataExtents n + i)).isSome
  let taken := (keysIn s.tier.extents (extKey n 0) (extKey (n + 1) 0)).filter fun k => (s.tier.extents.get k).kind == 4
  used ++ taken.map (· - extKey n 0) ++ meta_.map (s.dataExtents n + ·)

/-- A free reserve extent of a serving channel other than `n` (step 5 of Table 08-9). -/
def State.freeReserve (s : State) (n : Nat) : Option (Nat × Nat) :=
  ((List.range 16).filter fun t => t != n && s.chanTakes t).findSome? fun t =>
    ((List.range (s.reserveExtents t)).find? fun i => (s.metaAt t (s.dataExtents t + i)).isNone).map
      fun i => (t, s.dataExtents t + i)

/-- The target of an extent of a channel: for metadata a free reserve extent first (steps 2 and 5). -/
def State.moveTarget (s : State) (n x : Nat) : Option (Nat × Nat) :=
  let ordinary := match s.targetFor n with
    | some t => (s.lowestFree t).map fun y => (t, y)
    | none => none
  if (s.metaAt n x).isSome then
    match s.freeReserve n with
    | some r => some r
    | none => ordinary
  else ordinary

/-- Whether a line of an extent of a channel has an access that is not done: those before the flip are the source's. -/
def State.extentBusy (s : State) (n x : Nat) : Bool :=
  let mine := fun (l : Nat) => l / 32768 == x
  ([0, 1].any fun b => (s.sub n b).reads.any fun r => mine r.line) || s.writesWait n mine ||
    ((s.dram.chans.get n).merges.any fun m => mine m.line) || (s.dram.chans.get n).inj.any fun j => mine j.line

/-- The extents of a channel that stand for one of a retired channel with a frame of a valid paced domain. -/
def State.pacedHosted (s : State) (n : Nat) : List Nat :=
  (keysIn s.tier.extents (extKey n 0) (extKey (n + 1) 0)).filter fun k =>
    let t := s.tier.extents.get k
    t.kind == 3 && (s.pacedExtents (t.arg / 2 ^ 20) []).contains (t.arg % 2 ^ 20)

/-- The status a retirement is refused with, or 0. -/
def State.retireStatus (s : State) (n : Nat) : Nat :=
  if !s.chanTakes n then 0x23 else if (s.pacedExtents n []).length + (s.pacedHosted n).length > 2048 then 0x22 else 0

/-- The end of a retirement (step 6 of Table 08-9), once nothing is left to move or to issue. -/
def State.endRetire (s : State) (n : Nat) : State :=
  let idle := [0, 1].all fun b => (s.sub n b).reads.isEmpty && (s.sub n b).wq.isEmpty && (s.sub n b).alert == .none
  if s.chanState n == 4 && (s.dram.chans.get n).extCopy.isNone && (s.extentsToMove n).isEmpty && idle &&
      (s.dram.chans.get n).merges.isEmpty && (s.dram.chans.get n).scrub.isEmpty && (s.dram.chans.get n).save.isNone then
    let s := (s.wr (R.CH_CFG_STATE n) 5).updChan n fun c => { c with extWait := false, retired := true }
    (((s.log { type := 0x0209, sev := 2, level := 3, ukind := 2, unit := n }).headLogAll 1 0x0209 0xFFFF 0)).life 7
  else s

/-! ### Records, counts and thresholds -/

/-- What two reads of a line say of it (R202): `cls` 0 no fault, 1 transient, 2 lasting; `ue` uncorrectable; the bytes to serve
and whether they are poison; the decode code and corrected symbols the record names. -/
structure Verdict where
  cls : Nat
  ue : Bool
  bytes : Line
  bad : Bool
  code : Nat
  errs : Nat
deriving DecidableEq, Repr, Inhabited

/-- Whether a decode is CORRECTED or POISON_CORRECTED. -/
def Decoded.correctable : Decoded → Bool
  | .corrected _ _ | .poisonCorrected _ _ => true
  | _ => false
/-- Whether a decode is UNCORRECTABLE. -/
def Decoded.lost : Decoded → Bool
  | .uncorrectable _ => true
  | _ => false
/-- Whether a decode is CLEAN or POISON, so that nothing is wrong with the line. -/
def Decoded.sound : Decoded → Bool
  | .clean _ | .poison _ => true
  | _ => false

/-- The classification of R202. -/
def verdict (a b : Decoded) : Verdict :=
  if a.sound then { cls := 0, ue := false, bytes := a.stored, bad := a.bad, code := a.code, errs := 0 }
  else
    let transient := match b with
      | .clean _ => true
      | .poison _ => a.bad
      | _ => false
    if transient then
      let d := if a.lost then b else a
      { cls := 1, ue := a.lost, bytes := d.stored, bad := d.bad, code := a.code, errs := a.errs }
    else
      let d := if a.correctable then a else b
      { cls := 2, ue := a.lost && b.lost, bytes := d.stored, bad := d.bad, code := if b.lost then 5 else a.code, errs := d.errs }

/-- A day and an hour, in GTC ticks. -/
def day : Nat := 86400000000000
def hour : Nat := 3600000000000

/-- Whether a bit of TEND's parameter is set and TEND runs (R358, R384; Table 15-11). -/
def State.tendOn (s : State) (i : Nat) : Bool :=
  let v := s.core.params.get (3 * 16)
  let bits := if v == 0 then 7 else v - 1
  bits.testBit i && match s.coreOf 3 with
    | some k => s.rd (coreState k) != 0 && s.rd (coreState k) != 3 && s.rd (coreState k) != 4
    | none => false

/-- A retirement started (step 1 of Table 08-9), or refused; one asked for during an escalation waits for its result (R189).
Answers the status. -/
def State.retire (s : State) (n : Nat) : Nat × State :=
  let st := s.retireStatus n
  if st != 0 then (st, s)
  else (0, (((s.wr (R.CH_CFG_STATE n) 4).updChan n fun c => { c with extWait := true }).floorSync).endRetire n)

/-- Whether a subchannel of a channel is in the escalation of R179. -/
def State.escalating (s : State) (n : Nat) : Bool :=
  [0, 1].any fun b => (s.sub n b).alert == .restore || (s.sub n b).alert == .lowerRate

/-- A retirement that a threshold or R200 issues; one that fails is recorded with the type of the record that met the
condition (R384). -/
def State.retireFor (s : State) (n type2 : Nat) : Nat × State :=
  if s.escalating n then (0, s.updChan n fun c => { c with retireWait := some type2 })
  else
    let (st, s) := s.retire n
    if st == 0 then (0, s)
    else (st, s.log { type := 0x020F, sev := 2, level := 3, ukind := 2, unit := n, type2 := type2, detail := BitVec.ofNat 128 st })

/-- A retirement that a threshold issues, where the channel is not leaving or out of service already. -/
def State.retireOn (s : State) (n type2 : Nat) : State :=
  if s.tendOn 2 && s.chanState n != 4 && s.chanState n != 5 then (s.retireFor n type2).2 else s

/-- A mask written (R199 to R201): the channel's state follows, MARK_SET is recorded, and a rank with sixteen marked symbols
raises ZERO_MARGIN and retires its channel. `src` is 1 for the region fault handler. A mask of one pair that replaces another pair does
not make f = 16 again: it raises nothing (DESIGN CHOICE, assumption 111; R200 does not say). -/
def State.setMark (s : State) (n k mask src : Nat) : State :=
  let old := s.rd (R.CH_MARK_MASK n k)
  let s := (s.wr (R.CH_MARK_MASK n k) mask).wr (R.CH_MARK_SRC n k) src
  let any := (List.range 32).any fun i => s.rd (R.CH_MARK_MASK n i) != 0
  let s := if s.chanState n == 2 && any then s.wr (R.CH_CFG_STATE n) 3
    else if s.chanState n == 3 && !any then s.wr (R.CH_CFG_STATE n) 2 else s
  let s := s.eccSync n
  if old == mask then s
  else
    let at_ : Coord := { sub := k / 16, rank := k % 16, bank := 0, row := 0 }
    let s := s.log { type := 0x0208, sev := 2, level := 2, ukind := 2, unit := n, detail := dramDetail at_ (BitVec.ofNat 10 mask) 0 0 }
    if maskCount (BitVec.ofNat 10 mask) ≥ 2 && maskCount (BitVec.ofNat 10 old) < 2 then
      let refused := !s.escalating n && s.retireStatus n != 0
      let st := if refused then s.retireStatus n else 0
      let s := s.log { type := 0x020A, sev := 2, level := 3, ukind := 2, unit := n, detail := BitVec.ofNat 128 st }
      let s := (s.headLogAll 1 0x020A 0xFFFF 0).event 0x12 n
      (s.retireFor n 0x020A).2
    else s

/-- Whether a mask is legal (R199): none, one nibble, or both nibbles of an x8 device. -/
def maskLegal (x8 : Bool) (m : Nat) : Bool :=
  let l := bitsOf 10 (BitVec.ofNat 10 m)
  l.length ≤ 1 || (x8 && l.length == 2 && l.all fun i => m.testBit (i ^^^ 1))

/-- The subchannel and rank of a line as `CHn_MARKk` numbers them. -/
def Coord.k (c : Coord) : Nat := 16 * c.sub + c.rank

/-- The rows of a rank in which a nibble has shown a lasting fault within a day, and those counted for it because they have
no spare (R384). -/
def State.nibbleRows (s : State) (n k j : Nat) : List Nat :=
  let seen := s.dram.lasting.filter fun f => f.chan == n && f.subRank == k && bit f.nibbles j && decide (s.gtc ≤ f.at_ + day)
  let spent := (s.dram.chans.get n).spent.filter fun x => x.1 == k && x.2.2 == j
  (seen.map (·.row) ++ spent.map (·.2.1)).eraseDups

/-- The nibble rules of Table 17-6 for one nibble of a rank: a mark, both marks of an x8 device, or retirement. -/
def State.nibbleRule (s : State) (n k j type : Nat) : State :=
  let mask := s.rd (R.CH_MARK_MASK n k)
  if mask.testBit j || (s.nibbleRows n k j).length < 8 then s
  else if mask == 0 then s.setMark n k (2 ^ j) 1
  else if s.flag (R.CH_CFG_WIDTH n) && mask == 2 ^ (j ^^^ 1) then s.setMark n k (mask + 2 ^ j) 1
  else s.retireOn n type

/-- The key of a row for the repair list. -/
def Coord.rowKey (c : Coord) : Nat × Nat × Nat × Nat := (c.sub, c.rank, c.bank, c.row)

/-- A row listed for hard repair at the next start (R183). -/
def State.listRow (s : State) (n : Nat) (c : Coord) : State :=
  s.updChan n fun h => { h with repairs := if h.repairs.contains c.rowKey then h.repairs else h.repairs ++ [c.rowKey] }

/-- The bank group of a rank, as spare rows are counted. -/
def Coord.group (c : Coord) : Nat := (c.sub * 16 + c.rank) * 8 + c.bank / 4

/-- The coordinates that a row's key stands for. -/
def coordOfRow (r : Nat × Nat × Nat × Nat) : Coord := { sub := r.1, rank := r.2.1, bank := r.2.2.1, row := r.2.2.2 }

/-- Whether a row's bank group has a spare row left (R183): hard repairs have used some up, and the soft-repaired rows are on others. A
row that is on one already needs no other. -/
def State.hasSpare (s : State) (n : Nat) (c : Coord) : Bool :=
  let h := s.dram.chans.get n
  h.softRows.contains c.rowKey ||
    decide (h.spares.get c.group + (h.softRows.filter fun r => (coordOfRow r).group == c.group).length < Config.spareRows)

/-- PPR_EXHAUSTED (R183): recorded; a row whose lasting faults all name one nibble counts for it (R384). -/
def State.exhausted (s : State) (n : Nat) (c : Coord) : State :=
  let s := s.log { type := 0x0207, sev := 2, level := 1, ukind := 2, unit := n, detail := dramDetail c 0 0 0 }
  let fs := s.dram.lasting.filter fun f => f.chan == n && f.subRank == c.k && f.row == c.row
  match (List.range 10).find? fun j => !fs.isEmpty && fs.all fun f => f.nibbles == BitVec.ofNat 10 (2 ^ j) with
  | some j => (s.updChan n fun h => { h with spent := (c.k, c.row, j) :: h.spent }).nibbleRule n c.k j 0x0207
  | none => s

/-- The lines that `p` takes at which a channel holds something other than the code word of zeros, or which the poison list names, in
ascending order. -/
def State.linesWhere (s : State) (n : Nat) (p : Nat → Bool) : List Nat :=
  let ls := (keysIn s.dram.lines (lineKey n 0) (lineKey (n + 1) 0)).map (· - lineKey n 0)
  let buf := match (s.dram.chans.get n).save with
    | some r => r.lines.cells.map (·.1)
    | none => []
  let all := (ls ++ buf ++ (s.dram.chans.get n).poisonList).foldl (fun t l => Tab.put t l true) Tab.empty
  (all.cells.map (·.1)).filter p

/-- The informational logs of a corrected line: heads that may read the domain, while their port asks for them (R311). -/
def State.logCorrected (s : State) (d dpa : Nat) : State :=
  ((List.range 32).filter fun p => (s.place p).on && (s.entry d).rdPorts.testBit p &&
    s.flag (R.PG_CXLCFG_EVTVERB (s.place p).group)).foldl (fun s p => s.headLog p 0 0x0201 d dpa) s

/-- The failure logs of a lasting uncorrectable line (R311). -/
def State.logFailure (s : State) (d dpa : Nat) : State :=
  ((List.range 32).filter fun p => (s.place p).on && (s.entry d).rdPorts.testBit p).foldl (fun s p => s.headLog p 2 0x0202 d dpa) s

/-- The row save buffer filled (step 1 of Table 08-7): the row's lines read through ECC, the uncorrectable ones kept as poison. -/
def State.fillSave (s : State) (n : Nat) (c : Coord) : State :=
  let ds := (s.linesWhere n fun l => s.coord n l == c).map fun l => (l, s.decodeLine n l 0)
  let s := match ds with
    | [] => s
    | d :: _ => s.access n d.1
  let s := s.updChan n fun h => { h with save := some { sub := c.sub, rank := c.rank, bank := c.bank, row := c.row, lines := Tab.empty } }
  ds.foldl (fun s d => s.storeBytes n d.1 d.2.stored d.2.bad) s

/-- The row save buffer written back and released (step 4 of Table 08-7). -/
def State.emptySave (s : State) (n : Nat) (r : RowSave) : State :=
  let s := s.updChan n fun h => { h with save := none }
  let s := match r.lines.cells with
    | [] => s
    | x :: _ => s.access n x.1
  let s : State := { s with dram := { s.dram with
    lines := s.dram.lines.drop fun k => k / 2 ^ 34 == n && s.coord n (k % 2 ^ 34) == r.coord } }
  r.lines.cells.foldl (fun s x => s.setWord n x.1 x.2) s

/-- A soft repair started (R184; steps 1 to 3 of Table 08-7), deferred, or refused. Answers the status. The bank's pending refreshes are
issued, and the repair sequence enters the retry buffer. -/
def State.softRepair (s : State) (n : Nat) (c : Coord) : Nat × State :=
  if !s.chanServes n then (0x23, s)
  else if s.servesPaced n || (s.dram.chans.get n).save.isSome || s.chanState n == 4 ||
      s.claim.retry.get ((n * 2 + c.sub) * 256 + 0x42) == 0 then (0x21, s.listRow n c)
  else
    let s := (s.fillSave n c).pullIn n c.sub c.rank
    (0, (s.enterRetry n c.sub (.repair (c.rank * 32 + c.bank) c.row)).set1 (R.CH_MAINT_BUSY n))

/-- The soft repair that TEND issues for a row (R384), unless the row is listed or being repaired already. -/
def State.tendRepair (s : State) (n : Nat) (c : Coord) : State :=
  let lines := (s.dram.lasting.filter fun f =>
    f.chan == n && f.subRank == c.k && f.row == c.row && decide (s.gtc ≤ f.at_ + day)).map (·.line)
  let lines := lines.filter fun l => s.coord n l == c
  if !s.tendOn 1 || lines.eraseDups.length < 2 || (s.dram.chans.get n).repairs.contains c.rowKey ||
      ((s.dram.chans.get n).save.any fun r => r.coord == c) then s
  else
    let (st, s) := s.softRepair n c
    if s.flag (R.CH_MAINT_BUSY n) && st != 0 then s else s.wr (R.CH_MAINT_STATUS n) st

/-- The decisions of Table 17-6 that a lasting fault of a stored line can meet; a mark comes before a soft repair (R385). -/
def State.thresholds (s : State) (n l type : Nat) (nib : BitVec 10) : State :=
  let c := s.coord n l
  let s := (bitsOf 10 nib).foldl (fun s j => s.nibbleRule n c.k j type) s
  let s := s.tendRepair n c
  let ues := (s.dram.lasting.filter fun f => f.chan == n && f.ue && decide (s.gtc ≤ f.at_ + day)).map (·.line)
  if ues.eraseDups.length ≥ 4 then s.retireOn n type else s

/-- What a verdict on a line adds to the records, counts, logs and decisions (R197, R202, R207, R311, R384). `loc` is its DPA,
or its line index outside a request; `dpa` the line of a domain's share that it is; `named` is false where another record
names the fault. -/
def State.note (s : State) (n l : Nat) (dom : Option Nat) (loc : Nat) (dpa : Option Nat) (v : Verdict) (nib : BitVec 10)
    (named : Bool) : State :=
  if v.cls == 0 then s
  else
    let type := if v.ue then 0x0202 else 0x0201
    let rec_ : Record := {
      type := type, sev := if v.ue && v.cls == 2 then 3 else 1, cls := v.cls, level := 1, ukind := 2, unit := n,
      dom := dom.getD 0xFFFF, loc := loc, detail := dramDetail (s.coord n l) nib v.errs v.code }
    let s := if named then s.log rec_ else s
    let s := match dom, dpa with
      | some d, some a =>
        if v.cls == 2 && v.ue then
          let s := s.logFailure d a
          if s.homedHere (s.entry d) a then s.listPoison d a 0 else s
        else if !v.ue then s.logCorrected d a
        else s
      | _, _ => s
    if v.cls != 2 then s
    else
      let s := if v.ue then (s.set1 (R.CH_ECCSTAT_UE n)).satAdd (R.CH_ECCSTAT_UECNT n) 1 else s
      let f : LastingFault := {
        at_ := s.gtc, chan := n, subRank := (s.coord n l).k, row := (s.coord n l).row, line := l, nibbles := nib, ue := v.ue }
      let keep := s.dram.lasting.filter fun x => decide (s.gtc ≤ x.at_ + day)
      let s := { s with dram := { s.dram with lasting := f :: keep } }
      s.thresholds n l type nib

/-- A read that decoded CORRECTED counted (Table 09-6; Table 16-1). -/
def State.countCe (s : State) (n : Nat) (d : Decoded) : State :=
  match d with
  | .corrected _ _ => (((s.set1 (R.CH_ECCSTAT_CE n)).satAdd (R.CH_ECCSTAT_CECNT n) 1)).countBlk n 0x39 1 none none
  | _ => s

/-- The nibbles outside the marks in which a word as read differs from what it decoded to. -/
def wrongNibbles (r : CodeWord) (mask : BitVec 10) (d : Decoded) : BitVec 10 :=
  match d with
  | .corrected b _ => badNibbles r (eccEncode b) &&& ~~~mask
  | .poisonCorrected b _ => badNibbles r (eccPoison b) &&& ~~~mask
  | _ => 0

/-- A rewrite of a stored line (R202): one background write, which waits for an entry of the scrub write-back reservation and is
dropped at its issue when a later write to the line waits (R207). -/
def State.rewrite (s : State) (n l : Nat) (b : Line) (poison : Bool) : State :=
  let id := s.dram.nextId
  let s : State := { s with dram := { s.dram with nextId := id + 1 } }
  s.updChan n fun c => { c with scrub := c.scrub ++
    [{ id := id, line := l, data := b, raw := true, poison := poison, dom := 0, enc := false, tweak := 0, paced := false, bg := true,
       issued := false, addr := 0 }] }

/-! ### Lost metadata (R386) -/

/-- A lasting uncorrectable line of the metadata region (R386): four page map entries, or a line of the allocation tables. -/
def State.loseMeta (s : State) (ext l : Nat) : State :=
  let off := ext * 2097152 + l % 32768 * 64
  if off < s.tier.region * 1572864 then (List.range 4).foldl (fun s i => s.loseMapEntry (off / 16 + i)) s
  else
    let k := Config.allocExtent (off / 64)
    let s : State := { s with tier := { s.tier with extents := s.tier.extents.upd k fun x => { x with noAlloc := true } } }
    s.log { type := 0x0306, sev := 2, level := 3, ukind := 2, unit := k / 2 ^ 20 }

/-! ### A line read back in the background (R186, R206, R207) -/

/-- What the scrubbers and the copy of a retirement do with the two decodes of a line that is no request's: recorded, counted
and handled as its use asks. -/
def State.handleLine (s : State) (n l : Nat) (a b : Decoded) (nib : BitVec 10) : State :=
  let v := verdict a b
  let s := s.countCe n a
  if v.cls == 0 then s
  else
    match s.lineOwner n l with
    | some (d, _, dpa, true) => s.note n l (some d) l (some dpa) v nib true
    | some (d, e, dpa, false) =>
      if v.ue && v.cls == 2 then
        let p := s.page (e.mapKey dpa)
        (s.note n l (some d) dpa none v nib false).holdTag (e.fillOf d p (dpa / 1024)) 0x0202
      else s.note n l (some d) l none v nib true
    | none =>
      let s := s.note n l none l none v nib true
      match s.metaAt n (l / 32768) with
      | some x => if v.ue && v.cls == 2 then s.loseMeta x l else s
      | none => s

/-- Whether a line is a sector of a Charcoal block, which is not rewritten as poison (R197). -/
def State.isSector (s : State) (n l : Nat) : Bool :=
  match s.lineOwner n l with
  | some (_, _, _, fw) => !fw
  | none => false

/-! ### The copy of an extent -/

/-- Step 3 of Table 08-9 begun: the target taken and cleared; from now on each write goes to both, and every line that is not the code
word of zeros is to be copied. -/
def State.copyExtent (s : State) (n x t y : Nat) : State :=
  let src := s.ext n x
  let isMeta := (s.metaAt n x).isSome
  let s := if isMeta && y ≥ s.dataExtents t then s
    else s.setExt t y { kind := if isMeta then 4 else 3, arg := if src.kind == 3 then src.arg else extKey n x, used := 1,
                        auditOnly := src.auditOnly, noAlloc := false }
  let ls := s.linesWhere n fun l => l / 32768 == x
  let s := s.updChan n fun c => { c with extCopy := some { ext := x, chan := t, target := y, left := ls }, extWait := false }
  let lo := lineKey t (y * 32768)
  let s : State := { s with dram := { s.dram with lines := s.dram.lines.drop fun k => decide (lo ≤ k) && decide (k < lo + 32768) } }
  (s.updChan t fun c => { c with poisonList := c.poisonList.filter fun l => l / 32768 != y }).eccSync t

/-- Step 2 for the next extent of a retiring channel, when one is free; the retirement ends when nothing is left. -/
def State.nextExtent (s : State) (n : Nat) : State :=
  if s.chanState n != 4 || (s.dram.chans.get n).extCopy.isSome then s
  else
    match s.extentsToMove n with
    | [] => s.endRetire n
    | x :: _ =>
      match s.moveTarget n x with
      | some (t, y) => s.copyExtent n x t y
      | none => s.updChan n fun c => { c with extWait := true }

/-- Whether an entry of a subchannel's transient re-read reservation is free: its oldest waiting re-reads hold the others (R202). -/
def State.rereadFree (s : State) (n sub : Nat) : Bool :=
  decide ((s.sub n sub).rereads.length < s.claim.retry.get ((n * 2 + sub) * 256 + 0x41))

/-- The lines of a channel's extent that its copy may read next in a subchannel: in ascending order, the target's row legal too, and
a line in poison form not while the target's list is full (R198). -/
def State.pickCopy (s : State) (n sub : Nat) : Option (ExtCopy × Nat) :=
  match (s.dram.chans.get n).extCopy with
  | none => none
  | some x =>
    (x.left.find? fun l => l % 2 == sub).bind fun l =>
      let y := x.target * 32768 + l % 32768
      let busy := (s.queuedWrite n l).isSome || s.merging n l
      if busy || !s.accessFree x.chan y || ((s.decodeLine n l 0).bad && s.poisonWaits x.chan y) ||
          !((s.decodeLine n l 0).sound || s.rereadFree n sub) then none else some (x, l)

/-- A line of an extent copied (R186): read through ECC, what its fault asks for done, and written to the target in poison form or
as a new code word. Both accesses are of the background class. -/
def State.copyLine (s : State) (n : Nat) (x : ExtCopy) (l : Nat) : State :=
  let y := x.target * 32768 + l % 32768
  let d := s.decodeLine n l 0
  let s := (s.useRow n l).countBlk n 0x30 1 none none |>.countBlk n 0x38 1 none none
  let s := ((s.access x.chan y).countBlk x.chan 0x31 1 none none).countBlk x.chan 0x38 1 none none
  let s := s.updChan n fun c => { c with extCopy := c.extCopy.map fun x => { x with left := x.left.filter (· != l) } }
  let s := s.storeBytes x.chan y d.stored d.bad
  s.handleLine n l d d (wrongNibbles (s.word n l) (s.maskOf n l) d)

/-- The source extent of a copy that has been flipped: its entries leave the poison list (R198), and the extent is released. -/
def State.releaseSource (s : State) (n x : Nat) : State :=
  let k := (s.ext n x).kind
  let s := (s.updChan n fun c => { c with extCopy := none, poisonList := c.poisonList.filter fun l => l / 32768 != x }).eccSync n
  if k == 3 || k == 4 then s.setExt n x default else s

/-- Steps 4 and 5: the flip of the extent being copied, once every line is copied and no access that came before it is left (R189: a
request in the clock of the flip goes to the target). -/
def State.flipExtent (s : State) (n : Nat) : State :=
  match (s.dram.chans.get n).extCopy with
  | none => s
  | some x =>
    if !x.left.isEmpty || s.extentBusy n x.ext then s
    else
      let src := s.ext n x.ext
      let s := match s.metaAt n x.ext with
        | some i => { s with tier := { s.tier with place := s.tier.place.put i (1 + extKey x.chan x.target) } }
        | none =>
          let from_ := if src.kind == 3 then (src.arg / 2 ^ 20, src.arg % 2 ^ 20) else (n, x.ext)
          s.updChan from_.1 fun c => { c with redirect := c.redirect.put from_.2 (1 + x.chan * 2 ^ 19 + x.target) }
      (s.releaseSource n x.ext).endRetire n

end Sys2Proof.Machine
end

