-- ==== Sys2Proof/Machine/Reads.lean ====
section
/-!
DEFINITION. Reads at the channels: what returned data is decoded to and used for (R195 to R204), the re-read and its
classification (R202, R203), the merge of a narrow write (R204), the channel share of a paced read (R232), the patrol
scrubber (R205 to R208) and error injection (R211, R212).
-/
namespace Sys2Proof.Machine

/-! ### Pipelines (R148, R149) -/

/-- A parity error in a pipeline: recorded; a lasting one takes the first pipeline out of service. One whose retry finds no
other pipeline is lasting (R380). Answers whether the unit is lost. -/
def State.pipeFault (s : State) (pipe : Option Nat) (dis : Nat → Fld) (f : PipeFault) : Bool × State :=
  match f, pipe with
  | .none, _ => (false, s)
  | _, none => (false, s)
  | f, some e =>
    let s := s.set1 (R.ENG_XSTAT_XFAULT e)
    let other := (List.range 16).any fun k => k != e && !s.flag (dis k)
    if f == .lasting || !other then (true, (s.set1 (dis e)).logEngine e dis true) else (false, s.logEngine e dis false)

/-! ### What a read is for -/

/-- A merge-buffer entry. -/
def State.mergeEntry (s : State) (n id : Nat) : Option MergeEntry := (s.dram.chans.get n).merges.find? fun m => m.id == id

/-- The domain, DPA and slice of what a read serves, for its record and its pipeline. -/
def State.readFor (s : State) (n : Nat) (e : RdEntry) : Option (Nat × Nat × Nat) :=
  match e.use with
  | .demand t | .paced t => (s.tx t).map fun t => (t.req.dom, t.req.addr, t.slice)
  | .sector f _ => (s.kind.fills.find? fun x => x.id == f).map fun f => (f.dom, f.granule * 1024, f.slice)
  | .merge id => (s.mergeEntry n id).map fun m => (m.dom, m.addr, (s.entry m.dom).slice m.addr)

/-- Whether a read is a sector of a Charcoal block. -/
def RdFor.isSector : RdFor → Bool
  | .sector _ _ => true
  | _ => false
/-- Whether a read is a paced one. -/
def RdFor.isPaced : RdFor → Bool
  | .paced _ => true
  | _ => false
/-- Whether a read is a narrow write's. -/
def RdFor.isMerge : RdFor → Bool
  | .merge _ => true
  | _ => false

/-! ### Answers -/

/-- A transaction answered with a line of a Firewood page, its trace stamped. -/
def State.answerTx (s : State) (t : HomeTx) (x : Line) (bad reread : Bool) : State :=
  let eng := if t.req.entry.encrypt then some s.gtc else none
  s.giveLine (t.mark fun r => { r with dram := some s.gtc, reread := reread, eng := eng }) x bad

/-- The transactions that a paced read's data answers: those of its line that wait for memory (R229). -/
def State.pacedOn (s : State) (t : HomeTx) : List HomeTx :=
  s.coh.txs.filter fun u => u.phase == .memory && u.req.entry.paced && u.line / 64 == t.line / 64

/-- Whether a narrow write whose line has been read can go on to the write queue: it has a place there (R165), an encrypt pipeline
(R149), and a place in the poison list if it needs one (R198). -/
def State.mergeFree (s : State) (n : Nat) (m : MergeEntry) (bad : Bool) : Bool :=
  s.wqRoom n m.line m.paced && !s.noEncrypt m.enc && !((bad || m.poison) && s.poisonWaits n m.line)

/-- A narrow write merged into its line (R31, R204): the bytes over the stored line's, in poison form where the line is or the
writer says so; the merged line enters the write queue with the entry's credit. Until it can, it waits in its entry (R149, R198). -/
def State.doMerge (s : State) (n id : Nat) (stored : Line) (bad : Bool) : State :=
  match s.mergeEntry n id with
  | none => s
  | some m =>
    if !s.mergeFree n m bad then
      s.updChan n fun c => { c with merges := c.merges.map fun y => if y.id == id then { y with got := some (stored, bad) } else y }
    else
      let e := s.entry m.dom
      let tw := tweakLine m.dom (e.offset m.addr)
      let x := mergeBytes (s.openLine m.dom m.enc tw stored) m.data m.be
      let s := s.updChan n fun c => { c with merges := c.merges.filter fun y => y.id != id }
      s.pushWrite n
        { id := 0, line := m.line, data := x, raw := false, poison := bad || m.poison, dom := m.dom, enc := m.enc, tweak := tw,
          paced := m.paced, bg := false, issued := false, addr := m.addr, credit := m.credit }

/-- Stored bytes given to what read them. `lost` marks a pipeline fault that a second pipeline did not clear (R149). -/
def State.useRead (s : State) (n : Nat) (e : RdEntry) (x : Line) (bad reread lost : Bool) : State :=
  match e.use with
  | .demand id =>
    match s.tx id with
    | none => s
    | some t =>
      let p := s.openLine t.req.dom t.req.entry.encrypt (tweakLine t.req.dom (t.req.entry.offset t.req.addr)) x
      if t.phase == .memory then s.answerTx t p (bad || lost) reread else s
  | .paced id =>
    match s.tx id with
    | none => s
    | some t =>
      let p := s.openLine t.req.dom t.req.entry.encrypt (tweakLine t.req.dom (t.req.entry.offset t.req.addr)) x
      (s.pacedOn t).foldl (fun s u => s.answerTx u p (bad || lost) reread) s
  | .sector id i =>
    let s := s.updFill id fun f =>
      { f with got := f.got.filter (fun g => g.1 != i) ++ [(i, x)], bad := f.bad || bad }
    s.checkFill id lost
  | .merge id => s.doMerge n id x bad

/-- Reads that wait on a line for which a merged write has just been queued, answered from the queue in order (R168). -/
def State.serveQueued : Nat → State → Nat → Nat → State
  | 0, s, _, _ => s
  | f + 1, s, n, l =>
    let b := s.sub n (l % 2)
    if s.merging n l && !((b.rq.find? fun r => r.line == l).any fun r => r.use.isMerge) then s
    else
      match b.prq.find? (fun r => r.line == l), b.rq.find? (fun r => r.line == l), s.queuedWrite n l with
      | some r, _, some _ =>
        let d := s.storedNow n l
        let s := s.updSub n (l % 2) fun b => { b with prq := b.prq.filter fun y => y.seq != r.seq }
        State.serveQueued f (s.useRead n r d.stored d.bad false false) n l
      | none, some r, some _ =>
        let d := s.storedNow n l
        let s := s.updSub n (l % 2) fun b => { b with rq := b.rq.filter fun y => y.seq != r.seq }
        State.serveQueued f (s.useRead n r d.stored d.bad false false) n l
      | _, _, _ => s

/-! ### Data at the PHY -/

/-- What the data of an issued read decodes to (R195, R198), with an error pattern met on the way. -/
def RdEntry.decode (e : RdEntry) (err : CodeWord) : Decoded :=
  let d := lineDecode (e.word ^^^ err) e.mask e.tlim
  if e.listed then .poison d.stored else d

/-- An issued read as it would read again now. -/
def State.readWord (s : State) (n : Nat) (e : RdEntry) : RdEntry :=
  { e with
    word := s.word n e.line, mask := s.maskOf n e.line, tlim := s.rd (R.CH_ECCCTL_TLIM n),
    listed := decide (maskCount (s.maskOf n e.line) ≥ 2) && (s.dram.chans.get n).poisonList.contains e.line }

/-- The narrow writes of a channel whose lines have been read, merged as far as they can be now, and the reads behind them. -/
def State.settleMerges (s : State) (n : Nat) : State :=
  (s.dram.chans.get n).merges.foldl (fun s m =>
    match m.got with
    | some g => State.serveQueued 64 (s.doMerge n m.id g.1 g.2) n m.line
    | none => s) s

/-- A data unit whose processing has failed for good handled as uncorrectable (R149, R197): recorded, and its line, where it is no
sector of a block, rewritten as poison. -/
def State.unitLost (s : State) (n : Nat) (e : RdEntry) (x : Line) : State :=
  match s.readFor n e with
  | some (dm, a, _) =>
    let v : Verdict := { cls := 2, ue := true, bytes := x, bad := true, code := 5, errs := 0 }
    let s := s.note n e.line (some dm) a (some a) v 0 true
    if e.use.isMerge then s else s.rewrite n e.line x true
  | none => s

/-- Whether a read of a sector, which its block's tag check decrypts, or of a paced domain, which is not retried, loses no line (R149). -/
def RdFor.keepsLine (u : RdFor) : Bool := u.isSector || u.isPaced

/-- The decrypt pipeline of what a read serves, and a fault of it met: whether the unit is lost. -/
def State.decryptFault (s : State) (n : Nat) (e : RdEntry) (fault : PipeFault) : Bool × State :=
  match s.readFor n e with
  | some (dm, _, sl) => if (s.entry dm).encrypt then s.pipeFault (s.decryptPipe sl) R.ENG_XCTL_XDDIS fault else (false, s)
  | none => (false, s)

/-- The first decode of a read's data used (R197, R202, R203): good data is answered; a correctable one is answered and read
again; an uncorrectable one is read again first, but for a paced read. A narrow write waits for the re-read (Table 09-3). -/
def State.firstRead (s : State) (n sub : Nat) (e : RdEntry) (err : CodeWord) (fault : PipeFault) : State :=
  let d := e.decode err
  let s := s.countCe n d
  let (lost, s) := s.decryptFault n e fault
  let e := { e with first := some d, nibbles := wrongNibbles (e.word ^^^ err) e.mask d }
  let again := fun (s : State) (answered : Bool) => s.updSub n sub fun b =>
    { b with rereads := b.rereads ++ [{ e with answered := answered }] }
  if d.sound then
    let s := if lost && !e.use.keepsLine then s.unitLost n e d.stored else s
    s.useRead n e d.stored (d.bad || (lost && e.use.isMerge)) false lost
  else if e.use.isMerge then again s false
  else if e.use.isPaced then again (s.useRead n e d.stored d.bad false lost) true
  else if d.correctable then again (s.useRead n e d.stored d.bad false lost) true
  else again s false

/-- Whether an issued read is dead (R180): a paced read takes part in one replay at most, and none is held through an escalation; its
share ends without data. -/
def State.deadRead (s : State) (n sub : Nat) (e : RdEntry) : Bool :=
  e.use.isPaced && (decide (e.tries ≥ 2) || (s.sub n sub).alert == .restore || (s.sub n sub).alert == .lowerRate)

/-- The oldest issued read of a subchannel that `p` takes. -/
def State.popInflight (s : State) (n sub : Nat) (p : RdEntry → Bool) : Option (RdEntry × State) :=
  match (s.sub n sub).inflight.find? p with
  | some e => some (e, s.updSub n sub fun b => { b with inflight := b.inflight.filter fun x => x.seq != e.seq })
  | none => none

/-- Whether a re-read rewrites its line as poison: a lasting uncorrectable or poisoned line, and the line of a paced read that met an
uncorrectable one, whatever a lasting re-read gives (R203). -/
def rereadPoison (e : RdEntry) (a : Decoded) (v : Verdict) : Bool := v.ue || v.bad || (e.use.isPaced && a.lost)

/-- The first narrow write of a line that waits for its re-read merged into the re-read's outcome (R214), unless an earlier write of the
line waits. -/
def State.mergeReread (s : State) (n l : Nat) (x : Line) (bad : Bool) : State :=
  let sub := l % 2
  match (s.sub n sub).rq.find? fun r => r.line == l with
  | some r =>
    if r.use.isMerge && !((s.sub n sub).wq.any fun w => w.line == l && decide (w.id < r.seq)) then
      let s := s.updSub n sub fun b => { b with rq := b.rq.filter fun y => y.seq != r.seq }
      State.serveQueued 64 (s.useRead n r x bad true false) n l
    else s
  | none => s

/-- The end of a re-read (R202): the fault is classified, the line served and rewritten as its verdict asks. It needs an entry
of the transient re-read reservation, which the oldest waiting re-reads hold, and its line's row. -/
def State.secondRead (s : State) (n sub : Nat) (err : CodeWord) (fault : PipeFault) : State :=
  match (s.sub n sub).rereads with
  | [] => s
  | e :: rest =>
    if s.claim.retry.get ((n * 2 + sub) * 256 + 0x41) == 0 || !s.accessFree n e.line then s
    else
      let s := s.updSub n sub fun b => { b with rereads := rest }
      let s := (s.access n e.line).countBlk n 0x30 1 none none
      let now := s.readWord n e
      let b := now.decode err
      let s := s.countCe n b
      let a := e.first.getD b
      let v := verdict a b
      let nib := if v.ue then 0 else if a.correctable then e.nibbles else wrongNibbles (now.word ^^^ err) now.mask b
      let who := s.readFor n e
      let owner := s.lineOwner n e.line
      let dom := match who, owner with
        | some w, _ => some w.1
        | none, some o => some o.1
        | none, none => none
      let dpa := match who, owner with
        | some w, _ => if e.use.isSector then none else some w.2.1
        | none, some o => if o.2.2.2 then some o.2.2.1 else none
        | none, none => none
      let loc := match who with
        | some w => w.2.1
        | none => dpa.getD e.line
      let sector := e.use.isSector || s.isSector n e.line
      let s := s.note n e.line dom loc dpa v nib (!(v.ue && v.cls == 2 && sector))
      let s := if v.cls == 2 && !e.use.isMerge && !(v.ue && sector) then s.rewrite n e.line v.bytes (rereadPoison e a v) else s
      let bad := v.bad || (v.ue && v.cls == 2)
      if e.answered then s.mergeReread n e.line v.bytes bad
      else
        let (lost, s) := s.decryptFault n e fault
        let s := if lost && !e.use.keepsLine then s.unitLost n e v.bytes else s
        let s := s.useRead n e v.bytes (bad || (lost && e.use.isMerge)) true lost
        if e.use.isMerge then State.serveQueued 64 s n e.line else s.mergeReread n e.line v.bytes bad

/-- The merge of the oldest narrow write whose line has been read (R204). -/
def State.mergeRead (s : State) (n sub : Nat) (err : CodeWord) (fault : PipeFault) : State :=
  match s.popInflight n sub fun e => e.use.isMerge with
  | none => s
  | some (e, s) => State.serveQueued 64 (s.firstRead n sub e err fault) n e.line

/-! ### A Failed channel (R179) -/

/-- The queued, issued and repeated reads of a Failed channel answered with poison, and its merges and writes dropped with
their lines recorded as uncorrectable. -/
def State.failChannel (s : State) (n : Nat) : State :=
  let s := s.wr (R.CH_CFG_STATE n) 6
  let s := s.log { type := 0x0204, sev := 3, level := 3, ukind := 2, unit := n }
  let rs := (s.sub n 0).reads ++ (s.sub n 1).reads
  let ws := (s.sub n 0).wq ++ (s.sub n 1).wq
  let s := [0, 1].foldl (fun s b => s.updSub n b fun q =>
    { q with rq := [], prq := [], inflight := [], rereads := [], wq := [], retry := [], implicated := [], alert := .none }) s
  let s := ws.foldl (fun s w =>
    let s := if w.credit == 0 then s else s.returnCredit (w.credit - 1) 1
    if w.raw then s else s.listPoison w.dom w.addr 0) s
  let s := (s.dram.chans.get n).merges.foldl (fun s m =>
    let s := if m.credit == 0 then s else s.returnCredit (m.credit - 1) 1
    s.listPoison m.dom m.addr 0) s
  let s := s.updChan n fun c => { c with merges := [], scrub := [], inj := none, extCopy := none, save := none }
  let s := (s.clr (R.CH_INJCTL_BUSY n)).clr (R.CH_MAINT_BUSY n)
  let s := rs.foldl (fun s e => if e.answered || e.use.isMerge then s else s.useRead n e 0 true false false) s
  s.floorSync

/-! ### The channel share (R232) -/

/-- The cause code of a late paced read (Table 10-17): the lowest that holds. -/
def State.lateCause (s : State) (n sub : Nat) (e : RdEntry) : Nat :=
  let c := s.coord n e.line
  let b := s.sub n sub
  let refreshing := b.retry.any fun x => match x with
    | .refresh r _ => r == c.rank
    | _ => false
  if refreshing then 1
  else if !(s.dram.banks.get (bankKey n sub c.rank c.bank)).mits.isEmpty then 2
  else if b.alert != .none then 3
  else if s.chanState n == 1 || s.chanState n == 6 then 4
  else if (b.prq ++ b.inflight).any fun x => x.use.isPaced && x.seq != e.seq then 5
  else 6

/-- The end of the oldest paced read's channel share without data: poison to those that wait for the line, PACE_LATE, and the
data discarded when it comes; that of a dead one never does. -/
def State.shareEnd (s : State) (n sub : Nat) : State :=
  let b := s.sub n sub
  let live := (b.inflight ++ b.prq).filter fun e => e.use.isPaced && decide (s.gtc ≥ e.at_ + 260) &&
    match e.use with
    | .paced t => ((s.tx t).map (·.phase)) == some .memory
    | _ => false
  match live with
  | [] => s
  | e :: _ =>
    match e.use with
    | .paced id =>
      let s := if s.deadRead n sub e then s.updSub n sub fun b => { b with inflight := b.inflight.filter fun x => x.seq != e.seq } else s
      match s.tx id with
      | none => s
      | some t =>
        let ns := min (s.gtc - t.req.tr.t0) (2 ^ 24 - 1)
        let s := s.log {
          type := 0x020E, sev := 3, level := 1, ukind := 2, unit := n, dom := t.req.dom, loc := t.req.addr,
          detail := BitVec.ofNat 128 (s.lateCause n sub e + 256 * ns) }
        let s := s.countBlk n 0x41 1 (some t.req.dom) (some t.req.entry.qclass)
        (s.pacedOn t).foldl (fun s u => s.answerTx u 0 true false) s
    | _ => s

end Sys2Proof.Machine
end

