-- ==== Sys2Proof/Machine/Channel.lean ====
section
/-!
DEFINITION. The channel controllers' work (chapter 08): command issue (R166 to R168), temperature (R171), alerts and replay (R176 to R180), training (R160 to R162, R181, R182).
-/
namespace Sys2Proof.Machine

/-! ### Issue (R166) -/

/-- Whether a read may be issued: after every earlier write, merge and injection of its line, and a narrow write's after its line's
re-read (R168, R212, R214). -/
def State.readFree (s : State) (n : Nat) (e : RdEntry) : Bool :=
  let b := s.sub n (e.line % 2)
  s.lineLegal n e.line && !(b.wq.any fun w => w.line == e.line && !w.issued && decide (w.id < e.seq)) &&
    !((s.dram.chans.get n).merges.any fun m => m.line == e.line && decide (m.id < e.seq) && e.use != .merge m.id) &&
    !s.injectsBefore n e.line e.seq && !(e.use.isMerge && b.rereads.any fun r => r.line == e.line)

/-- The demand read to issue: one past the age cap first, then row hits, then the oldest. -/
def State.pickDemand (s : State) (n sub : Nat) : Option RdEntry :=
  let q := ((s.sub n sub).rq.take (if s.servesPaced n then 32 else 48)).filter fun e => s.readFree n e
  match q.find? fun e => decide (s.gtc > e.at_ + 10 * s.rd (R.CH_SCHED_AGECAP n)) with
  | some e => some e
  | none =>
    match q.find? fun e => s.rowHit n e.line with
    | some e => some e
    | none => q.head?

/-- The paced read to issue: the oldest. -/
def State.pickPaced (s : State) (n sub : Nat) : Option RdEntry := ((s.sub n sub).prq.take 16).find? fun e => s.readFree n e

/-- The write to issue: the first that may go, of the background class or not. -/
def State.pickWrite (s : State) (n sub : Nat) (bg : Bool) : Option WrEntry :=
  (s.sub n sub).wq.find? fun e => e.bg == bg && s.writeFree n e && s.lineLegal n e.line

/-- The draining state brought up to the queues (R167): a write holds its entry until its command retires (R177). -/
def State.drainSync (s : State) (n sub : Nat) : State :=
  s.updSub n sub fun b =>
    let w := b.wq.length
    let reads := !b.rq.isEmpty || !b.prq.isEmpty
    let on := decide (w ≥ s.rd (R.CH_SCHED_HIWM n)) || (!reads && decide (w > 0))
    let off := decide (w ≤ s.rd (R.CH_SCHED_LOWM n)) && reads
    { b with draining := if on then true else if off then false else b.draining }

/-- The next command of a read issued; the read itself goes on its way with the word it meets. -/
def State.issueRead (s : State) (n sub : Nat) (e : RdEntry) : State :=
  let (ready, s) := s.openRow n sub e.line
  if !ready then s
  else
    let e := s.readWord n e
    let s := (s.useRow n e.line).countBlk n 0x30 1 none none
    let s := s.enterRetry n sub (.read e)
    s.updSub n sub fun b => { b with
      prq := b.prq.filter fun x => x.seq != e.seq, rq := b.rq.filter fun x => x.seq != e.seq, inflight := b.inflight ++ [e] }

/-- What a full-line write finds in its line: the line is classified under R202 and recorded (Table 09-3). Its reads meet nothing on the
way, and its poison is cleared by the write, so it joins no list. -/
def State.classifyOld (s : State) (n : Nat) (e : WrEntry) : State :=
  if !e.full then s
  else
    let a := s.decodeLine n e.line 0
    (s.countCe n a).note n e.line (some e.dom) e.addr none (verdict a a) (wrongNibbles (s.word n e.line) (s.maskOf n e.line) a) true

/-- A fault of the encryption of a write's data (R149): whether the unit is lost. -/
def State.encryptFault (s : State) (e : WrEntry) (fault : PipeFault) : Bool × State :=
  if e.enc then s.pipeFault (s.encryptPipe ((s.entry e.dom).slice e.addr)) R.ENG_XCTL_XEDIS fault else (false, s)

/-- A write whose unit is lost (R149): recorded, and stored as poison. -/
def State.writeLost (s : State) (n : Nat) (e : WrEntry) : WrEntry × State :=
  let v : Verdict := { cls := 2, ue := true, bytes := 0, bad := true, code := 5, errs := 0 }
  let s := s.note n e.line (some e.dom) e.addr (if e.raw then none else some e.addr) v 0 true
  ({ e with poison := true, enc := false, raw := true, data := if e.raw then e.data else s.sealLine e.dom e.enc e.tweak e.data }, s)

/-- The next command of a write issued; a lasting fault of its encryption leaves the line uncorrectable (R149). Its entry stays
until the command retires (R177). -/
def State.issueWrite (s : State) (n sub : Nat) (e : WrEntry) (fault : PipeFault) : State :=
  let (ready, s) := s.openRow n sub e.line
  if !ready then s
  else
    let (lost, s) := s.encryptFault e fault
    let (w, s) := if lost then s.writeLost n e else (e, s)
    let keep := fun (s : State) (w : WrEntry) => s.updSub n sub fun b => { b with wq := b.wq.map fun x => if x.id == e.id then w else x }
    if lost && s.poisonWaits n e.line then keep s w
    else
      let s := (s.classifyOld n e).performWrite n w
      let s := (s.useRow n e.line).countBlk n 0x31 1 none none
      let s := if e.bg then s.countBlk n 0x38 1 none none else s
      keep (s.enterRetry n sub (.write e.id)) { w with issued := true, credit := 0 }

/-- A rank that a refresh can be issued to, among those `p` takes. -/
def State.pickRefresh (s : State) (n sub : Nat) (p : Nat → Bool) : Option Nat :=
  (List.range (s.ranks n)).find? fun r => p (rankKey n sub r) && !s.refreshBarred n sub r

/-- One controller clock of a subchannel; 256 of them are a period of R166. -/
def State.tickClock (s : State) (n sub : Nat) : State :=
  s.updSub n sub fun b => { b with clock := b.clock + 1, bgUsed := if b.clock % 256 == 255 then 0 else b.bgUsed }

/-! ### The background class (class 7 of R166) -/

/-- Rewrites of a channel dropped to which a later write waits (R207). -/
def State.dropScrubs (s : State) (n : Nat) : State :=
  s.updChan n fun c => { c with scrub := c.scrub.filter fun e =>
    !((s.sub n (e.line % 2)).wq.any fun w => w.line == e.line) && !s.merging n e.line }

/-- The rewrite to issue in a subchannel: the oldest of those that hold an entry of the scrub write-back reservation (Table 01-7). -/
def State.pickScrub (s : State) (n sub : Nat) : Option WrEntry :=
  ((s.dram.chans.get n).scrub.take (s.claim.merge.get (n * 256 + 0x32))).find? fun e =>
    e.line % 2 == sub && s.writeFree n e && s.lineLegal n e.line

/-- A background access that waits: a write of the write queue, a rewrite, or a line of a retirement's copy. -/
inductive BgPick where
  | write (e : WrEntry)
  | scrub (e : WrEntry)
  | copy (x : ExtCopy) (l : Nat)
deriving DecidableEq, Repr

/-- The background access to issue. -/
def State.pickBg (s : State) (n sub : Nat) : Option BgPick :=
  match s.pickWrite n sub true, s.pickScrub n sub, s.pickCopy n sub with
  | some e, _, _ => some (.write e)
  | none, some e, _ => some (.scrub e)
  | none, none, some (x, l) => if s.lineLegal n l then some (.copy x l) else none
  | none, none, none => none

/-- The line of a background access. -/
def BgPick.line : BgPick → Nat
  | .write e | .scrub e => e.line
  | .copy _ l => l

/-- A rewrite issued: what it writes needs no encryption, and its entry is free at once. -/
def State.issueScrub (s : State) (n sub : Nat) (e : WrEntry) : State :=
  let s := s.performWrite n e
  let s := ((s.useRow n e.line).countBlk n 0x31 1 none none).countBlk n 0x38 1 none none
  (s.enterRetry n sub (.write e.id)).updChan n fun c => { c with scrub := c.scrub.filter fun x => x.id != e.id }

/-- The next command of a background access issued. -/
def State.issueBg (s : State) (n sub : Nat) (b : BgPick) (fault : PipeFault) : State :=
  match b with
  | .write e => s.issueWrite n sub e fault
  | .scrub e => let r := s.openRow n sub e.line; if r.1 then r.2.issueScrub n sub e else r.2
  | .copy x l => let r := s.openRow n sub l; if r.1 then r.2.copyLine n x l else r.2

/-- Whether classes 5 and 6 want the slot. -/
def State.wanted (s : State) (n sub : Nat) : Bool :=
  (s.pickDemand n sub).isSome || ((s.sub n sub).draining && (s.pickWrite n sub false).isSome)

/-- Whether the class's share of the present period is not used up. -/
def State.shareLeft (s : State) (n sub : Nat) : Bool := decide ((s.sub n sub).bgUsed < 16 * s.rd (R.CH_SCHED_BGSHARE n))

/-- A background access counted toward the share when another class wanted its slot. -/
def State.chargeBg (s : State) (n sub : Nat) : State :=
  if s.wanted n sub then s.updSub n sub fun b => { b with bgUsed := b.bgUsed + 1 } else s

/-! ### Classes -/

/-- Whether nothing may be issued in a subchannel: the channel does not serve, an alert sequence or an escalation of the channel is in
progress (R178, R179), or 40 commands are unretired (R177). -/
def State.blocked (s : State) (n sub : Nat) : Bool :=
  !s.chanServes n || (s.sub n sub).alert != .none || s.escalating n || (s.sub n sub).retry.length ≥ 40

/-- A rank whose postponed refreshes have reached the limit (R172). -/
def State.pickForced (s : State) (n sub : Nat) : Option Nat :=
  s.pickRefresh n sub fun k =>
    decide (0 < s.dram.refDue.get k) && decide (Config.refreshLimit (s.sameBank n) ≤ s.dram.refDue.get k)

/-- The bank whose row the open-page timeout closes, the bank whose mitigation goes, the bank that asks for refresh management. -/
def State.pickTimeout (s : State) (n sub : Nat) : Option (Nat × Nat × Bank) := s.pickBank n sub (s.timedOut n sub)
def State.pickMitigation (s : State) (n sub : Nat) : Option (Nat × Nat × Bank) := s.pickBank n sub fun b => !b.mits.isEmpty
def State.pickManagement (s : State) (n sub : Nat) : Option (Nat × Nat × Bank) :=
  s.pickBank n sub fun b => s.flag (R.CH_RHTHRESH_RFMEN n) && decide (managementDue ≤ b.raa)

/-- Whether classes 1 to 4 leave a subchannel's slot to the classes below. -/
def State.highIdle (s : State) (n sub : Nat) : Bool :=
  !s.blocked n sub && (s.pickTimeout n sub).isNone && (s.pickForced n sub).isNone && (s.pickMitigation n sub).isNone &&
    (s.pickManagement n sub).isNone && (s.pickPaced n sub).isNone

/-- Whether the background class may issue an access to a line now that is issued with the bank commands it needs: a patrol or audit
read. -/
def State.bgFree (s : State) (n l : Nat) : Bool :=
  s.highIdle n (l % 2) && (!s.wanted n (l % 2) || s.shareLeft n (l % 2)) && s.accessFree n l

/-- A background read issued with the bank commands it needs. -/
def State.bgRead (s : State) (n l : Nat) : State :=
  (((s.chargeBg n (l % 2)).access n l).countBlk n 0x30 1 none none).countBlk n 0x38 1 none none

/-- Refreshes below their postponement limit, and those pulled in, in a slot that no class wants (R172). -/
def State.issueIdle (s : State) (n sub : Nat) : State :=
  match s.pickRefresh n sub fun k => s.dram.refDue.get k > 0 with
  | some r => s.issueRefresh n sub r
  | none =>
    match s.pickRefresh n sub fun k => s.dram.refAhead.get k < Config.pullInLimit (s.sameBank n) with
    | some r => s.issueRefresh n sub r
    | none => s

/-- Classes 5 to 7 of R166, and the refreshes that go in slots no class wants (R172). -/
def State.issueLow (s : State) (n sub : Nat) (fault : PipeFault) : State :=
  let rd := s.pickDemand n sub
  let wr := if (s.sub n sub).draining then s.pickWrite n sub false else none
  match s.pickBg n sub, rd, wr with
  | none, none, none => s.issueIdle n sub
  | none, some r, _ => s.issueRead n sub r
  | none, none, some w => s.issueWrite n sub w fault
  | some b, rd, wr =>
    if !s.wanted n sub || s.shareLeft n sub then
      let s := if (s.openRow n sub b.line).1 then s.chargeBg n sub else s
      s.issueBg n sub b fault
    else
      match rd, wr with
      | some r, _ => s.issueRead n sub r
      | none, some w => s.issueWrite n sub w fault
      | none, none => s

/-- Classes 2 to 7 of R166. The spec gives no class to the precharge of an open-page timeout and to refresh management: the first goes
before class 2, one a clock, and the second with the mitigations of class 3 (DESIGN CHOICE, assumption 112). -/
def State.issueNext (s : State) (n sub : Nat) (fault : PipeFault) : State :=
  match s.pickTimeout n sub, s.pickForced n sub, s.pickMitigation n sub, s.pickManagement n sub, s.pickPaced n sub with
  | some (r, b, _), _, _, _, _ =>
    (s.updBank n sub r b fun x => { x with row := none }).enterRetry n sub (.precharge (r * 32 + b))
  | none, some r, _, _, _ => s.issueRefresh n sub r
  | none, none, some (r, b, x), _, _ => s.issueMitigation n sub r b (x.mits.headD 0)
  | none, none, none, some (r, b, _), _ => s.issueManagement n sub r b
  | none, none, none, none, some e => s.issueRead n sub e
  | none, none, none, none, none => s.issueLow n sub fault

/-- One controller clock of a subchannel's scheduler (R166). -/
def State.issue (s : State) (n sub : Nat) (fault : PipeFault) : State :=
  let s := s.tickClock n sub
  if s.blocked n sub then s else ((s.drainSync n sub).dropScrubs n).issueNext n sub fault

/-! ### Rates and temperature (R170, R171) -/

/-- `RATE2X` and `THROTTLE` brought up to their inputs; a change of throttle moves FLOOR (R223). -/
def State.rateSync (s : State) (n : Nat) : State :=
  let c := s.dram.chans.get n
  let calls := c.mr4Rate ≥ 1 || c.tsFails ≥ 3
  let warm := c.warm || calls
  let warm := if warm && c.coolPolls ≥ 2 && !calls then false else warm
  let s := s.updChan n fun c => { c with warm := warm }
  let s := s.wr (R.CH_REFSTAT_RATE2X n) (b2n (warm || s.flag (R.CH_REFCTL_FORCE2X n)))
  let old := s.flag (R.CH_REFSTAT_THROTTLE n)
  let thr := c.mr4Rate == 2 || c.hotNow || (old && c.hotPolls < 2)
  let s := s.wr (R.CH_REFSTAT_THROTTLE n) (b2n thr)
  if thr != old then s.floorSync else s

/-- What a reading above `HOTLIM`, or a report above 2×, adds (Table 08-3): `HOT`, and DIMM_HOT where the excess is new. -/
def State.hot (s : State) (n : Nat) (now before : Bool) : State :=
  if !now then s
  else
    let s := s.set1 (R.CH_REFSTAT_HOT n)
    if before then s
    else
      let s := s.log { type := 0x020B, level := 1, ukind := 2, unit := n }
      s.event 0x11 (n + 256 * (Config.eventKind 0x020B % 256))

/-- Whether the last poll or report of a channel was in excess. -/
def Chan.excess (c : Chan) : Bool := c.hotNow || c.mr4Rate == 2

/-- MR4 reports taken (R170). -/
def State.mr4 (s : State) (n : Nat) (r : RefreshReport) : State :=
  if !s.chanServes n then s
  else
    let v := match r with
      | .normal => 0
      | .double => 1
      | .beyond => 2
    let before := (s.dram.chans.get n).excess
    let s := s.updChan n fun c => { c with mr4Rate := v, hotPolls := if v == 2 then 0 else c.hotPolls }
    (s.hot n (v == 2) before).rateSync n

/-- A thermal poll (R170, R171): the highest reading of the channel's sensors, or a failed read. -/
def State.thermal (s : State) (n : Nat) (reading : Option (BitVec 8)) : State :=
  let timer := [3, 4, 5, 6, 7].any fun t => s.claim.aot.get t == 0x10
  if !s.chanServes n || !timer then s
  else
    match reading with
    | none =>
      let s := s.wr (R.CH_REFSTAT_TEMP n) 0xFF
      let s := s.updChan n fun c => { c with tsFails := c.tsFails + 1, coolPolls := 0, hotPolls := 0, hotNow := false }
      let s := if (s.dram.chans.get n).tsFails == 3 then
          let s := s.set1 (R.CH_REFSTAT_TSFAIL n)
          let s := s.log { type := 0x0206, sev := 2, level := 1, ukind := 2, unit := n }
          s.event 0x11 (n + 256 * (Config.eventKind 0x0206 % 256))
        else s
      s.rateSync n
    | some t =>
      let t := t.toNat
      let lim := s.rd (R.CH_REFCTL_HOTLIM n)
      let before := (s.dram.chans.get n).excess
      let s := s.wr (R.CH_REFSTAT_TEMP n) t
      let s := s.updChan n fun c => { c with
        tsFails := 0, warm := c.warm || decide (t > 85), hotNow := decide (t > lim),
        coolPolls := if t ≤ 83 then c.coolPolls + 1 else 0, hotPolls := if t + 2 ≤ lim then c.hotPolls + 1 else 0 }
      (s.hot n (decide (t > lim)) before).rateSync n

/-! ### Alerts and replay (R176 to R180) -/

/-- The next lower rate of a channel's row of Table 08-1, if any, in units of 100 MT/s. -/
def State.lowerRate (s : State) (n : Nat) : Option Nat :=
  let row := if s.rd (R.CH_CFG_TYPE n) == 2 then [88, 128] else [48, 56, 64, 72, 80, 88]
  (row.filter fun r => decide (r < s.rd (R.CH_CFG_RATE n))).getLast?

/-- A retirement that waited for an escalation's result made now (R189): recorded when a threshold asked for it and it fails. -/
def State.afterEscalation (s : State) (n : Nat) : State :=
  match (s.dram.chans.get n).retireWait with
  | some t =>
    let s := s.updChan n fun c => { c with retireWait := none }
    if t == 0 then
      let (st, s) := s.retire n
      s.wr (R.CH_MAINT_STATUS n) st
    else (s.retireFor n t).2
  | none => s

/-- The escalation's second step entered, or its third where the channel has no lower rate. -/
def State.escalateRate (s : State) (n sub : Nat) : State :=
  if (s.lowerRate n).isSome then s.updSub n sub fun b => { b with alert := .lowerRate }
  else (s.failChannel n).afterEscalation n

/-- The row of a line closed by a repeated access under `PAGEPOL` 1. -/
def State.closePage (s : State) (n l : Nat) : State :=
  let c := s.coord n l
  if s.flag (R.CH_CTL_PAGEPOL n) then s.updBank n c.sub c.rank c.bank fun b => { b with row := none } else s

/-- A read issued again: it meets the line as it is now. A paced read takes part in one replay (R180). -/
def State.replayRead (s : State) (n sub : Nat) (e : RdEntry) : State :=
  let again := fun (x : RdEntry) =>
    let x := { x with tries := x.tries + 1 }
    if x.use.isPaced && x.tries ≥ 2 then x else s.readWord n x
  (s.updSub n sub fun b => { b with inflight := b.inflight.map fun x => if x.seq == e.seq then again x else x }).closePage n e.line

/-- One implicated command issued again (R178): an activate is counted again, a mitigation's activates too; a refresh counts once. A
write's data stand in DRAM already, and a row repair's sequence is the modules' own. -/
def State.replayCmd (s : State) (n sub : Nat) (c : DramCmd) : State :=
  let close := fun (b : Nat) => s.updBank n sub (b / 32) (b % 32) fun x => { x with row := none }
  match c with
  | .activate b row => s.activate n { sub := sub, rank := b / 32, bank := b % 32, row := row }
  | .precharge b | .manage b => close b
  | .read e => s.replayRead n sub e
  | .write id =>
    match (s.sub n sub).wq.find? fun w => w.id == id with
    | some w => s.closePage n w.line
    | none => s
  | .refresh r b => s.refreshBanks n sub r b
  | .mitigate b row => s.refreshRows n sub (b / 32) (b % 32) row
  | .repair _ _ => s

/-- A replay: the subchannel's banks are closed and every implicated command is issued again in order. -/
def State.replay (s : State) (n sub : Nat) : State :=
  let banks := s.dram.banks.cells.map fun c => if c.1 / 512 == n * 2 + sub then (c.1, { c.2 with row := none }) else c
  let s : State := banks.foldl (fun s c => { s with dram := { s.dram with banks := s.dram.banks.put c.1 c.2 } }) s
  let s := (s.sub n sub).implicated.foldl (fun s c => s.replayCmd n sub c) s
  let s := s.updSub n sub fun b => { b with replays := b.replays + 1 }
  s.countBlk n 0x3A 1 none none

/-- An assertion of ALERT_N (R176 to R179), by its cause. -/
def State.alert (s : State) (n sub : Nat) (crc : Bool) : State :=
  if !s.chanServes n then s
  else
    let s := s.set1 (if crc then R.CH_ALERTSTAT_WRCRC n else R.CH_ALERTSTAT_CAPAR n)
    let b := s.sub n sub
    match b.alert with
    | .none => s.updSub n sub fun b => { b with alert := .stopped, implicated := b.retry, replays := 0 }
    | .stopped => s
    | .replay =>
      if b.replays ≥ 3 then
        (s.updSub n sub fun b => { b with alert := .restore, replays := 3 }).set1 (R.CH_ALERTSTAT_ESCAL n)
      else s.updSub n sub fun b => { b with alert := .stopped }
    | .restore => (s.updSub n sub fun b => { b with replays := 3 }).escalateRate n sub
    | .lowerRate => (s.failChannel n).afterEscalation n

/-- The deassertion of ALERT_N: recovery and a replay. -/
def State.alertOver (s : State) (n sub : Nat) : State :=
  if (s.sub n sub).alert == .stopped then (s.replay n sub).updSub n sub fun b => { b with alert := .replay } else s

/-- A recovery recorded and counted (R179, R384). -/
def State.recovered (s : State) (n sub : Nat) (lasting : Bool) : State :=
  let s := s.satAdd (if lasting then R.CH_ALERTSTAT_LASTING n else R.CH_ALERTSTAT_TRANSIENT n) 1
  let s := s.log {
    type := 0x0203, sev := if lasting then 2 else 1, cls := if lasting then 2 else 1, level := 1, ukind := 2, unit := n,
    detail := dramDetail { sub := sub, rank := 0, bank := 0, row := 0 } 0 0 0 }
  if !lasting then s
  else
    let keep := s.dram.alerts.filter fun a => decide (s.gtc ≤ a.1 + hour)
    let s : State := { s with dram := { s.dram with alerts := (s.gtc, n) :: keep } }
    if ((s.dram.alerts.filter fun a => a.2 == n)).length ≥ 8 then s.retireOn n 0x0203 else s

/-- The retry entries of a subchannel retired, the writes they carried released (R177). -/
def State.retireAll (s : State) (n sub : Nat) : State :=
  s.updSub n sub fun b => { b with
    wq := b.wq.filter fun w => !w.issued, retry := [], implicated := [], alert := .none, replays := 0 }

/-- 32 clocks after a replay without an alert: the sequence ends (R178, R179). -/
def State.replayOver (s : State) (n sub : Nat) : State :=
  let b := s.sub n sub
  let done := b.alert == .replay || (b.alert == .restore && b.replays == 4) || (b.alert == .lowerRate && b.replays == 4)
  if !done then s
  else
    let lasting := b.alert != .replay || b.replays ≥ 2
    let s := s.retireAll n sub
    (s.recovered n sub lasting).afterEscalation n

/-- Step 1 of the escalation ended: a replay, or step 2. -/
def State.restoreOver (s : State) (n sub : Nat) (pass : Bool) : State :=
  let b := s.sub n sub
  if b.alert != .restore || b.replays != 3 then s
  else if pass then s.replay n sub
  else s.escalateRate n sub

/-- The rate and the values that a training has found (R181): which values is the modules' affair, and a number drawn stands for
them. -/
def State.newValues (s : State) (n rate : Nat) : State :=
  let (v, s) := s.fresh
  (s.wr (R.CH_CFG_RATE n) rate).updChan n fun c => { c with rate := rate, values := v }

/-- Step 2 ended: a replay at the lower rate, or the channel enters Failed (R179). -/
def State.lowerOver (s : State) (n sub : Nat) (pass : Bool) : State :=
  let b := s.sub n sub
  if b.alert != .lowerRate || b.replays != 3 then s
  else
    match pass, s.lowerRate n with
    | true, some r => ((s.newValues n r).floorSync).replay n sub
    | _, _ => (s.failChannel n).afterEscalation n

/-! ### Training (R160 to R162, R181, R182) -/

/-- Whether the modules of a channel break a rule of R161: its number, or 0. Where several are broken, the spec does not say which one
`REJECT` names: the lowest-numbered (DESIGN CHOICE, assumption 113). -/
def badPopulation (p : Spd) : Nat :=
  let ms := p.slot0.toList ++ p.slot1.toList
  let bad := fun (f : DimmModule → Bool) => ms.any fun m => !f m
  let per := ms.length
  if bad fun m => (m.rdimm != m.mrdimm) && m.twoSub && m.devices == (if m.x8 then 5 else 10) then 1
  else if bad fun m => [16, 24, 32, 48, 64].contains m.density then 2
  else if p.slot0.isNone && p.slot1.isSome then 3
  else if (ms.any fun m => m.mrdimm) && per > 1 then 4
  else if (match p.slot0, p.slot1 with
    | some a, some b => a.mrdimm != b.mrdimm || a.x8 != b.x8 || a.density != b.density || a.ranks != b.ranks
    | _, _ => false) then 5
  else if !([1, 2, 4, 8, 16].contains (ms.foldl (fun a m => a + m.ranks) 0)) || bad fun m => decide (m.gib ≤ 512) then 6
  else if bad fun m => m.crcOk then 7
  else 0

/-- The rates of a channel's row of Table 08-1, rising. -/
def rowRates (mr two : Bool) : List Nat := if mr then [88, 128] else if two then [48, 56, 64] else [48, 56, 64, 72, 80, 88]

/-- The rate a population trains at (R160): the highest of its row that every module supports and `MAXRATE` allows; the
lowest of the row under a lower cap. -/
def trainRate (p : Spd) (cap : Nat) : Nat :=
  let ms := p.slot0.toList ++ p.slot1.toList
  let row := rowRates (ms.any fun m => m.mrdimm) (decide (ms.length ≥ 2))
  let ok := row.filter fun r => ms.all fun m => m.rates.contains r
  let low := row.headD 48
  ((ok.filter fun r => cap == 0 || decide (r ≤ cap)).getLast?).getD low

/-- The population's fields of `CHn_CFG`, but for the rate. -/
def State.setPopulation (s : State) (n : Nat) (p : Spd) : State :=
  match p.slot0 with
  | none => s
  | some m =>
    let ms := p.slot0.toList ++ p.slot1.toList
    let s := (s.wr (R.CH_CFG_TYPE n) (if m.mrdimm then 2 else 1)).wr (R.CH_CFG_DPC n) (b2n p.slot1.isSome)
    let s := (s.wr (R.CH_CFG_WIDTH n) (b2n m.x8)).wr (R.CH_CFG_DENS n) (([16, 24, 32, 48, 64].findIdx? (· == m.density)).getD 0)
    s.wr (R.CH_CFG_RANKS n) (ms.foldl (fun a m => a + m.ranks) 0 - 1)

/-- The spare rows that hard repairs have used up are of the modules they were made in: others have all of theirs. -/
def State.ownSpares (s : State) (n ident : Nat) : State :=
  s.updChan n fun c => if c.spareOf == some ident then c else { c with spareOf := some ident, spares := Tab.empty, softRows := [] }

/-- Hard repair of the listed rows (R183): a row whose bank group has no spare fails with PPR_EXHAUSTED and stays in service. A row on a
spare row by a soft repair stays on it for good. -/
def State.hardRepair (s : State) (n : Nat) : State :=
  let rows := (s.dram.chans.get n).repairs
  let s := s.updChan n fun c => { c with repairs := [] }
  rows.foldl (fun s r =>
    let c := coordOfRow r
    if s.hasSpare n c then s.updChan n fun h =>
      { h with spares := h.spares.upd c.group (· + 1), softRows := h.softRows.filter (· != r) }
    else s.exhausted n c) s

/-- Directed refresh management found or missing at training (R175). -/
def State.setDrfm (s : State) (n : Nat) (p : Spd) : State :=
  let all := (p.slot0.toList ++ p.slot1.toList).all fun m => m.drfm
  let has := fun (m : Option DimmModule) => m.any fun m => m.drfm
  let s := s.updChan n fun c => { c with drfm := (Tab.empty.put 0 (has p.slot0)).put 1 (has p.slot1) }
  let s := s.wr (R.CH_RHTHRESH_DRFM n) (b2n all)
  if all || (s.dram.chans.get n).nodrfm then s
  else (s.updChan n fun c => { c with nodrfm := true }).log { type := 0x020D, level := 1, ukind := 2, unit := n }

/-- The tables of a channel that training clears (step 8 of Table 08-5). -/
def State.clearBanks (s : State) (n : Nat) : State :=
  let s : State := { s with dram := { s.dram with banks := s.dram.banks.drop fun k => k / 1024 == n } }
  let s := s.clr (R.CH_RHSTAT_MAXF n)
  s.updChan n fun c => { c with threshNow := s.rd (R.CH_RHTHRESH_THRESH n) }

/-- A channel that leaves Training takes a state: a retired one stays Retired (R187). -/
def State.leaveTraining (s : State) (n st : Nat) : State :=
  (s.wr (R.CH_CFG_STATE n) (if (s.dram.chans.get n).retired then 5 else st)).floorSync

/-- A channel whose training has ended well: a marked one is Degraded, another Serves. -/
def State.enterService (s : State) (n : Nat) : State :=
  let marked := (List.range 32).any fun k => s.rd (R.CH_MARK_MASK n k) != 0
  (s.eccSync n).leaveTraining n (if marked then 3 else 2)

/-- The rate and training values held for modules of an SPD identity: those on the always-on island, or the log's record. -/
def State.stored (s : State) (n ident : Nat) : Option (Nat × Nat) :=
  let c := s.dram.chans.get n
  if c.ident == some ident then some (c.rate, c.values)
  else
    match s.peat.trn.get n with
    | some t => if t.ident == ident then some (t.rate, t.values) else none
    | none => none

/-- A mask of a rank cleared, and the change recorded (R201). -/
def State.dropMark (s : State) (n k : Nat) : State :=
  if s.rd (R.CH_MARK_MASK n k) == 0 then s.clr (R.CH_MARK_SRC n k)
  else
    let at_ : Coord := { sub := k / 16, rank := k % 16, bank := 0, row := 0 }
    ((s.clr (R.CH_MARK_MASK n k)).clr (R.CH_MARK_SRC n k)).log
      { type := 0x0208, sev := 2, level := 2, ukind := 2, unit := n, detail := dramDetail at_ 0 0 0 }

/-- The marks of a channel whose SPD identity matches the stored one are kept; another starts with none (R201). -/
def State.keepMarks (s : State) (n ident : Nat) : State :=
  if (s.stored n ident).isSome then s else (List.range 32).foldl (fun s k => s.dropMark n k) s

/-- What full training and a restore end with, for modules whose rate and values are in force: population, tables, repairs. -/
def State.bringUp (s : State) (n : Nat) (p : Spd) : State :=
  let s := ((((s.setPopulation n p).setDrfm n p).clearBanks n).ownSpares n p.identity).hardRepair n
  s.updChan n fun c => { c with ident := some p.identity }

/-- Full training ended (R181, Table 08-5): a population that breaks R161 is Rejected (R162); an empty channel is Unpopulated;
a training that fails leaves the channel Failed. -/
def State.trained (s : State) (n : Nat) (p : Spd) (pass : Bool) : State :=
  if s.chanState n != 1 then s
  else if p.slot0.isNone && p.slot1.isNone then s.leaveTraining n 0
  else
    let r := badPopulation p
    if r != 0 then
      let s := (s.leaveTraining n 7).wr (R.CH_CFG_REJECT n) r
      s.log { type := 0x0205, sev := 2, level := 1, ukind := 2, unit := n, detail := BitVec.ofNat 128 r }
    else if !pass then (if (s.dram.chans.get n).retired then s.leaveTraining n 5 else s.failChannel n)
    else
      let s := (s.keepMarks n p.identity).newValues n (trainRate p (s.rd (R.CH_CTL_MAXRATE n)))
      ((s.bringUp n p).set1 ((R.CHIP_BOOTSTAT_TRNFULL).bitAt n)).enterService n

/-- A restore ended (R182, Table 08-6): the stored rate and values are loaded. With an identity that does not match, or eyes that fail,
the channel stays in Training, for full training. -/
def State.restored (s : State) (n : Nat) (p : Spd) (pass : Bool) : State :=
  match s.stored n p.identity with
  | some v =>
    if s.chanState n != 1 || !pass then s
    else
      let s := (s.wr (R.CH_CFG_RATE n) v.1).updChan n fun c => { c with rate := v.1, values := v.2 }
      (s.bringUp n p).enterService n
  | none => s

end Sys2Proof.Machine
end

