-- ==== Sys2Proof/Machine/Scrub.lean ====
section
/-!
DEFINITION. The scrubbers' reads (R202, R207), the patrol scrubber (R205, R206, R208), and error injection (R211, R212).
-/
namespace Sys2Proof.Machine

/-! ### A line read in the background -/

/-- What a read of a line ordered now, with an error pattern met on the way, decodes to. -/
def State.readNow (s : State) (n l : Nat) (err : CodeWord) : Decoded :=
  (s.readWord n { line := l, use := .demand 0, at_ := 0, seq := 0 }).decode err

/-- Whether a read of a line finds a write of it that waits, and is answered from that (R168). -/
def State.inQueue (s : State) (n l : Nat) : Bool := (s.queuedWrite n l).isSome || s.merging n l

/-- A stored line read and checked by patrol or an audit, and its outcome handled and rewritten (R202, R207). `err` and
`again` are the symbols disturbed on the read and on its re-read. -/
def State.checkLine (s : State) (n l : Nat) (err again : CodeWord) : Verdict × State :=
  let s := s.bgRead n l
  let w := s.word n l
  let m := s.maskOf n l
  let a := s.readNow n l err
  let b := if a.sound then a else s.readNow n l again
  let v := verdict a b
  let nib := if v.ue then 0 else if a.correctable then wrongNibbles (w ^^^ err) m a else wrongNibbles (w ^^^ again) m b
  let sector := s.isSector n l
  let s := s.handleLine n l a b nib
  (v, if v.cls == 2 && !(v.ue && sector) then s.rewrite n l v.bytes (v.ue || v.bad) else s)

/-! ### Patrol (R205 to R208) -/

/-- The next line patrol visits, from `l`: it skips audit-only extents. -/
def State.patrolNext (s : State) (n : Nat) : Nat → Nat → Option Nat
  | 0, _ => none
  | f + 1, l =>
    if l ≥ s.chanLines n then none
    else if (s.ext n (l / 32768)).auditOnly then s.patrolNext n f ((l / 32768 + 1) * 32768)
    else some l

/-- The line that patrol visits next. -/
def State.patrolAt (s : State) (n : Nat) : Option Nat := s.patrolNext n (s.chanExtents n + 1) (s.dram.chans.get n).patrol.line

/-- The lines that a pass begun now visits: those of the channel that lie in no audit-only extent (R206). -/
def State.patrolVisits (s : State) (n : Nat) : Nat :=
  s.chanLines n - 32768 * ((keysIn s.tier.extents (extKey n 0) (extKey (n + 1) 0)).filter fun k => (s.tier.extents.get k).auditOnly).length

/-- The time of a pass, in GTC ticks. -/
def State.patrolPeriod (s : State) (n : Nat) : Nat := s.rd (R.CH_ECCCTL_PERIOD n) * hour

/-- A pass begun, unless one is in progress: its first line is due now. -/
def State.beginPass (s : State) (n : Nat) : State :=
  if s.flag (R.CH_PATROLSTAT_RUN n) then s
  else
    let v := s.patrolVisits n
    (s.set1 (R.CH_PATROLSTAT_RUN n)).updChan n fun c => { c with patrol := { c.patrol with visits := v, due := s.gtc * v } }

/-- A line visited: the next is due one interval later. -/
def State.passLine (s : State) (n l : Nat) : State :=
  s.updChan n fun c => { c with patrol := { c.patrol with line := l + 1, due := c.patrol.due + s.patrolPeriod n } }

/-- The pass's progress shown, or its end. -/
def State.passEnd (s : State) (n : Nat) : State :=
  if (s.patrolAt n).isNone then
    let s := (s.updChan n fun c => { c with patrol := { c.patrol with line := 0 } }).clr (R.CH_PATROLSTAT_RUN n)
    let s := (s.satAdd (R.CH_PATROLSTAT_PASSES n) 1).clr (R.CH_PATROLSTAT_PROG n)
    s.wr (R.CH_PASSGTC_GTCHI n) (s.gtc / 2 ^ 32 % 2 ^ 32)
  else s.wr (R.CH_PATROLSTAT_PROG n) ((s.dram.chans.get n).patrol.line * 1024 / s.chanLines n)

/-- Whether patrol is paused for a power state, or behind by more than 1 % of its pass (R208). -/
def State.patrolPaused (s : State) (n : Nat) : Bool :=
  let p := (s.dram.chans.get n).patrol
  s.flag (R.CH_ECCCTL_PATROLEN n) && (decide (s.rd R.PS_STAT_STATE ≥ 2) ||
    (s.flag (R.CH_PATROLSTAT_RUN n) && decide (s.gtc * p.visits > p.due + s.patrolPeriod n * p.visits / 100)))

/-- A patrol read: the line read, what it shows handled, and the pass's progress (R206, R207). It waits for a slot of the background
class, and where it will have to be read again for an entry of the transient re-read reservation (R202). -/
def State.patrol (s : State) (n : Nat) (err again : CodeWord) : State :=
  if !s.flag (R.CH_ECCCTL_PATROLEN n) || !s.chanServes n || !s.serving || s.chanLines n == 0 then s
  else
    match s.patrolAt n with
    | none => (s.beginPass n).passEnd n
    | some l =>
      if s.inQueue n l then (((s.beginPass n)).passLine n l).passEnd n
      else if !s.bgFree n l || !((s.readNow n l err).sound || s.rereadFree n (l % 2)) then s
      else ((((s.beginPass n).checkLine n l err again).2).passLine n l).passEnd n

/-! ### Error injection (R211, R212) -/

/-- The line that the injection registers name. -/
def State.injLine (s : State) (n : Nat) : Nat := s.rd (R.CH_INJADDRLO_LINELO n) + 2 ^ 32 * s.rd (R.CH_INJADDRHI_LINEHI n)

/-- The code word that the injection registers hold. -/
def State.injWord (s : State) (n : Nat) : CodeWord :=
  BitVec.ofNat 640 ((List.range 4).foldl (fun a k => a + s.rd (R.CH_INJCHK_BYTES n k) * 2 ^ (32 * k)) 0 +
    (List.range 16).foldl (fun a k => a + s.rd (R.CH_INJDATA_BYTES n k) * 2 ^ (128 + 32 * k)) 0)

/-- The injection registers loaded with a code word. -/
def State.setInj (s : State) (n : Nat) (w : CodeWord) : State :=
  let s := (List.range 4).foldl (fun s k => s.wr (R.CH_INJCHK_BYTES n k) (fld w (32 * k + 31) (32 * k))) s
  (List.range 16).foldl (fun s k => s.wr (R.CH_INJDATA_BYTES n k) (fld w (128 + 32 * k + 31) (128 + 32 * k))) s

/-- Whether `GO` of the injection register acts: injection enabled, the line populated. -/
def State.mayInject (s : State) (n : Nat) : Bool :=
  s.flag (R.CH_INJCTL_INJEN n) && !s.flag (R.CH_INJCTL_BUSY n) && decide (s.injLine n < s.chanLines n)

/-- The decode a raw read reports (Table 09-9); the poison list is not consulted. -/
def State.injReport (s : State) (n l : Nat) (w : CodeWord) : State :=
  let d := lineDecode w (s.maskOf n l) (s.rd (R.CH_ECCCTL_TLIM n))
  (s.wr (R.CH_INJCTL_RESULT n) d.code).wr (R.CH_INJCTL_ERRS n) d.errs

/-- An injection operation performed: 0 a raw write, 1 a raw read, 2 a flip (R211). -/
def State.performInjection (s : State) (n : Nat) (j : Injection) : State :=
  let w := s.word n j.line
  let s := (s.updChan n fun c => { c with inj := none }).clr (R.CH_INJCTL_BUSY n)
  let s := s.access n j.line
  match j.op with
  | 0 => s.placeWord n j.line j.word
  | 1 => (s.setInj n w).injReport n j.line w
  | _ => (s.placeWord n j.line (w ^^^ j.word)).injReport n j.line w

/-- An injection operation brought on (R212): once no write to its line is queued it takes its place in the order of accesses to the
line, and is performed after the reads that came before it. -/
def State.settleInject (s : State) (n : Nat) : State :=
  match (s.dram.chans.get n).inj with
  | none => s
  | some j =>
    let waits := s.writesWait n (· == j.line) || s.merging n j.line
    let id := j.at_.getD s.dram.nextId
    let s : State := if j.at_.isSome || waits then s
      else ({ s with dram := { s.dram with nextId := id + 1 } } : State).updChan n fun c => { c with inj := some { j with at_ := some id } }
    let before := (s.sub n (j.line % 2)).reads.any fun r => r.line == j.line && decide (r.seq < id)
    if (j.at_.isNone && waits) || before || !s.accessFree n j.line then s else s.performInjection n j

/-- `GO` of the injection register with an operation (R211): the registers' line and word are taken. -/
def State.startInject (s : State) (n op : Nat) : State :=
  if !s.mayInject n then s
  else
    ((s.updChan n fun c => { c with inj := some { op := op, line := s.injLine n, word := s.injWord n, at_ := none } }).set1
      (R.CH_INJCTL_BUSY n)).settleInject n

/-- `INJEN` written (R211): enabling claims its merge entries, disabling releases them; a denied claim leaves it at 0. -/
def State.setInjEnable (s : State) (n ent : Nat) (on : Bool) : State :=
  let s := s.wr (R.CH_INJCTL_ENT n) ent
  if on then
    let r := s.claimOne { on := .merge n, feature := 0x31, n := ent + 1 }
    r.2.wr (R.CH_INJCTL_INJEN n) (b2n r.1)
  else (s.claimStep [{ on := .merge n, feature := 0x31 }] []).2.clr (R.CH_INJCTL_INJEN n)

end Sys2Proof.Machine
end

