-- ==== Sys2Proof/Machine/Migration.lean ====
section
/-!
DEFINITION. The later steps of a migration (steps 5 to 9 of Table 05-4), heat epochs, sweeps and resync passes (R107 to R109),
and compaction (R114).
-/
namespace Sys2Proof.Machine

/-! ### Steps 5 and 6 -/

/-- Whether a home still works on a granule, so that it cannot grant the hold of step 5 yet: a fill, a compressor's work, a request
or returned data, a narrow write that is not merged. A block that only its page's promotion waits for holds nothing up (R139). -/
def State.granuleBusy (s : State) (m : Mig) (g : Nat) : Bool :=
  (s.kind.fills.any fun f => f.granule == g && !(f.dirty && s.blockKept g)) || s.blockSent g ||
    s.granuleMerging m.entry (s.page m.page) g ||
    s.coh.txs.any fun t => t.line / 1024 == g && t.phase != .backing &&
      (t.purpose == .serve || t.purpose == .absorb || t.purpose == .mirIn)

/-- The second copies of a promotion or of a frame's relocation, as far as their writes find places. -/
def State.recopyLines (s : State) (m : Mig) : State :=
  (bitsOf 4 m.redo).foldl (fun s g =>
    if s.copyFree m g then (s.copyOne m g).updMig m.id fun x => { x with redo := x.redo &&& ~~~(BitVec.ofNat 4 (2 ^ g)) } else s) s

/-- The second copy of a slot's relocation, made whole: into a new slot when its size has changed. It ends when the page has nothing
stored any more. -/
def State.recopySlot (s : State) (m : Mig) : State :=
  let p := s.page m.page
  let n := p.sectors
  let k := (n + 7) / 8
  let put := fun (s : State) (m : Mig) =>
    if s.roomFor (slotLines m.dchan m.dest n) then
      some ([0, 1, 2, 3].foldl (fun s g => s.copyRelocate m g) (s.updMig m.id fun _ => { m with redo := 0 }))
    else none
  if p.state != 2 || p.slot == 0 then s.migEnd m 0
  else if k == m.dslot then (put s m).getD s
  else
    match s.allocSlot m.entry k m.channels with
    | none => s.migEnd m 0x06
    | some (c, q, t) => (put (t.freeSlot m.dchan m.dest) { m with dchan := c, dest := q, dslot := k }).getD s

/-- The blocks of a demotion with those whose redo bit is set compressed again; none where one is incompressible. -/
def State.recompress (s : State) (m : Mig) : Option (List (Nat × Stored)) :=
  (bitsOf 4 m.redo).foldl (fun acc g =>
    match acc with
    | none => none
    | some bs =>
      let gr := m.dpa / 1024 + g
      let (b, bad) := s.granuleNow m.dom m.entry gr
      let j : CzJob := { dom := m.dom, entry := m.entry, granule := gr, data := b, poison := bad, mig := some m.id, first := none }
      (s.compressBlock j).map fun x => bs.filter (·.1 != g) ++ [(g, x)]) (some m.blocks)

/-- The second copies of a demotion: rewritten in its slot, or in another when they take one of another size (R105). -/
def State.recopyDemote (s : State) (m : Mig) : State :=
  if s.sourceUe m.entry (s.page m.page) m.dpa then s.migEnd m 0x66
  else if s.noEncrypt m.entry.encrypt then s
  else
    match s.recompress m with
    | none => s.migEnd m 0x65
    | some bs =>
      let m := { m with blocks := bs, redo := 0 }
      let n := sumN m.blens
      let k := (n + 7) / 8
      let put := fun (s t : State) (m : Mig) (c q : Nat) =>
        if t.roomFor (slotLines c q n) then (t.putBlocks m c q).updMig m.id fun _ => m else s
      if k == m.dslot then put s s m m.dchan m.dest
      else
        let t := if m.dslot == 0 then s else s.freeSlot m.dchan m.dest
        if n == 0 then t.updMig m.id fun _ => { m with dslot := 0 }
        else
          match t.allocSlot m.entry k m.channels with
          | none => s.migEnd m 0x06
          | some (c, q, t) => put s t { m with dchan := c, dest := q, dslot := k } c q

/-- Step 6 taken as far as it goes: the granules of a held migration whose redo bit is set copied again. -/
def State.recopy (s : State) (id : Nat) : State :=
  match s.mig id with
  | none => s
  | some m =>
    if m.phase != .held || m.redo == 0 then s
    else if m.kind == .demote then s.recopyDemote m
    else if m.kind == .relocate && m.dslot != 0 then s.recopySlot m
    else s.recopyLines m

/-- Step 5 of a migration whose destination is written: every granule held, and those with a redo bit copied again under the hold.
Nothing happens while a home works on a granule of the page; a migration whose domain is gone ends here (R113). -/
def State.holdMig (s : State) (id : Nat) : State :=
  match s.mig id with
  | none => s
  | some m =>
    if m.phase != .written then s
    else if s.migDead m then s.migEnd m 0x68
    else if [0, 1, 2, 3].any fun g => s.granuleBusy m (m.dpa / 1024 + g) then s
    else (s.updMig id fun x => { x with phase := .held }).recopy id

/-! ### Steps 7 to 9 -/

/-- The Kindling lines of a page, each changed or dropped. -/
def State.pageLines (s : State) (e : Entry) (dpa : Nat) (f : State → Nat → Nat → Nat → State) : State :=
  (List.range 64).foldl (fun s i =>
    let a := dpa + 64 * i
    match s.kWay (e.slice a) a with
    | some w => f s (e.slice a) (kSet a) w
    | none => s) s

/-- The entry a flip commits (step 7). A demotion to nothing but zero blocks whose page still has a line in PE or HE stays Charcoal with
no slot under its open charge (R102, R118; DESIGN CHOICE, assumption 104). -/
def State.flipEntry (s : State) (m : Mig) (p : PageEntry) : PageEntry :=
  let q := match m.kind with
    | .promote =>
      let q := setFld (p.toFirewood m.dest) 124 124 0
      if m.forced then setFld q 123 123 1 else q
    | .demote =>
      let open_ := s.pageOwned m.entry m.dpa
      let q : PageEntry := if sumN m.blens == 0 && !open_ then p.form 0 else p.toCharcoal m.dchan m.dslot m.dest m.blens
      setFld q 124 124 (b2n open_)
    | .relocate =>
      if m.dslot == 0 then p.toFirewood m.dest
      else s.closeOpen m.entry m.dpa (setFld (setFld (setFld p 103 100 m.dchan) 99 96 m.dslot) 95 62 m.dest)
  setFld q 125 125 0

/-- What a promotion leaves of the blocks that waited for it: their data is in the frame, or in the ways as lines. -/
def State.releaseBlocks (s : State) (m : Mig) : State :=
  let here := fun g => g / 4 == m.dpa / 4096
  { s with
    eng := { s.eng with czHeld := s.eng.czHeld.filter fun j => !here j.granule }
    kind := { s.kind with fills := s.kind.fills.filter fun f => !here f.granule }
    tier := { s.tier with tagHeld := s.tier.tagHeld.filter fun x => x.1 != m.dom || !here x.2.1 } }

/-- The flip of a migration whose granules are held and copied: the entry committed, the Kindling lines of step 8 seen to, the source
freed. -/
def State.flipMig (s : State) (id : Nat) : State :=
  let s := s.recopy id
  match s.mig id with
  | none => s
  | some m =>
    if m.phase != .held || m.redo != 0 then s
    else
      let p := s.page m.page
      let s := s.setPage m.page (s.flipEntry m p)
      let s := match m.kind with
        | .demote => s.pageLines m.entry m.dpa fun s sl set w => s.kDrop sl set w
        | .promote => (s.pageLines m.entry m.dpa fun s sl set w =>
            s.setKLine sl set w { s.kLine sl set w with blk := false }).releaseBlocks m
        | .relocate => s
      let s := s.freeBacking m.entry p
      let s : State := { s with tier := { s.tier with migs := s.tier.migs.filter fun x => x.id != id } }
      (s.count 4 0 0x81 1 (some m.dom) none).report m.by_ 0

/-! ### Heat (R107 to R109) -/

/-- The first share page of a domain from `sp` on whose map owner is `owner`, looked for up to `fuel`. -/
def State.ownedFrom (s : State) (e : Entry) (owner : Nat) : Nat → Nat → Option Nat
  | 0, _ => none
  | f + 1, sp =>
    if sp ≥ e.pages then none
    else if e.owner (s.pageDpa e sp) == owner then some sp
    else s.ownedFrom e owner f (sp + 1)

/-- The next page map entry that an owner holds, from a key on, in ascending order. -/
def State.nextOwned (s : State) (owner key : Nat) : Option Nat :=
  s.domains.foldl (fun best d =>
    let e := d.2
    let base := Entry.mapBase e * 256
    if !s.storesShare e || key ≥ base + Entry.pages e then best
    else
      match s.ownedFrom e owner 4096 (key - base) with
      | some sp =>
        match best with
        | none => some (base + sp)
        | some b => some (min b (base + sp))
      | none => best) none

/-- One step of an owner's sweep (R108): the next entry decays; the sweep wraps at its last page. -/
def State.sweepStep (s : State) (owner : Nat) : State :=
  let place := s.tier.sweep.get owner
  match s.nextOwned owner place with
  | some k =>
    match s.passPage k fun p => heatStep p s.tier.epoch (s.resynced owner k) false with
    | some s => { s with tier := { s.tier with sweep := s.tier.sweep.put owner (k + 1) } }
    | none => s
  | none => { s with tier := { s.tier with sweep := s.tier.sweep.put owner 0 } }

/-- One step of an owner's resync pass (R109): the next entry's `EPOCH` cleared; the pass ends after its last page. -/
def State.resyncStep (s : State) (owner : Nat) : State :=
  let r := s.tier.resync.get owner
  if r == 0 then s
  else
    match s.nextOwned owner (r - 1) with
    | some k =>
      match s.passPage k fun p => setFld p 111 104 0 with
      | some s => { s with tier := { s.tier with resync := s.tier.resync.put owner (k + 2) } }
      | none => s
    | none => { s with tier := { s.tier with resync := s.tier.resync.put owner 0 } }

/-- `CHIP_TMCTL` written (R109, R494): a reserved value is discarded; a new `EPOCH` restarts the epoch count and every owner's
resync pass. -/
def State.writeTmctl (s : State) (v : BitVec 32) : State :=
  if !legalWrite R.CHIP_TMCTL v then s.badValue R.CHIP_TMCTL
  else
    let old := s.rd R.CHIP_TMCTL_EPOCH
    let s := s.putReg R.CHIP_TMCTL v
    if s.rd R.CHIP_TMCTL_EPOCH == old then s
    else { s with tier := { s.tier with epoch := 0, resync := (List.range 16).foldl (fun t k => t.put k 1) s.tier.resync } }

/-! ### Compaction (R114) -/

/-- Frames or slots an extent holds when full. -/
def Extent.room (t : Extent) : Nat := if t.kind == 1 then 512 * (t.arg % 32) else if t.kind == 2 then 32768 / (8 * t.arg) else 0

/-- Whether a page's backing lies in an extent. -/
def pageIn (e : Entry) (p : PageEntry) (t : Extent) (c x : Nat) : Bool :=
  if t.kind == 1 then p.state == 1 && groupArg e == t.arg && p.fstripe / 8192 == x
  else t.kind == 2 && p.state == 2 && p.slot != 0 && p.cchan == c && p.csect / 32768 == x

/-- The pages whose backing lies in an extent: domain, entry, first DPA. -/
def State.pagesIn (s : State) (c x : Nat) : List (Nat × Entry × Nat) :=
  let t := s.ext c x
  (s.domains.map fun d =>
    if !s.storesShare d.2 then []
    else
      (s.tier.pmap.cells.filter fun p =>
        decide (Entry.mapBase d.2 * 256 ≤ p.1) && decide (p.1 < Entry.mapBase d.2 * 256 + Entry.pages d.2) && pageIn d.2 p.2 t c x).map
        fun p => (d.1, d.2, s.pageDpa d.2 (p.1 - Entry.mapBase d.2 * 256))).flatten

/-- Whether a group extent's record on a channel is the group's own: the one of its lowest channel. -/
def groupHead (t : Extent) (c : Nat) : Bool := t.kind != 1 || t.arg / 32 == c

/-- How full an extent is, in parts of 2^20. -/
def Extent.occupancy (t : Extent) : Nat := t.used * 2 ^ 20 / t.room

/-- Whether some page of an extent can be moved: neither of a paced domain nor in a migration (R110). -/
def State.canEmpty (s : State) (c x : Nat) : Bool :=
  (s.pagesIn c x).any fun p => !Entry.paced p.2.1 && !(s.page (Entry.mapKey p.2.1 p.2.2)).mig

/-- The extent that compaction empties next: the least occupied, below one half, with a page that can be moved; the lowest channel
and number on ties. -/
def State.sparsest (s : State) : Option (Nat × Nat) :=
  (s.tier.extents.cells.foldl (fun (best : Option (Nat × Nat)) c =>
    let (n, x) := (c.1 / 2 ^ 20, c.1 % 2 ^ 20)
    let t := c.2
    if Extent.room t == 0 || !groupHead t n || t.used * 2 ≥ Extent.room t || !s.canEmpty n x then best
    else
      match best with
      | none => some (n, x)
      | some b => if Extent.occupancy t < (s.ext b.1 b.2).occupancy then some (n, x) else best) none)

/-- An extent closed to allocation, or opened again, in every channel of its group. -/
def State.closeExtent (s : State) (c x : Nat) (v : Bool) : State :=
  let t := s.ext c x
  let cs := if t.kind == 1 then (List.range (t.arg % 32)).map fun i => (t.arg / 32 + i) % 16 else [c]
  cs.foldl (fun s c => if (s.ext c x).kind == 0 then s else s.setExt c x { s.ext c x with noAlloc := v }) s

/-- Relocations of an extent's pages issued into other extents (R114), as far as R110 admits them. -/
def State.compactExtent (s : State) (c x : Nat) (by_ : MigBy) : State :=
  let lost := (s.ext c x).noAlloc
  let ps := s.pagesIn c x
  let s := s.closeExtent c x true
  let s := ps.foldl (fun s p => (s.startMig p.1 p.2.1 p.2.2 .relocate 16 by_ false).2) s
  if lost then s else s.closeExtent c x false

/-- The compaction of the tier manager, in Reserve and Held. -/
def State.compactOwn (s : State) : State :=
  if s.pressure < 2 then s
  else
    match s.sparsest with
    | some (c, x) => s.compactExtent c x .manager
    | none => s

end Sys2Proof.Machine
end

