-- ==== Sys2Proof/Machine/Grihar.lean ====
section
/-!
DEFINITION. The Grihar cores (chapter 14): registers and flags, what fetching and executing one instruction does around its
meaning, faults, the end of a run, checkpoints, suspension and cancellation, and the start of a run (R343, R345, R346).
-/
namespace Sys2Proof.Machine

/-! ### Registers of a core -/

/-- A general register: g0 reads 0 (R317). -/
def GCore.reg (c : GCore) (r : Nat) : BitVec 64 := if r = 0 then 0 else c.g.get r
/-- A flag: f0 reads 1 (R317). -/
def GCore.flag (c : GCore) (i : Nat) : Bool := i == 0 || c.f.getLsbD i
/-- The core with a register written; writes to g0 are discarded. -/
def GCore.setReg (c : GCore) (r : Nat) (v : BitVec 64) : GCore := if r = 0 then c else { c with g := c.g.put r v }
/-- The core with a flag written; writes to f0 are discarded. -/
def GCore.setFlag (c : GCore) (i : Nat) (v : Bool) : GCore :=
  if i = 0 then c else { c with f := setFld c.f i i (b2n v) }

/-- A core's register read. -/
def State.g (s : State) (k r : Nat) : BitVec 64 := (s.gcore k).reg r
/-- The state with a core's register written. -/
def State.setG (s : State) (k r : Nat) (v : BitVec 64) : State := s.updCore k fun c => c.setReg r v

/-- Fields of a core's status register (Table 14-14). -/
def corePriv (k : Nat) : Fld := if k = 8 then R.GA_STAT_HOSTPRIV else R.G_STAT_HOSTPRIV k
def coreCause (k : Nat) : Fld := if k = 8 then R.GA_STAT_FCAUSE else R.G_STAT_FCAUSE k
def corePc (k : Nat) : Fld := if k = 8 then R.GA_STAT_PC else R.G_STAT_PC k

/-- The status code of a core: 0 idle, 1 running, 2 waiting, 3 suspended, 4 faulted, 5 unpowered. -/
def State.coreSt (s : State) (k : Nat) : Nat := s.rd (coreState k)
/-- The state with a core's status code. -/
def State.setCoreSt (s : State) (k v : Nat) : State := s.wr (coreState k) v

/-- The state with a core at a PC. -/
def State.setPc (s : State) (k pc : Nat) : State :=
  (s.updCore k fun c => { c with pc := pc }).wr (corePc k) (pc % 2 ^ 18)

/-- The bytes of the program image of a core's run (R321): the loader gives a host program's, the ROM its own. -/
def GCore.imageLen (c : GCore) : Nat := if c.host then c.codeLen else Config.romBytes c.run

/-- The clocks within which a program executes a checkpoint (R333). -/
def checkLimit (k : Nat) : Nat := if k = 8 then 5000 else 75000

/-! ### Capabilities (Table 14-12) -/

/-- Bytes `lo` to `hi` of a capability record, as a number. -/
def capN (cap : List Byte) (hi lo : Nat) : Nat := (ofLe (8 * (hi - lo + 1)) ((cap.drop lo).take (hi - lo + 1))).toNat
/-- A bit of `OBJ`. -/
def capObj (cap : List Byte) (i : Nat) : Bool := (capN cap 7 0).testBit i
/-- A bit of the mask at bytes `lo` to `hi`. -/
def capBit (cap : List Byte) (hi lo i : Nat) : Bool := (capN cap hi lo).testBit i
/-- Whether a domain is in the record. -/
def capDomain (cap : List Byte) (d : Nat) : Bool := ((cap.getD (64 + d / 8) 0).toNat).testBit (d % 8)

/-- Whether a run may use an object: a ROM program may use every one (R335). -/
def GCore.may (c : GCore) (ok : List Byte → Bool) : Bool := !c.host || ok c.cap

/-- The domain fields of `FIELDS`, by bit (Table 14-12). -/
def capFields : List (Nat × Nat) :=
  [(287, 256), (319, 288), (49, 44), (60, 60), (59, 59), (58, 57), (56, 55), (367, 352), (511, 448)]

/-- The entry with the fields a record lets DOMWR change taken from another. -/
def capCopy (cap : List Byte) (dst from_ : Entry) : Entry :=
  (List.range 9).foldl (fun e i =>
    if capBit cap 9 8 i then copyField e from_ (capFields.getD i (0, 0)) else e) dst

/-! ### The end of a run -/

/-- The work a core has issued cut off from its tickets: it runs on, and its outcome is discarded (R324). -/
def State.detach (s : State) (k : Nat) : State :=
  let by_ := fun (m : Mig) => match m.by_ with
    | .ticket c _ => if c == k then { m with by_ := .manager } else m
    | _ => m
  let mine := fun (c : Commit) => if c.src == 3 && c.arg / 16 == k then { c with src := 4 } else c
  { s with
    tier := { s.tier with migs := s.tier.migs.map by_ }
    dom := { s.dom with commits := s.dom.commits.map mine }
    peat := { s.peat with
      prgPend := s.peat.prgPend.map fun p => if p.core == k then { p with tk := 16 } else p
      cur := s.peat.cur.map fun w => if w.core == k then { w with tk := 16 } else w }
    core := { s.core with
      scans := s.core.scans.map fun x => if x.core == k then { x with tk := 16 } else x
      groups := s.core.groups.map fun x => if x.core == k then { x with tk := 16 } else x
      left := (List.range 16).foldl (fun t i => t.put (k * 16 + i) 0) s.core.left } }

/-- A core left idle; one whose clocks are stopped (Table 20-2) is idle when they run again. -/
def State.idleCore (s : State) (k : Nat) : State :=
  if s.coreSt k == 5 then { s with pow := { s.pow with cores := s.pow.cores.put k 1 } } else s.setCoreSt k 0

/-- The run of a core ended, as by HALT: an open group is discarded, its tickets are gone, and the core is idle (R322,
R345). -/
def State.endRun (s : State) (k : Nat) : State :=
  ((s.detach k).updCore k fun c =>
    { c with tickets := Tab.empty, group := none, wait := none, ckclk := 0, run := 0 }).idleCore k

/-- The run suspended at a checkpoint with `pc` next (R334): registers, flags and an open group are kept; each ticket that
was issued reads done with its fields 0 on resume (Table 15-3). -/
def State.suspendRun (s : State) (k pc : Nat) : State :=
  let s := (s.detach k).updCore k fun c => { c with
    tickets := (List.range 16).foldl (fun t i =>
      let x := t.get i
      if x.st == 0 || x.st == 3 then t else t.put i { op := x.op, st := 3, status := 0, a := 0, b := 0 }) c.tickets
    wait := none
    ckclk := 0 }
  (s.setPc k pc).setCoreSt k 3

/-- A START event of a program, which needs no binding (R341, R342). -/
def State.start (s : State) (prog : Nat) : State :=
  { s with core := { s.core with pend := pendPut s.core.pend prog 0x01 0 } }

/-- The program a core holds when no host program is loaded on it (Table 15-1). -/
def romProg (k : Nat) : Nat := if k ≤ 2 then k + 1 else if k == 8 then 4 else 0

/-- The bindings of the ROM program of a core (R359), with their timers begun now. -/
def State.romBinds (s : State) (k : Nat) : State :=
  let ev := fun (p c : Nat) => ({ prog := p, code := c, period := 0, next := 0 } : Bind)
  let tm := fun (p us : Nat) => ({ prog := p, code := 2, period := us, next := s.gtc + 1000 * us } : Bind)
  let par := fun (p i d : Nat) => let v := s.core.params.get (p * 16 + i); if v == 0 then d else v - 1
  let bs := match k with
    | 0 => tm 1 (1000 * par 1 2 100) :: [3, 4, 5, 6].map (ev 1)
    | 1 => [tm 2 (1000 * par 2 0 10), ev 2 9]
    | 2 => [0x10, 0x11, 0x12].map (ev 3)
    | 8 => [ev 4 0x13, ev 5 0x14]
    | _ => []
  { s with core := { s.core with binds := s.core.binds ++ bs } }

/-- A core's program removed: its bindings and pending events go, both SRAMs are zeroed, and a ROM program is restored and
started (R341, Table 15-3). -/
def State.unloadProg (s : State) (k : Nat) : State :=
  let p := (s.gcore k).prog
  let s := s.endRun k
  let s := { s with core := { s.core with
    binds := s.core.binds.filter fun b => b.prog != p, pend := s.core.pend.filter fun x => x.1 != p } }
  let s := s.updCore k fun c => { c with
    prog := romProg k, host := false, codeLen := 0, cap := [], imem := Tab.empty, dmem := Tab.empty, stopped := false,
    faults := [], asked := [] }
  let s := (s.wr (corePriv k) 0)
  if romProg k == 0 then s else (s.romBinds k).start (romProg k)
/-- A host image put on a core (R342): code and data from the staging area, the rest of the data SRAM zero; START where
asked. Answers its PROG. -/
def State.loadHost (s : State) (k code data : Nat) (start : Bool) : Nat × State :=
  let prog := 0x8000 + s.core.loads % 0x8000
  let byte := fun (off : Nat) => (s.reg (0x500000 + off / 4 * 4) >>> (8 * (off % 4))).setWidth 8
  let old := (s.gcore k).prog
  let s := { s with core := { s.core with
    loads := s.core.loads + 1
    binds := s.core.binds.filter fun b => b.prog != old || old == 0
    pend := s.core.pend.filter fun x => x.1 != old || old == 0 } }
  let imem := (List.range (code / 4)).foldl (fun (t : Tab (BitVec 32)) i => t.put i (s.reg (0x500000 + 4 * i))) Tab.empty
  let word := fun (i : Nat) => ofLe 64 ((List.range 8).map fun j => if 8 * i + j < data then byte (0x40000 + 8 * i + j) else 0)
  let dmem := (List.range ((data + 7) / 8)).foldl (fun (t : Tab (BitVec 64)) i => t.put i (word i)) Tab.empty
  let cap := (List.range 2112).map fun i => byte (0x80000 + i)
  let s := s.updCore k fun c => { c with
    prog := prog, host := true, codeLen := code, cap := cap, imem := imem, dmem := dmem, stopped := false, faults := [],
    asked := [], load := none }
  let s := s.wr (corePriv k) 1
  (prog, if start then s.start prog else s)

/-- A completion that a LOAD_PROGRAM or PROG_CTL awaits: `src` is a ring or 8 + the port of a mailbox. -/
def State.tellProg (s : State) (src status : Nat) (result : List Byte) : State := s.firstCompletion src status 1 0 result

/-- The REPLACE load a core has waiting, once its ROM program's run has ended (R342). -/
def State.endLoad (s : State) (k : Nat) : State :=
  match (s.gcore k).load with
  | some (code, data, st, src) =>
    let (p, s) := (s.endRun k).loadHost k code data st
    s.tellProg src 0 (leBytes 2 (BitVec.ofNat 16 p))
  | none => s

/-- One request that waited for a checkpoint takes effect on a core whose run is at PC `pc` (R334, R345): the state that an
earlier one has left decides. -/
def State.askedNow (s : State) (k pc : Nat) (a : Asked) : State :=
  let st := s.coreSt k
  if a.action == 0 then
    if st == 3 then s.tellProg a.src 0x85 []
    else (if st == 0 then s.setCoreSt k 3 else s.suspendRun k pc).tellProg a.src 0 []
  else if a.action == 2 then (s.endRun k).tellProg a.src 0 []
  else (s.unloadProg k).tellProg a.src 0 []

/-- Every request that waits for a checkpoint of a core, in order, and then a load that replaces its program. -/
def State.checkpoint (s : State) (k pc : Nat) : State :=
  let asked := (s.gcore k).asked
  let s := s.updCore k fun c => { c with asked := [], ckclk := 0 }
  (asked.foldl (fun s a => s.askedNow k pc a) s).endLoad k

/-! ### Faults -/

/-- A fault of a core (R338, R346): the run stops with its registers kept, the group is discarded, and the record is
written. A ROM program's fourth fault within 1 s stops it until Warm reset. -/
def State.gFault (s : State) (k cause addr : Nat) : State :=
  let c := s.gcore k
  let now := s.gtc
  let times := now :: c.faults.filter fun t => decide (now < t + 1000000000)
  let stop := !c.host && decide (times.length ≥ 4)
  let s := (s.detach k).updCore k fun c => { c with
    tickets := Tab.empty, group := none, wait := none, ckclk := 0, asked := [],
    faults := if c.host then c.faults else times, stopped := c.stopped || stop }
  let s := ((s.setCoreSt k 4).wr (coreCause k) cause).wr (corePc k) (c.pc % 2 ^ 18)
  let detail := c.run % 2 ^ 16 + 2 ^ 16 * (c.pc % 2 ^ 32) + 2 ^ 48 * cause + 2 ^ 64 * (addr % 2 ^ 64)
  let s := s.log {
    type := if stop then 0x0502 else 0x0501, sev := if stop then 2 else 1, level := 1, ukind := 5, unit := k,
    detail := BitVec.ofNat 128 detail }
  let s := if c.host then
      { s with core := { s.core with pend := s.core.pend.filter fun x => x.1 != c.prog } } else s
  let s := c.asked.foldl (fun s a =>
    if a.action == 4 then (s.unloadProg k).tellProg a.src 0 [] else s.tellProg a.src 0x85 []) s
  s.endLoad k

/-! ### One instruction -/

/-- What an instruction does: goes on, after so many clocks, at the next word or at a PC; faults; or leaves the core as it
has set it. -/
inductive GRes where
  | go (s : State) (clk : Nat) (pc : Option Nat)
  | fault (cause addr : Nat)
  | own (s : State)

/-- The core goes on at a PC after some clocks (R333). -/
def State.gStep (s : State) (k clk pc : Nat) : State :=
  (s.updCore k fun c => { c with ckclk := c.ckclk + clk }).setPc k pc

/-- An instruction word fetched and executed by a running core (R318 to R321, R333, R338). `upset` marks an uncorrectable
word of the instruction SRAM. A host program's image is in the state, so that only the word at its PC can be fetched. -/
def State.gRun (s : State) (k : Nat) (w : BitVec 32) (upset : Bool) (row : Nat) (body : State → GRes) : Answer :=
  if !gBelongs row w then .refused .illFormed
  else
    let c := s.gcore k
    if s.coreSt k != 1 then .next s
    else if c.pc ≥ c.imageLen then .next (s.gFault k 5 c.pc)
    else if upset then .next (s.gFault k 6 c.pc)
    else if c.host && c.imem.get (c.pc / 4) != w then .next s
    else if c.ckclk > checkLimit k || (c.ckclk == checkLimit k && !(gCheckpoint w && c.flag (gFlag w) != gNeg w)) then
      .next (s.gFault k 0xB 0)
    else if gIllegal w then .next (s.gFault k 1 0)
    else if c.flag (gFlag w) == gNeg w then .next (s.gStep k 1 (c.pc + 4))
    else
      match body s with
      | .go s clk pc => .next (s.gStep k clk (pc.getD (c.pc + 4)))
      | .fault cause addr => .next (s.gFault k cause addr)
      | .own s => .next s

/-! ### Runs -/

/-- The oldest pending entry of the programs of a core (R343). -/
def State.nextPending (s : State) (k : Nat) : Option (Nat × Nat × Nat) :=
  s.core.pend.find? fun x => s.coreOf x.1 == some k

/-- A run begun (R343): registers and flags zero, EVENT and EVARG set, PC 0. -/
def State.beginRun (s : State) (k : Nat) (x : Nat × Nat × Nat) : State :=
  let s := { s with core := { s.core with pend := s.core.pend.erase x } }
  let s := s.updCore k fun c => { c with
    g := Tab.empty, f := 0, event := x.2.1, evarg := x.2.2, run := x.1, ckclk := 0, tickets := Tab.empty, group := none,
    wait := none }
  (s.setPc k 0).setCoreSt k 1

/-- An idle core with a pending event starts its program; so does one whose ROM program has faulted, unless it is stopped
(R343, R346). -/
def State.startRun (s : State) (k : Nat) : State :=
  let c := s.gcore k
  if s.coreSt k == 0 || (s.coreSt k == 4 && !c.host && !c.stopped) then
    match s.nextPending k with
    | some x => s.beginRun k x
    | none => s
  else s

/-- PROGRAM_RUN_START (R343). -/
def execProgramRunStart (core : Fin 9) (s : State) : Answer := .next (s.startRun core)

/-- A TIMER binding whose period has expired: its event becomes pending, and the next period runs (R343). -/
def State.timer (s : State) (prog : Nat) : State :=
  match s.core.binds.find? fun b => b.prog == prog && b.code == 2 && decide (b.next ≤ s.gtc) with
  | some b =>
    let next := { b with next := b.next + 1000 * b.period }
    let s := { s with core := { s.core with binds := s.core.binds.map fun x => if x == b then next else x } }
    s.eventFor prog 2 b.period
  | none => s

/-- TIMER (R343). -/
def execTimer (prog : BitVec 16) (s : State) : Answer := .next (s.timer prog.toNat)

/-- CKPT_LATE (R333): a running core whose CKCLK has reached its limit faults. -/
def execCkptLate (core : Fin 9) (s : State) : Answer :=
  .next (if s.coreSt core == 1 && decide ((s.gcore core).ckclk ≥ checkLimit core) then s.gFault core 0xB 0 else s)

end Sys2Proof.Machine
end

