-- ==== Sys2Proof/Machine/Groups.lean ====
section
/-!
DEFINITION. Commit groups (R330 to R332): the checks of the chip arbiter, the commit point of every slot, and the groups that
wait for an earlier commit of one of their domains; and the write of a counter's control registers (R362).
-/
namespace Sys2Proof.Machine

/-- A counter's control register written; `CLR` sets the count to 0 (Table 16-4). -/
def State.writeCtl (s : State) (bank k : Nat) (v : BitVec 32) : State :=
  let s := s.putReg (ctlOff bank k) v
  if bit v 30 then { s with ctr := { s.ctr with count := s.ctr.count.put (bank * 128 + k) 0 } } else s

/-- The domain of a slot, with its staged entry. -/
def GroupSlot.entry? : GroupSlot → Option (Nat × Entry)
  | .dom d e => some (d, e)
  | _ => none

/-- The setting that a group's regulator slots make of the committed one. -/
def State.groupSetting (s : State) (slots : List GroupSlot) (off : Nat) : BitVec 32 :=
  (slots.findSome? fun x => match x with
    | .rgl o v => if o == off then some v else none
    | _ => none).getD (s.rglLatest off)

/-- Whether a slot is a regulator register. -/
def GroupSlot.isRgl : GroupSlot → Bool
  | .rgl _ _ => true
  | _ => false

/-- Check 1 of R331 (R337): the first domain slot that changes a bit outside the capability's fields. -/
def State.groupDenied (s : State) (slots : List GroupSlot) (host : Bool) (cap : List Byte) : Option Nat :=
  if !host then none
  else slots.findIdx? fun x =>
    match x with
    | .dom d e => let old := s.entry d
      capCopy cap old (cleanEntry old e) != cleanEntry old e
    | _ => false

/-- Check 2 of R331: the first domain slot that fails, each checked with those before it in place. -/
def State.groupEntries (s : State) : List GroupSlot → Nat → Option (Nat × Nat)
  | [], _ => none
  | .dom d e :: t, i =>
    let e := cleanEntry (s.entry d) e
    let st := s.commitStatus d e false
    if st != 0 then some (st, i) else State.groupEntries (s.setEntry d e) t (i + 1)
  | _ :: t, i => State.groupEntries s t (i + 1)

/-- The valid domains as a group's domain slots leave them. -/
def State.groupDomains (s : State) (slots : List GroupSlot) : List (Nat × Entry) :=
  (slots.foldl (fun s x =>
    match x with
    | .dom d e => s.setEntry d (cleanEntry (s.entry d) e)
    | _ => s) s).domains

/-- The outcome of a group's checks in the order of R331: 0, or a status and the slot that failed, and the state after its claims
(check 3): those of its regulator slots on the paced merge reservation. A group that fails holds none of them; denials stay
recorded. -/
def State.groupCheck (s : State) (slots : List GroupSlot) (host : Bool) (cap : List Byte) : Nat × Nat × State :=
  match s.groupDenied slots host cap with
  | some i => (0x50, i, s)
  | none =>
    match s.groupEntries slots 0 with
    | some x => (x.1, x.2, s)
    | none =>
      match slots.findIdx? GroupSlot.isRgl with
      | some i =>
        let r := s.rglClaims (s.groupDomains slots) (s.groupSetting slots)
        if !r.1 then (0x01, i, r.2)
        else
          let st := r.2.rglGroupCheck (s.groupSetting slots)
          (st, i, if st == 0 then r.2 else s)
      | none => (0, 0, s)

/-- A domain slot at the commit point, with its steps 3 to 5 begun; its end is told to a ticket. -/
def State.commitSlot (s : State) (d : Nat) (e : Entry) (core tk : Nat) : State :=
  let old := s.entry d
  let s := s.commitPoint d (cleanEntry old e)
  { s with dom := { s.dom with commits := s.dom.commits ++
      [{ dom := d, path := none, src := if tk < 16 then 3 else 4, arg := core * 16 + tk, old := old, new := s.entry d,
         inval := false, recalled := false }] } }

/-- The commit point of a group that has passed (R331). -/
def State.commitSlots (s : State) (slots : List GroupSlot) (core tk : Nat) : State :=
  let setting := s.groupSetting slots
  let s := slots.foldl (fun s x =>
    match x with
    | .dom d e => s.commitSlot d e core tk
    | .rgl _ _ => s
    | .shape off v => s.writeShaper off v
    | .ctr bank k v => (s.writeCtl bank k (v.setWidth 32)).putReg (filtOff bank k) ((v >>> 32).setWidth 32)) s
  if slots.any GroupSlot.isRgl then s.rglCommit setting else s

/-- A group at the chip arbiter: held before `READY` (R456) and while an earlier commit of one of its domains has
not reached step 5, else checked and
committed or failed (R331). -/
def State.takeGroup (s : State) (x : GroupWait) : State :=
  let doms := x.slots.filterMap GroupSlot.entry?
  if !s.flag R.CHIP_BOOTSTAT_READY || doms.any fun d => s.commitWaits d.1 d.2 then { s with core := { s.core with groups := s.core.groups ++ [x] } }
  else
    let (st, i, s) := s.groupCheck x.slots x.host x.cap
    if st != 0 then s.ticketDone x.core x.tk st 0 i
    else
      let s := s.commitSlots x.slots x.core x.tk
      if doms.isEmpty then s.ticketDone x.core x.tk 0 0 0
      else if x.tk ≥ 16 then s
      else
        let s := s.updCore x.core fun c => { c with tickets := c.tickets.upd x.tk fun t => { t with st := 2 } }
        { s with core := { s.core with left := s.core.left.put (x.core * 16 + x.tk) doms.length } }

/-- The groups that wait offered again, in order. -/
def State.settleGroups (s : State) : State :=
  let gs := s.core.groups
  gs.foldl (fun s x => s.takeGroup x) { s with core := { s.core with groups := [] } }

end Sys2Proof.Machine
end

