-- ==== Sys2Proof/Machine/HostCmd.lean ====
section
/-!
DEFINITION. The commands of a host's CXL.mem traffic (R30, R31, R47 to R51, R77, R85, R90, R299, R302) and the grants that
let waiting requests go (R120, R219).
-/
namespace Sys2Proof.Machine

/-- A request of a host before it is decoded, at its host physical address (R50). -/
def hostReq (op : ReqOp) (port : Nat) (tag : BitVec 16) (hpa : BitVec 64) : Req :=
  { (default : Req) with
    op := op, agent := .host port, tag := tag.toNat, addr := hpa.toNat / 64 * 64, be := BitVec.allOnes 64 }

/-- A flit of a host received on its port: the link leaves L1 (R312), and a sleeping device wakes (R434). -/
def State.hostFlit (s : State) (p : Nat) : State :=
  let s := s.wake 1
  if (s.head p).l1 then ((s.updHead p fun h => { h with l1 := false }).limitSync).event 0x13 p else s

/-- Whether a port has an M2S Req or RwD credit left (R303, Table 13-2): 128 and 64 on a non-paced port, returned as requests are granted. Those of a
paced port follow R226. -/
def State.m2sCredit (s : State) (p : Nat) (w : Bool) : Bool :=
  s.pacedSource p ||
    decide (((s.rgl.admq.get (s.place p).group).filter fun x =>
      x.req.agent == .host p && x.req.tag < 2 ^ 16 && x.req.op.isWrite == w).length < if w then 64 else 128)

/-- A host's request taken at its port; a port that is not open brings none, nor does one without a credit (assumption 125). -/
def State.takeHost (s : State) (port : Nat) (offered : Bool) (r : Req) : State :=
  if s.portOpen port && s.m2sCredit port r.op.isWrite then ((s.hostFlit port).hostRequest port offered r).settleAll else s

/-- HOST_READ (R85); a CXL.cache or extended-metadata field that it names is ignored (R299). -/
def execHostRead (port : Fin 32) (tag : BitVec 16) (hpa : BitVec 64) (mv : MetaValue) (_extended offered : Bool)
    (upset : Upset) (s : State) : Answer :=
  .next (s.takeHost port offered { hostReq (.hostRd mv) port tag hpa with upset := upset })

/-- A full-line write of a host: its writeback of a line being recalled from it is absorbed and completed at once (R74, R86);
any other is a request (R30). -/
def State.takeHostWrite (s : State) (port : Nat) (offered : Bool) (r : Req) : State :=
  match s.translate port r.addr with
  | some (_, dpa) =>
    if offered && s.portOpen port && (s.biFor port dpa).isSome then
      let (d, e) := (s.servedDomain dpa).getD (0, 0)
      let r := { r with addr := dpa, dom := d, entry := e }
      (((s.hostFlit port).hostWriteback port r.addr r.data r.poison).toHost r false 0 false 0).settleAll
    else s.takeHost port offered r
  | none => s.takeHost port offered r

/-- HOST_WRITE (R30). -/
def execHostWrite (port : Fin 32) (tag : BitVec 16) (hpa : BitVec 64) (mv : MetaValue) (offered poison : Bool)
    (data : Line) (upset : Upset) (s : State) : Answer :=
  .next (s.takeHostWrite port offered
    { hostReq (.hostWr mv) port tag hpa with data := data, poison := poison, upset := upset })

/-- HOST_NARROW_WRITE (R31). -/
def execHostNarrowWrite (port : Fin 32) (tag : BitVec 16) (hpa : BitVec 64) (mv : MetaValue) (offered : Bool) (be : BitVec 64) (poison : Bool)
    (data : Line) (upset : Upset) (s : State) : Answer :=
  .next (s.takeHost port offered
    { hostReq (.hostPtl mv) port tag hpa with data := data, be := be, poison := poison, upset := upset })

/-- MEMSPECRD (R299): accepted and dropped. A speculative opcode that is not offered is recorded as UNSUP_OPC; neither has a
response. -/
def execMemspecrd (port : Fin 32) (hpa : BitVec 64) (offered : Bool) (s : State) : Answer :=
  .next (if s.portOpen port then
    let s := s.hostFlit port
    if offered then s else s.logPort 0x0403 port none hpa.toNat
  else s)

/-- BIRSPI (R77). -/
def execBirspi (port : Fin 32) (dpa : Dpa) (upset : Upset) (s : State) : Answer :=
  .next (if s.portOpen port then (((s.hostFlit port).meetUpset dpa.toNat upset).onBiRsp port dpa.toNat false).settleAll else s)

/-- BIRSPS (R85). -/
def execBirsps (port : Fin 32) (dpa : Dpa) (s : State) : Answer :=
  .next (if s.portOpen port then ((s.hostFlit port).onBiRsp port dpa.toNat true).settleAll else s)

/-- BICONFLICT (R90): acknowledged before any response to the conflicting request. -/
def execBiconflict (port : Fin 32) (dpa : Dpa) (s : State) : Answer :=
  .next (if s.portOpen port && (s.biFor port dpa.toNat).isSome then (s.hostFlit port).send (.biAck port (dpa.toNat / 64 * 64)) else s)

/-- BISTALL_EXPIRY (R302): the BISnp keeps waiting. -/
def execBistallExpiry (port : Fin 32) (dpa : Dpa) (s : State) : Answer :=
  .next (if (s.biFor port dpa.toNat).isSome || s.coh.biWait.any (fun b => b.1 == port.val && b.2.1 / 64 == dpa.toNat / 64) then
    (s.set1 (R.PG_CXLSTAT_BISTL (s.place port).group)).log
      { type := 0x0104, sev := 1, level := 1, ukind := 9, unit := port, loc := dpa.toNat / 64 * 64 }
  else s)

/-- BISNP_CREDIT (R302). -/
def execBisnpCredit (port : Fin 32) (s : State) : Answer :=
  .next (if !s.portOpen port then s else
    let s := s.hostFlit port
    ({ s with coh := { s.coh with biCredit := s.coh.biCredit.upd port (· + 1) } } : State).biDrain port)

/-! ### Grants -/

/-- ADMISSION_GRANT (R219). -/
def execAdmissionGrant (point : Fin 16) (s : State) : Answer := .next ((s.admitNext point).settleAll)

/-- The next home slice with a request waiting for backing, round-robin (R120). -/
def State.nextBacking (s : State) : Option Nat :=
  ((List.range 16).map fun k => (s.tier.nextSlice + k) % 16).find? fun n =>
    !(s.tier.waitq.get n).isEmpty || !(s.tier.overq.get n).isEmpty

/-- A slice's oldest waiting transaction taken; one returned to the ordering queue takes the entry it frees (R120). -/
def State.takeBacking (s : State) (n : Nat) : Option (Nat × State) :=
  match s.tier.waitq.get n, s.tier.overq.get n with
  | t :: q, [] => some (t, { s with tier := { s.tier with waitq := s.tier.waitq.put n q } })
  | t :: q, o :: os =>
    some (t, { s with tier := { s.tier with waitq := s.tier.waitq.put n (q ++ [o]), overq := s.tier.overq.put n os } })
  | [], o :: os => some (o, { s with tier := { s.tier with overq := s.tier.overq.put n os } })
  | [], [] => none

/-- The draw of a transaction that waits for backing: none for a page that is backed by now or whose domain is charged
whole. -/
def State.waitingDraw (s : State) (t : HomeTx) : Nat :=
  let r := t.req
  let bits := s.dirBits t.slice r.addr
  let grantsE := grantRdS bits (dirLs bits (lineIn r.addr)) r.agent t.hostShared == 3
  (s.drawOf r.entry (r.entry.mapKey r.addr) r.op grantsE).getD 0

/-- The head of the order granted its draw, when it leaves Free above E / 8 and its frame can be had (R104, R120); a draw that
would not moves the state back to Held. What it grants holds a transaction entry again. A page that a migration holds waits for the flip (R112). -/
def State.grantBacking (s : State) : State :=
  match s.nextBacking with
  | none => s
  | some n =>
    match s.takeBacking n with
    | none => s
    | some (id, s') =>
      match s.tx id with
      | none => s'
      | some t =>
        let draw := s.waitingDraw t
        if s.pressure == 3 || s.migHolds t.line then s
        else if draw > 0 && !s.mayDraw draw then s.enterPressure 3
        else
          let key := t.req.entry.mapKey t.req.addr
          let p := s.page key
          let s' := { s' with tier := { s'.tier with nextSlice := (n + 1) % 16 } }
          if p.state == 1 || (p.state == 2 && p.open_) then (s'.updTx id fun t => { t with busy := true }).serveBacked { t with busy := true }
          else
            match s'.backPage t.req.dom t.req.entry t.req.addr with
            | some s' => (s'.updTx id fun t => { t with busy := true }).serveBacked { t with busy := true }
            | none => s

/-- BACKING_GRANT (R120). -/
def execBackingGrant (s : State) : Answer := .next s.grantBacking.settleAll

end Sys2Proof.Machine
end

