-- ==== Sys2Proof/Machine/Counters.lean ====
section
/-!
DEFINITION. The commands of the counters (chapter 16): clearing and reading a counter, the Halyard freeze (R367, R368), the domain
counter pages (R370) and request tagging (R372, R376).
-/
namespace Sys2Proof.Machine

/-! ### Reads -/

/-- Offset of a counter's low word, of the count or of the snapshot copy. -/
def ctrLo (bank k : Nat) (snap : Bool) : Nat :=
  if bank = 4 then (if snap then R.CHIP_C_SLO k else R.CHIP_C_LO k)
  else if snap then R.RC_C_SLO bank k else R.RC_C_LO bank k

/-- How many counters a bank holds (R361). -/
def bankSize (bank : Nat) : Nat := if bank = 4 then 32 else 80
/-- How many of them are programmable. -/
def bankOpen (bank : Nat) : Nat := if bank = 4 then 32 else 64

/-- A read of `Ck_LO` or `Ck_SLO` (R365): the upper word is latched. -/
def State.readCounter (s : State) (bank k : Nat) (snap : Bool) : BitVec 32 × State :=
  let v := (if snap then s.ctr.snap else s.ctr.count).get (bank * 128 + k)
  (v.setWidth 32, s.setReg (ctrLo bank k snap + 4) ((v >>> 32).setWidth 32))

/-- COUNTER_READ (R365). -/
def execCounterRead (p : Path) (bank : Fin 5) (k : Fin 80) (snap : Bool) (s : State) : Answer :=
  .next (if k.val < bankSize bank then s.reading p (ctrLo bank k snap) fun s => s.readCounter bank k snap else s)

/-! ### Control -/

/-- A write of `Ck_CTL`: a fixed counter's is read-only (R364). -/
def State.writeCounter (s : State) (bank k : Nat) (v : BitVec 32) : State :=
  if k < bankOpen bank then s.writeCtl bank k v else s

/-- COUNTER_CLEAR (R362): a write of `Ck_CTL` with `CLR` = 1. -/
def execCounterClear (p : Path) (bank : Fin 5) (k : Fin 80) (val : BitVec 32) (s : State) : Answer :=
  .next (if k.val < bankSize bank then
    s.writing p (ctlOff bank k) (setFld val 30 30 1) fun v s => s.writeCounter bank k v else s)

/-! ### The Halyard freeze -/

/-- A target pending (R367). -/
def State.arm (s : State) (t : Nat) : State :=
  ({ s with ctr := { s.ctr with target := some t, awaitEdge := false, taken := [] } }).set1 R.CHIP_HALSTAT_ARMED

/-- The freeze disarmed; its timer is released. -/
def State.disarm (s : State) : State :=
  let s : State := { s with ctr := { s.ctr with target := none, awaitEdge := false, taken := [] } }
  ((s.clr R.CHIP_HALSTAT_ARMED).claimStep [{ on := .timer none, feature := 0x14 }] []).2

/-- The target of `CHIP_HALTGT`, moved to 512 ticks from now when it lies nearer (R367). -/
def State.armTarget (s : State) : State :=
  let t := s.rd (R.CHIP_HALTGT_T 0) + 2 ^ 32 * s.rd (R.CHIP_HALTGT_T 1)
  let (ok, s) := s.claimOne { on := .timer none, feature := 0x14 }
  if !ok then s
  else if t < s.gtc + 512 then (s.arm (s.gtc + 512)).set1 R.CHIP_HALSTAT_LATE
  else s.arm t

/-- `SRC` = 10: the next edge of HALYARD_IN gives the target; needs MFP4 held by HALYARD_IN. -/
def State.armEdge (s : State) : State :=
  let h := s.claim.mfp.get 4
  if h == 0x24 then { s with ctr := { s.ctr with awaitEdge := true } } else s.denyClaim 0x04 0x24 h h

/-- `GO` written with a source (R367). -/
def State.halGo (s : State) (src : Nat) : State :=
  if src == 3 then s.disarm
  else if s.flag R.CHIP_HALSTAT_ARMED then s
  else
    match src with
    | 0 => s.armTarget
    | 1 => s.arm (s.gtc + 512)
    | _ => s.armEdge

/-- Counting restarted in every bank (R368). -/
def State.halRelease (s : State) : State :=
  let s : State := { s with ctr := { s.ctr with frozen := Tab.empty } }
  (List.range 4).foldl (fun s r => s.clr (R.RC_BSTAT_FROZEN r)) (s.clr R.CHIP_CBSTAT_FROZEN)

/-- `CHIP_HALCTL` written. -/
def State.writeHalctl (s : State) (v : BitVec 32) : State :=
  let s := s.putReg R.CHIP_HALCTL v
  let s := if bit v 27 then s.halRelease else s
  if bit v 31 then s.halGo (fld v 30 29) else s

/-- A write of `CHIP_HALCTL` with `GO` = 1 and a source. -/
def State.halWrite (s : State) (p : Path) (val : BitVec 32) (src : Nat) : State :=
  s.writing p R.CHIP_HALCTL (setFld (setFld val 31 31 1) 30 29 src) fun v s => s.writeHalctl v

/-- HALYARD_ARM_TARGET (R367). -/
def execHalyardArmTarget (p : Path) (val : BitVec 32) (s : State) : Answer := .next (s.halWrite p val 0)
/-- HALYARD_ARM_RELATIVE (R367). -/
def execHalyardArmRelative (p : Path) (val : BitVec 32) (s : State) : Answer := .next (s.halWrite p val 1)
/-- HALYARD_ARM_EXTERNAL (R367). -/
def execHalyardArmExternal (p : Path) (val : BitVec 32) (s : State) : Answer := .next (s.halWrite p val 2)
/-- HALYARD_DISARM (R367). -/
def execHalyardDisarm (p : Path) (val : BitVec 32) (s : State) : Answer := .next (s.halWrite p val 3)
/-- HALYARD_RELEASE (R368). -/
def execHalyardRelease (p : Path) (val : BitVec 32) (s : State) : Answer :=
  .next (s.writing p R.CHIP_HALCTL (setFld (setFld val 31 31 0) 27 27 1) fun v s => s.writeHalctl v)

/-- The first multiple of 1,024 at least 512 after an edge (R367). -/
def edgeTarget (gtc : Nat) : Nat := (gtc + 512 + 1023) / 1024 * 1024

/-- HALYARD_IN_EDGE (R367); ignored while a target is pending (R377). -/
def execHalyardInEdge (s : State) : Answer :=
  .next (if s.ctr.awaitEdge && s.claim.mfp.get 4 == 0x24 && !s.flag R.CHIP_HALSTAT_ARMED then s.arm (edgeTarget s.gtc) else s)

/-- Tagging stopped in the regions that `p` names. -/
def State.stopTagging (s : State) (p : Nat → Bool) : State :=
  ((List.range 4).filter fun r => s.flag (R.TR_CTL_EN r) && p r).foldl (fun s r => s.set1 (R.TR_STAT_STOPPED r)) s

/-- What follows the last bank's snapshot (R368). -/
def State.halDone (s : State) (t : Nat) : State :=
  let s := (s.wr (R.CHIP_HALLAST_LAST 0) t).wr (R.CHIP_HALLAST_LAST 1) (t / 2 ^ 32)
  let s := s.disarm.event 0x0A t
  let s := if s.claim.mfp.get 4 == 0x25 then s.send (.pulse 4) else s
  s.stopTagging fun r => s.flag (R.TR_CTL_HALSTOP r)

/-- A bank's counters copied into their snapshot copies. -/
def State.copyBank (s : State) (bank : Nat) : State :=
  (List.range (bankSize bank)).foldl (fun s i =>
    let k := bank * 128 + i
    { s with ctr := { s.ctr with snap := s.ctr.snap.put k (s.ctr.count.get k) } }) s

/-- A bank that reaches T copies its counters and, with `FREEZE`, stops them (R368). -/
def State.snapshot (s : State) (bank : Nat) : State :=
  match s.ctr.target with
  | none => s
  | some t =>
    if s.gtc < t || s.ctr.taken.contains bank || s.rd R.PS_STAT_STATE > 1 then s
    else
      let s := s.copyBank bank
      let s := if s.flag R.CHIP_HALCTL_FREEZE then
          ({ s with ctr := { s.ctr with frozen := s.ctr.frozen.put bank true } }).set1
            (if bank = 4 then R.CHIP_CBSTAT_FROZEN else R.RC_BSTAT_FROZEN bank)
        else s
      let s : State := { s with ctr := { s.ctr with taken := bank :: s.ctr.taken } }
      if s.ctr.taken.length == 5 then s.halDone t else s

/-- HALYARD_SNAPSHOT (R368). -/
def execHalyardSnapshot (bank : Fin 5) (s : State) : Answer := .next (s.snapshot bank)

/-- At an exit from Banked or Cinder a target that has passed is taken in that clock, late (R369). -/
def State.lateTarget (s : State) : State :=
  match s.ctr.target with
  | some t => if t < s.gtc then (s.arm s.gtc).set1 R.CHIP_HALSTAT_LATE else s
  | none => s

/-! ### Domain counter pages -/

/-- The programmable counters whose filter has been written: the others have `VIEW` = 0. -/
def State.enabledFilts (s : State) (bank : Nat) : List Nat :=
  (List.range (bankOpen bank)).filter fun i => s.regs.cells.any fun c => c.1 == filtOff bank i

/-- The counters of a bank that a domain's page lists (R370). -/
def State.viewed (s : State) (bank d : Nat) : List (Nat × Nat) :=
  ((s.enabledFilts bank).filter fun i =>
    let f := s.reg (filtOff bank i)
    bit f 29 && bit f 31 && fld f 27 14 == d).map fun i => (bank, i)

/-- One entry of a page (Table 16-3). -/
def State.pageEntryBytes (s : State) (x : Nat × Nat) : List Byte :=
  let k := x.1 * 128 + x.2
  let ctl := s.reg (ctlOff x.1 x.2)
  leBytes 6 (s.ctr.count.get k) ++ leBytes 2 (BitVec.ofNat 16 (x.2 + 128 * x.1)) ++ leBytes 6 (s.ctr.snap.get k) ++
    [byteOf (fld ctl 23 16), byteOf (fld ctl 28 27)]

/-- The bytes of a domain's page before its end, which reads 0 (R370). -/
def State.counterPage (s : State) (d : Nat) : List Byte :=
  let xs := (((List.range 5).map fun b => s.viewed b d).flatten).take 252
  leBytes 2 (BitVec.ofNat 16 d) ++ leBytes 2 (BitVec.ofNat 16 (s.entry d).gen) ++ leBytes 2 (BitVec.ofNat 16 xs.length) ++
    [0, 0] ++ leBytes 4 (s.reg (R.CHIP_HALLAST 0)) ++ leBytes 4 (s.reg (R.CHIP_HALLAST 1)) ++ List.replicate 48 0 ++
    (xs.map s.pageEntryBytes).flatten

/-- Whether a port reads a domain's page (R306). -/
def State.pageOpen (s : State) (p d : Nat) : Bool :=
  let e := s.entry d
  e.valid && e.ctrView && e.rdPorts.testBit p

/-- COUNTER_PAGE_READ (R306, R370): an aligned read of 8 B, the `word`-th of a page of BAR2. -/
def execCounterPageRead (port : Fin 32) (dom : BitVec 14) (word : Fin 512) (s : State) : Answer :=
  .next (if !s.portOpen port || !s.flag R.CHIP_BOOTSTAT_READY then s
  else
    let s := (s.hostFlit port).wakeFor .bar R.CHIP_CBSTAT
    let b := if s.pageOpen port dom.toNat then ((s.counterPage dom.toNat).drop (8 * word)).take 8 else []
    s.send (.page port dom.toNat (8 * word) (b ++ List.replicate (8 - b.length) 0)))

/-! ### Request tagging -/

/-- `TRr_CTL` written (R372): `EN` from 0 to 1 restarts the buffer. -/
def State.writeTrctl (s : State) (r : Nat) (v : BitVec 32) : State :=
  let was := s.flag (R.TR_CTL_EN r)
  let s := s.putReg (R.TR_CTL r) v
  if bit v 31 && !was then ((s.clr (R.TR_STAT_WPTR r)).clr (R.TR_STAT_FULL r)).clr (R.TR_STAT_STOPPED r) else s

/-- TRACE_ENABLE (R372). -/
def execTraceEnable (p : Path) (region : Fin 4) (val : BitVec 32) (s : State) : Answer :=
  .next (s.writing p (R.TR_CTL region) (setFld val 31 31 1) fun v s => s.writeTrctl region v)

/-- `TRr_SEED` written (R376): the LFSR is loaded; 0 loads 1. -/
def State.writeSeed (s : State) (r : Nat) (v : BitVec 32) : State :=
  let s := s.putReg (R.TR_SEED r) v
  { s with ctr := { s.ctr with lfsr := s.ctr.lfsr.putD 1 r (if v == 0 then 1 else v) } }

/-- TRACE_SEED_WRITE (R376). -/
def execTraceSeedWrite (p : Path) (region : Fin 4) (val : BitVec 32) (s : State) : Answer :=
  .next (s.writing p (R.TR_SEED region) val fun v s => s.writeSeed region v)

/-- A read of `TRr_DATA0` latches the record at `IDX` (R376). -/
def State.readTrace (s : State) (r : Nat) : BitVec 32 × State :=
  let x := s.ctr.trace.get (r * 4096 + s.rd (R.TR_IDX_IDX r))
  (x.setWidth 32, { s with ctr := { s.ctr with latched := s.ctr.latched.put r x } })

/-- TRACE_DATA_READ (R376). -/
def execTraceDataRead (p : Path) (region : Fin 4) (s : State) : Answer :=
  .next (s.reading p (R.TR_DATA region 0) fun s => s.readTrace region)

/-- TRACE_TRIG_EDGE (R372): MFP6 or MFP7, held by TRACE_TRIG. -/
def execTraceTrigEdge (high : Bool) (s : State) : Answer :=
  .next (if s.claim.mfp.get (if high then 7 else 6) == 0x27 then s.stopTagging fun r => s.flag (R.TR_CTL_TRIGSTOP r) else s)

end Sys2Proof.Machine
end

