-- ==== Sys2Proof/Machine/Records.lean ====
section
/-!
DEFINITION. Error records as 64 bytes (Table 17-4), and the records that the ring and the always-on store hold.
-/
namespace Sys2Proof.Machine

/-- The 64 bytes of a record (Table 17-4). -/
def Record.bytes (r : Record) : List Byte :=
  let n := fun (k v : Nat) => leBytes k (BitVec.ofNat 64 v)
  n 2 0x0E01 ++ n 2 r.type ++ [byteOf (r.sev + 16 * r.cls + 64 * r.level), byteOf r.ukind, byteOf r.unit, byteOf r.count] ++
    n 8 r.gtc1 ++ n 4 r.index ++ n 2 r.dom ++ n 6 r.loc ++ n 2 r.type2 ++ n 2 0 ++ leBytes 16 r.detail ++ n 8 r.gtcN ++ n 8 0

/-- The record of an index that the ring holds (R383). -/
def State.recordAt (s : State) (i : Nat) : Option Record := s.flt.ring.find? fun r => r.index == i

/-- The bytes of a record index: 0, so `RTYPE` 0, where the ring holds none (R390). -/
def State.recordBytes (s : State) (i : Nat) : List Byte :=
  match s.recordAt i with
  | some r => r.bytes
  | none => List.replicate 64 0

end Sys2Proof.Machine
end

