-- ==== Sys2Proof/Machine/Flit.lean ====
section
/-!
DEFINITION. The 256-byte flits of a Pennant link and the messages in their slots (R265 to R271), alignment markers (R277) and
training blocks (R287): their layouts, the CRCs, and the code that corrects a flit. Byte b of a flit is bits 8b+7:8b.
-/
namespace Sys2Proof.Machine

/-! ### Checks -/

/-- One bit of a CRC of width `w`, most significant bit first, without reflection. -/
def crcBit {w : Nat} (poly : BitVec w) (r : BitVec w) (b : Bool) : BitVec w :=
  if r.msb != b then (r <<< 1) ^^^ poly else r <<< 1

/-- One byte, bit 7 first. -/
def crcByte {w : Nat} (poly : BitVec w) (r : BitVec w) (x : Byte) : BitVec w :=
  [7, 6, 5, 4, 3, 2, 1, 0].foldl (fun r i => crcBit poly r (x.getLsbD i)) r

/-- The CRC-64 of bytes 0 to 239 under a seed (R271). -/
def crc64 (seed : Nat) (bytes : List Byte) : BitVec 64 :=
  let start : BitVec 64 := setFld (BitVec.allOnes 64) 12 0 seed
  ~~~(bytes.foldl (crcByte 0x42F0E1EBA9EA3693) start)

/-- The CRC-16 of markers and training blocks (R277). -/
def crc16 (bytes : List Byte) : BitVec 16 := bytes.foldl (crcByte 0x1021) 0xFFFF

/-- The data symbols of code word h of a flit (R270): bytes 2k + h. -/
def flitWord (h : Nat) (bytes : List Byte) : List Byte := (List.range 124).map fun k => bytes.getD (2 * k + h) 0

/-- The eight parity bytes of bytes 0 to 247: byte 248 + h + 2j is check symbol j of code word h (R270). -/
def flitParity (bytes : List Byte) : List Byte :=
  let a := rsCheck 4 (flitWord 0 bytes)
  let b := rsCheck 4 (flitWord 1 bytes)
  (List.range 8).map fun i => (if i % 2 == 0 then a else b).getD (i / 2) 0

/-- Bytes 0 to 247 of a received flit after correction of up to two symbols in each code word, with the number corrected; none
where one fails (R270). -/
def flitCorrect (bytes : List Byte) : Option (List Byte × Nat) :=
  let dec := fun h =>
    rsDecode 4 ((List.range 4).map (fun j => bytes.getD (248 + h + 2 * j) 0) ++ flitWord h bytes) [] 2
  match dec 0, dec 1 with
  | some (a, m), some (b, n) => some ((List.range 248).map (fun i => (if i % 2 == 0 then a else b).getD (4 + i / 2) 0), m + n)
  | _, _ => none

/-! ### Messages -/

/-- Slots of a message by its opcode (R268). -/
def msgSlots (opc : Nat) : Nat :=
  if [0x04, 0x60, 0x61, 0x62, 0x63, 0x64, 0x65, 0x80, 0x82, 0xE0].contains opc then 5
  else if opc == 0x05 || opc == 0xC1 then 6 else 1

/-- Opcodes that a link carries (Tables 04-5 and 12-9). -/
def knownOpc (opc : Nat) : Bool :=
  [0x01, 0x02, 0x03, 0x04, 0x05, 0x20, 0x21, 0x22, 0x23, 0x40, 0x41, 0x42, 0x43, 0x44, 0x45, 0x60, 0x61, 0x62, 0x63, 0x64,
    0x65, 0x80, 0x81, 0x82, 0xA0, 0xA1, 0xA2, 0xC0, 0xC1, 0xE0, 0xE1].contains opc

/-- The header slot of a message (Table 12-4; R285 for MGT messages). -/
def headerSlot (m : Msg) : BitVec 128 :=
  let x : BitVec 128 := setFld (setFld (setFld 0 7 0 m.opc) 11 8 m.src) 15 12 m.dst
  if m.opc == 0xA2 then setFld (setFld x 59 16 m.addr) 71 60 m.txn
  else if m.opc / 32 == 5 then setFld x 127 16 m.data.toNat
  else
    let x := setFld (setFld (setFld x 27 16 m.txn) 71 28 m.addr) 72 72 (b2n m.ord)
    let x := setFld (setFld (setFld x 75 73 m.grant) 76 76 (b2n m.wbp)) 80 77 m.held
    setFld (setFld (setFld (setFld x 81 81 (b2n m.poison)) 89 82 m.err) 93 90 m.reqDev) 105 94 m.reqTxn

/-- A message's slots (R268). -/
def msgBits (m : Msg) : List (BitVec 128) :=
  let line := (List.range 4).map fun i => m.data.extractLsb' (128 * i) 128
  match msgSlots m.opc with
  | 5 => headerSlot m :: line
  | 6 => headerSlot m :: m.be.setWidth 128 :: line
  | _ => [headerSlot m]

/-- The message that slots hold. -/
def msgOf (slots : List (BitVec 128)) : Msg :=
  let x : BitVec 128 := slots.headD 0
  let opc := fld x 7 0
  let m : Msg := { (default : Msg) with opc := opc, src := fld x 11 8, dst := fld x 15 12 }
  if opc == 0xA2 then { m with addr := fld x 59 16, txn := fld x 71 60 }
  else if opc / 32 == 5 then { m with data := BitVec.ofNat 512 (fld x 127 16) }
  else
    let m : Msg := { m with
      txn := fld x 27 16, addr := fld x 71 28, ord := bit x 72, grant := fld x 75 73, wbp := bit x 76, held := fld x 80 77,
      poison := bit x 81, err := fld x 89 82, reqDev := fld x 93 90, reqTxn := fld x 105 94 }
    let n := msgSlots opc
    if n == 1 then m
    else
      let line : Line := (List.range 4).foldl (fun (a : Line) i =>
        a ||| (((slots.getD (n - 4 + i) 0).setWidth 512 : Line) <<< (128 * i))) 0
      { m with data := line, be := if n == 6 then (slots.getD 1 0).setWidth 64 else BitVec.allOnes 64 }

/-! ### Flits -/

/-- The fields of a flit header (Table 12-2). -/
structure FlitHead where
  ftype : Nat
  nak : Bool
  rpl : Bool
  ack : Nat
  prc : Nat
  pwc : Nat
  lcmd : Nat
deriving DecidableEq, Repr, Inhabited

/-- The header's bits. -/
def FlitHead.bits (h : FlitHead) : BitVec 32 :=
  let x : BitVec 32 := setFld (setFld (setFld 0 31 30 h.ftype) 29 29 (b2n h.nak)) 28 28 (b2n h.rpl)
  setFld (setFld (setFld (setFld x 27 16 h.ack) 15 12 h.prc) 11 8 h.pwc) 7 4 h.lcmd

/-- The header that bits give. -/
def flitHead (x : BitVec 32) : FlitHead :=
  { ftype := fld x 31 30, nak := bit x 29, rpl := bit x 28, ack := fld x 27 16, prc := fld x 15 12, pwc := fld x 11 8,
    lcmd := fld x 7 4 }

/-- The slot header and the slots of messages placed one after another (R267): each slot's VC and valid bit, each first
slot's start bit. -/
def slotPart (msgs : List Msg) : BitVec 96 × List (BitVec 128) :=
  msgs.foldl (fun (a : BitVec 96 × List (BitVec 128)) m =>
    let k := a.2.length
    let ss := msgBits m
    let h := (List.range ss.length).foldl (fun (h : BitVec 96) i =>
      setFld (setFld h (28 + 3 * (k + i) + 2) (28 + 3 * (k + i)) (m.opc / 32)) (k + i) (k + i) 1) a.1
    (setFld h (14 + k) (14 + k) 1, a.2 ++ ss)) (0, [])

/-- A whole flit (Table 12-1): `seed` is its sequence number, or 0x1000 for a flit that takes none (R271). -/
def flitBits (h : FlitHead) (msgs : List Msg) (seed : Nat) : BitVec 2048 :=
  let (sh, ss) := slotPart msgs
  let body := leBytes 4 h.bits ++ leBytes 12 sh ++ ((ss ++ List.replicate (14 - ss.length) 0).map (leBytes 16)).flatten
  let b := body ++ leBytes 8 (crc64 seed body)
  ofLe 2048 (b ++ flitParity b)

/-- The messages of a slot header and its slots, each with the VC its first slot names and whether its slots are as R267
says. -/
def slotMsgs (sh : BitVec 96) (slot : Nat → BitVec 128) : List (Msg × Nat × Bool) :=
  ((List.range 14).filter fun k => bit sh k && bit sh (14 + k)).map fun k =>
    let vc := fun k => fld sh (28 + 3 * k + 2) (28 + 3 * k)
    let n := msgSlots (fld (slot k) 7 0)
    let ok := decide (k + n ≤ 14) && (List.range n).all fun i => bit sh (k + i) && vc (k + i) == vc k && (i == 0 || !bit sh (14 + k + i))
    (msgOf ((List.range n).map fun i => slot (k + i)), vc k, ok)

/-! ### Markers and training blocks -/

/-- An alignment marker (R277). -/
def markerBits (logical physical count : Nat) : BitVec 256 :=
  let b := [0xD3, 0x1A, 0xE5, 0x6C, byteOf logical, byteOf physical, byteOf count] ++ List.replicate 23 0
  ofLe 256 (b ++ leBytes 2 (crc16 b))

/-- Whether 32 bytes start as given and carry their CRC. -/
def blockOk (start : List Byte) (x : BitVec 256) : Bool :=
  let b := leBytes 32 x
  b.take 4 == start && leBytes 2 (crc16 (b.take 30)) == b.drop 30

/-- A marker that arrived whole. -/
def markerOk (x : BitVec 256) : Bool := blockOk [0xD3, 0x1A, 0xE5, 0x6C] x
/-- A training block that arrived whole. -/
def trainOk (x : BitVec 256) : Bool := blockOk [0x9C, 0x4E, 0x7B, 0x2D] x

/-- The fields of a training block (Table 12-11). -/
structure TrainBlock where
  state : Nat
  seen : Bool          -- nonce received
  full : Bool
  lane : Nat           -- the sender's physical lane
  dev : Nat
  group : Nat
  nonce : BitVec 32
  epoch : BitVec 32
  e : Nat
  ev : Bool
  fast : Bool          -- 112 Gbit/s allowed by `RATE`
  decision : Nat       -- byte 19
  vc8 : Bool
  minw : Nat
  preset : Nat
  faults : BitVec 9
  oreq : Nat
  owb : Nat
  osnp : Nat
deriving DecidableEq, Repr, Inhabited

/-- The block's 32 bytes. -/
def TrainBlock.bits (t : TrainBlock) : BitVec 256 :=
  let n := fun (k v : Nat) => leBytes k (BitVec.ofNat 64 v)
  let b := [0x9C, 0x4E, 0x7B, 0x2D, byteOf (t.state + 64 * b2n t.seen + 128 * b2n t.full), byteOf t.lane, byteOf t.dev,
    byteOf t.group] ++ leBytes 4 t.nonce ++ leBytes 4 t.epoch ++ n 2 (t.e + 32768 * b2n t.ev) ++
    [byteOf (1 + 2 * b2n t.fast), byteOf t.decision, byteOf (b2n t.vc8 + 2 * t.minw), byteOf t.preset] ++
    leBytes 2 (t.faults.setWidth 16) ++ n 2 t.oreq ++ n 2 t.owb ++ n 2 t.osnp
  ofLe 256 (b ++ leBytes 2 (crc16 b))

/-- The fields that 32 bytes give. -/
def trainBlock (x : BitVec 256) : TrainBlock :=
  { state := fld x 34 32, seen := bit x 38, full := bit x 39, lane := fld x 47 40, dev := fld x 51 48, group := fld x 59 56,
    nonce := x.extractLsb' 64 32, epoch := x.extractLsb' 96 32, e := fld x 139 128, ev := bit x 143, fast := bit x 145,
    decision := fld x 159 152, vc8 := bit x 160, minw := fld x 162 161, preset := fld x 175 168, faults := x.extractLsb' 176 9,
    oreq := fld x 207 192, owb := fld x 223 208, osnp := fld x 239 224 }

end Sys2Proof.Machine
end

