-- ==== Sys2Proof/Machine/Jobs.lean ====
section
/-!
DEFINITION. Long operations (R353 to R357, R209, R210): how a job is accepted and ends, what each kind does, and the
settling of the whole device after a command, jobs included.
-/
namespace Sys2Proof.Machine

/-! ### Jobs -/

/-- A job not Done. -/
def State.job (s : State) (id : Nat) : Option Job := s.ring.jobs.find? fun j => j.id == id

/-- A job's state changed, with the GTC of the change (Table 15-9). -/
def State.jobTo (s : State) (id st : Nat) : State := s.updJob id fun j => { j with st := st, gtc := s.gtc }

/-- The result bytes of a job (Table 15-5). -/
def Job.result (j : Job) : List Byte :=
  let n := fun (k : Nat) (v : Nat) => leBytes k (BitVec.ofNat 64 v)
  match j.op with
  | 0x20 => leBytes 64 j.audit
  | 0x21 => n 8 j.n1 ++ n 8 j.n2 ++ n 8 j.n3
  | 0x22 => n 4 j.n1 ++ n 4 j.n2
  | 0x23 => n 8 j.n1 ++ n 4 j.n2 ++ n 2 j.n3
  | _ => n 4 j.bins ++ n 4 j.n2

/-- A job Done: its record kept among the 256 newest, and its final completion handed to its source (R349, R353). -/
def State.endJob (s : State) (id status : Nat) : State :=
  match s.job id with
  | none => s
  | some j =>
    let j := { j with st := 3, status := status, gtc := s.gtc }
    let s := { s with ring := { s.ring with
      jobs := s.ring.jobs.filter fun x => x.id != id, done := (j :: s.ring.done).take 256 } }
    s.handCompletion j.src (completion j.tag j.op status 3 id j.result) j.irq

/-- The identifier after one, skipping 0 (R353). -/
def nextId (n : Nat) : Nat := n % (2 ^ 32 - 1) + 1

/-- A job accepted from a descriptor of a source (R349): its completion of kind 2, and its record. -/
def State.takeJob (s : State) (src : Nat) (d : BitVec 1024) (j : Job) : State :=
  let id := nextId s.ring.nextJob
  let j := { j with id := id, op := descOp d, gtc := s.gtc, src := src, tag := descTag d, irq := descIrq d }
  let s := s.firstCompletion src 0 2 id []
  { s with ring := { s.ring with jobs := s.ring.jobs ++ [j], nextJob := id } }

/-- Whether a job bars another (R353): `hold` are SANITIZE and RESIZE, which bar every job that names their domain; a
device-scope SANITIZE bars all. -/
def Job.holds (j : Job) : Bool := j.op == 0x23 || j.op == 0x24
def Job.wide (j : Job) : Bool := j.op == 0x23 && j.kind != 0
/-- Whether a job names a domain; COMPACT names none. -/
def Job.names (j : Job) (d : Nat) : Bool := j.wide || (j.op != 0x22 && j.dom == d)

/-- JOB_CONFLICT for a new job of an operation on a domain. -/
def State.jobConflict (s : State) (new : Job) : Bool :=
  s.ring.jobs.any fun j => j.wide || new.wide || (new.op != 0x22 && j.names new.dom && (j.holds || new.holds))

/-- The refusal of any job: too many, or a conflict. -/
def State.jobRefusal (s : State) (new : Job) : Nat :=
  if s.jobConflict new then 0x82 else if s.ring.jobs.length ≥ 64 then 0x81 else 0

/-- Whether a RESIZE not Done bars migrations of a share page (R356). -/
def State.resizeBars (s : State) (d page : Nat) : Bool :=
  s.ring.jobs.any fun j => j.op == 0x24 && j.dom == d &&
    decide (min j.limit j.bins * 512 / Entry.ways (s.entry d) ≤ page)

/-! ### MIGRATE_RANGE and COMPACT -/

/-- The kind of a migration by its code (R327). -/
def migKind (k : Nat) : MigKind := if k == 0 then .demote else if k == 1 then .promote else .relocate

/-- The next migrations of a range issued, up to the depth (R354). -/
def State.rangeIssue : Nat → State → Nat → State
  | 0, s, _ => s
  | f + 1, s, id =>
    match s.job id with
    | none => s
    | some j =>
      if j.st != 1 || j.hold || j.stop || j.cur ≥ j.last || j.flying ≥ j.depth then s
      else
        let e := s.entry j.dom
        let dpa := s.pageDpa e j.cur
        let p := s.page (e.mapKey dpa)
        let beyond := fun (s : State) (g : Job → Job) => s.updJob id fun j => g { j with cur := j.cur + 1 }
        if p.state == 0 && j.kind != 0 then State.rangeIssue f (beyond s fun j => { j with done := j.done + 1 }) id
        else
          let (st, s') := s.startMig j.dom e dpa (migKind j.kind) j.chan (.job id) false
          if st == 0 then State.rangeIssue f (beyond s' fun j => { j with flying := j.flying + 1 }) id
          else if st == 0x64 then s
          else State.rangeIssue f (beyond s' fun j => { j with done := j.done + 1, n2 := j.n2 + 1 }) id

/-- The results of a job's migrations taken (R354, Table 15-5). -/
def State.takeReports (s : State) (id : Nat) : State :=
  let mine := (s.tier.reports.filter fun r => r.1 == id).map (·.2)
  let s := { s with tier := { s.tier with reports := s.tier.reports.filter fun r => r.1 != id } }
  mine.foldl (fun s st => s.updJob id fun j =>
    let j := { j with flying := j.flying - 1, done := j.done + 1 }
    if j.op == 0x22 then (if st == 0 then { j with n2 := j.n2 + 1 } else j)
    else if st == 0 then { j with n1 := j.n1 + 1 }
    else if st == 0x65 || st == 0x66 then { j with n2 := j.n2 + 1 }
    else { j with n3 := j.n3 + 1 }) s

/-- The extent that a compaction job empties next: of the kinds and channels it names, below its limit, the least occupied
(R354). -/
def State.nextSparse (s : State) (j : Job) : Option Nat :=
  (s.tier.extents.cells.foldl (fun (best : Option (Nat × Nat)) c =>
    let t := c.2
    let room := Extent.room t
    let asked := if t.kind == 1 then j.groups && groupHead t (c.1 / 2 ^ 20) else t.kind == 2 && j.bins.testBit (t.arg - 1)
    let occ := t.used * 2 ^ 20 / room
    if room == 0 || !asked || !j.chan.testBit (c.1 / 2 ^ 20) || t.used * 100 ≥ j.limit * room || j.seen.contains c.1 then best
    else
      match best with
      | none => some (c.1, occ)
      | some b => if occ < b.2 then some (c.1, occ) else best) none).map (·.1)

/-- A compaction job taken on while no migration of it is in flight: the extent in hand relocated as far as R110 lets it, or
counted as freed, and then the next. `cur` is 1 + the key of the extent in hand. -/
def State.compactIssue : Nat → State → Nat → State
  | 0, s, _ => s
  | f + 1, s, id =>
    match s.job id with
    | none => s
    | some j =>
      if j.st != 1 || j.hold || j.stop || j.flying != 0 || s.boot.drain.isSome then s
      else if j.cur == 0 then
        match s.nextSparse j with
        | none => s.updJob id fun j => { j with last := 1 }
        | some k => State.compactIssue f (s.updJob id fun j => { j with cur := k + 1 }) id
      else
        let k := j.cur - 1
        let leave := fun (s : State) (n : Nat) => s.updJob id fun j =>
          { j with cur := 0, seen := k :: j.seen, n1 := j.n1 + n, last := 0 }
        if (s.ext (k / 2 ^ 20) (k % 2 ^ 20)).kind == 0 then State.compactIssue f (leave s 1) id
        else
          let before := s.tier.migs.length
          let s := s.compactExtent (k / 2 ^ 20) (k % 2 ^ 20) (.job id)
          let n := s.tier.migs.length - before
          if n == 0 then State.compactIssue f (leave s 0) id
          else s.updJob id fun j => { j with flying := n }

/-- The migrations of a cancelled job that have not reached step 5 ended (Table 15-10). -/
def State.cancelMigs (s : State) (id : Nat) : State :=
  (s.tier.migs.filter fun m => m.by_ == .job id && m.phase != .held).foldl (fun s m => s.migEnd m 0x67) s

/-- A job of migrations brought as far as it goes now. -/
def State.settleMoves (s : State) (id : Nat) : State :=
  let s := s.takeReports id
  match s.job id with
  | none => s
  | some j =>
    let gone := j.op == 0x21 && !(s.entry j.dom).valid
    let s := if gone || j.st != 1 then s
      else if j.op == 0x21 then (State.rangeIssue (j.last - j.cur + 1) s id).takeReports id
      else State.compactIssue (2 * s.tier.extents.cells.length + 2) s id
    match s.job id with
    | none => s
    | some j =>
      if j.flying != 0 then s
      else if gone then s.endJob id 0x68
      else if j.stop then s.endJob id 0x67
      else if j.hold then (s.updJob id fun j => { j with hold := false }).jobTo id 2
      else if j.st == 1 && ((j.op == 0x21 && j.cur ≥ j.last) || (j.op == 0x22 && j.cur == 0 && j.last == 1)) then s.endJob id 0
      else s

/-! ### SANITIZE -/

/-- The lines of a page's backing written with the all-zero code word: how many, and the state. -/
def State.zeroBacking (s : State) (e : Entry) (dpa : Nat) : Nat × State :=
  let p := s.page (e.mapKey dpa)
  let zero := fun (s : State) (x : Nat × Nat) => let y := s.resolve x.1 x.2; (s.dropWrites y.1 y.2).placeBytes y.1 y.2 0 false
  if p.state == 1 then
    (64, (List.range 64).foldl (fun s i => zero s (firewoodLine e p (dpa + 64 * i))) s)
  else if p.state == 2 then
    (p.sectors, (List.range p.sectors).foldl (fun s i => zero s (p.cchan, p.csect + i)) s)
  else (0, s)

/-- Scope 0 of SANITIZE on a domain (R355): lines overwritten, slots destroyed. -/
def State.sanitizeDomain (s : State) (d : Nat) : Nat × Nat × State :=
  let e := s.entry d
  let base := e.mapBase * 256
  let s := s.endMigsOf d 0x68
  let ks := if s.storesShare e then keysIn s.tier.pmap base (base + e.pages) else []
  let (n, s) := ks.foldl (fun (a : Nat × State) k =>
    let (m, s) := a.2.zeroBacking e (a.2.pageDpa e (k - base))
    (a.1 + m, s)) (0, s)
  let s := ((s.dropWaiting d).dropBlocks d).dropRangeOf e.baseAddr (e.baseAddr + e.bytes)
  let s := { s with kind := { s.kind with fills := s.kind.fills.filter fun f => f.dom != d } }
  let s := (s.clearPages e 0 e.pages).forgetDomain d
  if (s.slot d).st == 0 || (s.slot d).st == 3 then (n, 0, s) else (n, 1, s.startErase d e none none)

/-- Scope 1 of SANITIZE: every line of the channels that take accesses, outside the metadata reserve. -/
def State.sanitizeLines (s : State) : Nat × State :=
  let ns := (List.range 16).filter s.chanTakes
  let total := ns.foldl (fun a n => a + s.dataExtents n * 32768) 0
  let gone := fun (k : Nat) => s.chanTakes (k / 2 ^ 34) && decide (k % 2 ^ 34 < s.dataExtents (k / 2 ^ 34) * 32768)
  let clear := fun (n : Nat) (c : Chan) => { c with
    scrub := [], save := c.save.map fun r => { r with lines := Tab.empty },
    poisonList := c.poisonList.filter fun l => decide (l ≥ s.dataExtents n * 32768) }
  let s := ns.foldl (fun s n => (s.updChan n (clear n)).clr (R.CH_ECCSTAT_PLFULL n)) s
  (total, { s with dram := { s.dram with lines := s.dram.lines.drop gone } })

/-- Key slots of a scope destroyed. -/
def State.destroySlots (s : State) (p : Nat → Bool) : Nat × State :=
  let ks := (s.eng.slots.cells.filter fun c => c.2.st != 0 && c.2.st != 3 && p c.1).map (·.1)
  (ks.length, ks.foldl (fun s d => s.startErase d (s.entry d) none none) s)

/-- Channels that a sanitize does not overwrite: Retired and Failed ones. -/
def State.unwritten (s : State) : Nat := ((List.range 16).filter fun n => s.chanState n == 5 || s.chanState n == 6).length

/-- A SANITIZE run (R355): lines overwritten, slots destroyed, channels not overwritten. -/
def State.sanitize (s : State) (scope d : Nat) : Nat × Nat × Nat × State :=
  let plain := fun (s : State) (ds : List Nat) => ds.foldl (fun (a : Nat × Nat × State) d =>
    let (n, k, s) := a.2.2.sanitizeDomain d
    (a.1 + n, a.2.1 + k, s)) (0, 0, s)
  let out := s.unwritten
  if scope == 0 then let (n, k, s) := s.sanitizeDomain d; (n, k, out, s)
  else if scope == 1 then
    let (_, k1, s) := plain s (s.domains.map (·.1))
    let (k2, s) := s.destroySlots fun _ => true
    let (n, s) := s.sanitizeLines
    (n, k1 + k2, out, s)
  else
    let (n, _, s) := plain s ((s.domains.filter fun c => !Entry.encrypt c.2).map (·.1))
    let (k, s) := s.destroySlots fun d => (s.entry d).encrypt
    (n, k, out, s)

/-- A SANITIZE ends once every erase it began has ended. -/
def State.settleSanitize (s : State) (j : Job) : State :=
  if s.eng.erases.any fun x => j.kind != 0 || x.dom == j.dom then s else s.endJob j.id 0

/-! ### RESIZE -/

/-- The entry with another SIZE. -/
def Entry.withSize (e : Entry) (n : Nat) : Entry := setFld e 114 89 n

/-- The release walk of a shrink (R356): pages released, and the state. -/
def State.releasePages (s : State) (d : Nat) (e : Entry) (lo hi : Nat) : Nat × State :=
  let base := e.mapBase * 256
  let n := ((keysIn s.tier.pmap (base + lo) (base + hi)).filter fun k => (s.page k).state != 0).length
  let a := e.baseAddr + lo * e.ways * 4096
  let b := e.baseAddr + hi * e.ways * 4096
  let past := fun (x : Nat) => decide (a ≤ x) && decide (x < b)
  let keep := fun (j : CzJob) => j.dom != d || !past (j.granule * 1024)
  let s := { s with
    eng := { s.eng with
      cq := (List.range 16).foldl (fun t e => t.upd e fun q => q.filter keep) s.eng.cq
      czWait := s.eng.czWait.filter keep
      czHeld := s.eng.czHeld.filter keep }
    kind := { s.kind with fills := s.kind.fills.filter fun f => f.dom != d || !past (f.granule * 1024) }
    tier := { s.tier with tagHeld := s.tier.tagHeld.filter fun x => x.1 != d || !past (x.2.1 * 1024) }
    dram := { s.dram with media := s.dram.media.filter fun x => x.1 != d || !past x.2.1 } }
  let s := (List.range 16).foldl (fun s e => s.wr (R.ENG_CZSTAT_CQ e) (s.eng.cq.get e).length) s
  (n, (s.dropRangeOf a b).clearPages e lo hi)

/-- A RESIZE brought as far as it goes now (R356): `bins` is the old SIZE and `limit` the new one. -/
def State.settleResize (s : State) (j : Job) : State :=
  let d := j.dom
  let e := s.entry d
  let oldPages := j.bins * 512 / e.ways
  let newPages := j.limit * 512 / e.ways
  let edge := min oldPages newPages
  let base := e.mapBase * 256
  if !e.valid then s.endJob j.id 0x68
  else if j.phase == 0 then
    if j.stop then s.endJob j.id 0x67
    else if j.hold then (s.updJob j.id fun j => { j with hold := false }).jobTo j.id 2
    else if j.st != 1 || (s.tier.migs.any fun m => m.dom == d && decide (m.page ≥ base + edge)) then s
    else
      let s := (keysIn s.tier.pmap (base + oldPages) (base + newPages)).foldl (fun s k => s.setPage k 0) s
      let s := s.updJob j.id fun j => { j with phase := 1, done := if newPages > oldPages then j.total else j.done }
      s.askCommit d (Entry.withSize e j.limit) none 5 j.id
  else if j.phase == 3 then s.endJob j.id j.status
  else if j.phase == 2 then
    if newPages ≥ oldPages then s.endJob j.id 0
    else if j.hold then (s.updJob j.id fun j => { j with hold := false }).jobTo j.id 2
    else if j.st != 1 || (s.coh.txs.any fun t => t.busy && t.req.dom == d && decide (t.line ≥ e.baseAddr + e.bytes)) then s
    else
      let (n, s) := s.releasePages d e newPages oldPages
      (s.updJob j.id fun j => { j with n2 := n, done := j.total }).endJob j.id 0
  else s

/-! ### AUDIT -/

/-- A count of the summary raised, saturating (R210): bytes `lo` on, `n` bytes wide. -/
def auditAdd (a : BitVec 512) (lo n k : Nat) : BitVec 512 :=
  let v := fld a (8 * (lo + n) - 1) (8 * lo) + k
  let top := 2 ^ (8 * n) - 1
  let a := setFld a (8 * (lo + n) - 1) (8 * lo) (min v top)
  if v > top then setFld a 424 424 1 else a

/-- The first lasting fault noted (Table 09-4). -/
def auditBad (a : BitVec 512) (off : Nat) : BitVec 512 :=
  if fld a 511 464 == 2 ^ 48 - 1 then setFld a 511 464 (off / 64) else a

/-- The outcome of one line or sector counted (R210); a lost sector is counted once for its block. `found` is whether the line was in
poison form when the pass came to it. -/
def auditLine (a : BitVec 512) (v : Verdict) (off : Nat) (sector found : Bool) : BitVec 512 :=
  let a := if found then auditAdd a 44 4 1 else a
  if v.cls == 0 then a
  else if v.cls == 1 then auditAdd a 32 4 1
  else auditBad (if !v.ue then auditAdd a 36 4 1 else if sector then a else auditAdd a 40 4 1) off

/-- The summary at the start of a pass. -/
def auditStart (d id : Nat) : BitVec 512 :=
  setFld (BitVec.ofNat 512 (0x0A01 + d * 2 ^ 16 + id * 2 ^ 32)) 511 464 (2 ^ 48 - 1)

/-- What the read of line or sector i of a granule meets. -/
def metAt (errs : List (Nat × CodeWord × CodeWord)) (i : Nat) : CodeWord × CodeWord :=
  ((errs.find? fun x => x.1 == i).map fun x => (x.2.1, x.2.2)).getD (0, 0)

/-- What an audit's read of one line or sector gives: its bytes, those that a second read gives (R147), and whether it is lost. -/
structure AuditRead where
  first : Line
  again : Line
  lost : Bool
deriving DecidableEq, Repr, Inhabited

/-- Whether an audit may read a line now: it waits for a slot of the background class, and where the line will have to be read again for
an entry of the audit re-read reservation (R209, Table 01-7). A line with a write that waits is answered from that (R168). -/
def State.auditFree (s : State) (x : Nat × Nat) (met : CodeWord × CodeWord) : Bool :=
  let (c, l) := s.resolve x.1 x.2
  s.inQueue c l || (s.bgFree c l && decide ((s.sub c (l % 2)).retry.length ≤ 16) &&
    ((s.readNow c l met.1).sound || decide (s.claim.retry.get ((c * 2 + l % 2) * 256 + 0x43) > 0)))

/-- One stored line or sector of a granule read by an audit (R209). -/
def State.auditRead (s : State) (x : Nat × Nat) (met : CodeWord × CodeWord) (off : Nat) (sector : Bool) (a : BitVec 512) :
    AuditRead × BitVec 512 × State :=
  let (c, l) := s.resolve x.1 x.2
  if s.inQueue c l then
    let d := s.storedNow c l
    ({ first := d.stored, again := d.stored, lost := false }, if d.bad then auditAdd a 44 4 1 else a, s)
  else
    let a := if maskCount (s.maskOf c l) ≥ 2 then setFld a 425 425 1 else a
    let again := (s.readNow c l met.2).stored
    let found := match s.readNow c l met.1 with
      | .poison _ | .poisonCorrected _ _ => true
      | _ => false
    let (v, s) := s.checkLine c l met.1 met.2
    ({ first := v.bytes, again := again, lost := v.ue && v.cls == 2 }, auditLine a v off sector found, s)

/-- The tag and format check of a block by an audit (R138, R146, R147): one that fails is read once more; its failure is transient, or
lasting and handled so. -/
def State.auditBlock (s : State) (d : Nat) (e : Entry) (p : PageEntry) (granule : Nat) (rs : List AuditRead) (a : BitVec 512) :
    BitVec 512 × State :=
  let f := e.fillOf d p granule
  let check := fun (g : AuditRead → Line) => s.checkBlock d e granule f.n (rs.map fun r => leBytes 64 (g r)).flatten
  let c1 := check AuditRead.first
  let c2 := check AuditRead.again
  if rs.any AuditRead.lost then (auditAdd a 50 2 1, s)
  else if c1.data.isSome then (a, s)
  else if c2.data.isSome then
    (auditAdd a 48 2 1, (s.noteCheck f c1).logTag f (if c1.tagged then 0x0302 else 0x0301) (if c1.tagged then 0 else c1.type2) false)
  else (auditBad (auditAdd a 50 2 1) (granuleOff e granule), s.failBlock f c1 c2)

/-- The lines or sectors that an audit reads of a granule, by channel before redirection. -/
def auditLines (e : Entry) (p : PageEntry) (granule : Nat) : List (Nat × Nat) :=
  if p.state == 1 then (List.range 16).map fun i => firewoodLine e p (granule * 1024 + 64 * i)
  else if p.state == 2 then
    (List.range (p.blen (granule % 4))).map fun i => (p.cchan, p.csect + p.blockAt (granule % 4) + i)
  else []

/-- One granule of an audit pass read and checked (R209). `errs` gives, by line or sector, the symbols disturbed on its read
and on its second read. -/
def State.auditGranule (s : State) (j : Job) (errs : List (Nat × CodeWord × CodeWord)) : State :=
  let d := j.dom
  let e := s.entry d
  let gr := s.pageDpa e (j.cur / 4) / 1024 + j.cur % 4
  let p := s.page (e.mapKey (gr * 1024))
  let ls := auditLines e p gr
  let sector := p.state == 2
  let met := fun i => metAt errs i
  if !((List.range ls.length).all fun i => s.auditFree (ls.getD i (0, 0)) (met i)) then s
  else
    let a := j.audit
    let a := if j.cur % 4 == 0 then
        (if p.state == 1 then auditAdd a 24 4 1 else if p.state == 2 then auditAdd a 28 4 1 else a) else a
    let a := if !ls.isEmpty && fld a 127 64 == 0 then setFld a 127 64 s.gtc else a
    let a := if !ls.isEmpty then setFld a 191 128 s.gtc else a
    let off := granuleOff e gr
    let (rs, a, s) := (List.range ls.length).foldl (fun (x : List AuditRead × BitVec 512 × State) i =>
      let (r, a, s) := x.2.2.auditRead (ls.getD i (0, 0)) (met i) (if sector then off else off + 64 * i) sector x.2.1
      (x.1 ++ [r], a, s)) ([], a, s)
    let (a, s) := if sector && !ls.isEmpty then s.auditBlock d e p gr rs a else (a, s)
    s.updJob j.id fun j => { j with audit := a, cur := j.cur + 1, done := j.done + 1 }

/-- The end of an audit with the status of its summary and of its job. -/
def State.endAudit (s : State) (id sum status : Nat) : State :=
  (s.updJob id fun j => { j with audit := setFld j.audit 423 416 sum }).endJob id status

/-- An audit that must end now: its domain or its key is gone, it has been cancelled, or its last granule is past. -/
def State.settleAudit (s : State) (j : Job) : State :=
  let e := s.entry j.dom
  if !e.valid then s.endAudit j.id 2 0x68
  else if e.encrypt && ((s.slot j.dom).st == 0 || (s.slot j.dom).st == 3) then s.endAudit j.id 3 0x68
  else if j.stop then s.endAudit j.id 1 0x67
  else if j.st == 1 && j.cur ≥ j.last then s.endAudit j.id 0 0
  else s

/-- AUDIT_GRANULE (R209): the next granule of a running audit. -/
def State.auditStep (s : State) (id : Nat) (errs : List (Nat × CodeWord × CodeWord)) : State :=
  match s.job id with
  | some j => if j.op == 0x20 && j.st == 1 && j.cur < j.last && s.serving then s.auditGranule j errs else s
  | none => s

/-! ### Settling -/

/-- A job brought as far as it goes now. -/
def State.settleJob (s : State) (id : Nat) : State :=
  match s.job id with
  | none => s
  | some j =>
    match j.op with
    | 0x20 => s.settleAudit j
    | 0x21 | 0x22 => s.settleMoves id
    | 0x23 => s.settleSanitize j
    | 0x24 => s.settleResize j
    | _ => s

/-- Every job brought as far as it goes now. -/
def State.settleJobs (s : State) : State := (s.ring.jobs.map (·.id)).foldl (fun s i => s.settleJob i) s

/-- The narrow writes of every channel whose lines have been read merged as far as they can be. -/
def State.mergeAll (s : State) : State := s.dram.chans.cells.foldl (fun s c => s.settleMerges c.1) s

/-- What the device does at once after a command: merges, homes, snoops, jobs and groups go on as far as they can. -/
def State.finish (s : State) : State := s.mergeAll.settleAll.settleJobs.settleGroups.settleAll

/-- A Queued job whose conflicting job is Done starts (R353). -/
def State.startJob (s : State) (id : Nat) : State :=
  match s.job id with
  | some j =>
    let first := (s.ring.jobs.find? fun x => x.op == 0x20 && x.dom == j.dom && x.st != 0).isNone &&
      ((s.ring.jobs.find? fun x => x.op == 0x20 && x.dom == j.dom && x.st == 0).map (·.id)) == some id
    if j.st == 0 && first then s.jobTo id 1 else s
  | none => s

/-- JOB_START (R353). -/
def execJobStart (job : BitVec 32) (s : State) : Answer := .next (s.startJob job.toNat).finish

/-- AUDIT_GRANULE (R209). -/
def execAuditGranule (job : BitVec 32) (errs : List (Nat × CodeWord × CodeWord)) (s : State) : Answer :=
  .next (s.auditStep job.toNat errs).finish

end Sys2Proof.Machine
end

