-- ==== Sys2Proof/Machine/TierCmd.lean ====
section
/-!
DEFINITION. The events of domains, tiers, blocks and keys whose operations stand in earlier files: commits that end, heat,
migrations, block fills, engines, and the erase walk. Each ends what it lets jobs, groups and waiting requests do next.
-/
namespace Sys2Proof.Machine

/-- Steps 4 and 5 of a commit (Table 02-5, R53). -/
def execDomainCommitComplete (dom : BitVec 14) (s : State) : Answer := .next (s.commitOn dom.toNat).finish

/-- `CHIP_TMCTL` written (R109). -/
def execTmctlEpochWrite (p : Path) (val : BitVec 32) (s : State) : Answer :=
  .next (s.viaPath p R.CHIP_TMCTL fun s => s.writeTmctl val).finish

/-- The end of a heat epoch (R107). -/
def execHeatEpochTick (s : State) : Answer :=
  .next { s with tier := { s.tier with epoch := (s.tier.epoch + 1) % 2 ^ 64 } }

/-- A map owner's sweep visits an entry (R108). -/
def execHeatSweep (owner : Fin 16) (s : State) : Answer := .next (s.sweepStep owner)

/-- A map owner's resync pass visits an entry (R109). -/
def execResyncPass (owner : Fin 16) (s : State) : Answer := .next (s.resyncStep owner)

/-- The tier manager's own compaction (R114). -/
def execTierCompaction (s : State) : Answer := .next s.compactOwn.finish

/-- Steps 5 and 6 of a migration (Table 05-4, R111). -/
def execMigrationCopyComplete (mig : Nat) (s : State) : Answer := .next (s.holdMig mig).finish

/-- Steps 7 to 9 of a migration (R111). -/
def execMigrationFlip (mig : Nat) (s : State) : Answer := .next (s.flipMig mig).finish

/-- A block installed (R61). -/
def execBlockFill (fill : Nat) (s : State) : Answer := .next (s.installFill fill).finish

/-- A compressor's oldest block is done, or met a fault (R136, R138). -/
def execCompressionDone (engine : Fin 16) (fault : Bool) (s : State) : Answer := .next (s.compressDone engine fault).finish

/-- A decompressor's oldest block is done, or met a fault (R136, R138). -/
def execDecompressionDone (engine : Fin 16) (fault : Bool) (s : State) : Answer :=
  .next (s.decompressDone engine fault).finish

/-- The erase walk of a destroy ends (step 4 of Table 07-9, R155). -/
def execEraseWalkDone (dom : BitVec 14) (s : State) : Answer := .next (s.eraseWalkDone dom.toNat).finish

end Sys2Proof.Machine
end

