-- ==== Sys2Proof/Machine/Lost.lean ====
section
/-!
DEFINITION. What follows the loss of a pool device (R98, R387) and of this device (R379), and the priority of wake patterns
toward sleeping peers (R435).
-/
namespace Sys2Proof.Machine

/-! ### Lost peers -/

/-- The directory once a device is lost (R98): its lines in PE stored as poison, its pointers and vector bits gone. -/
def State.dropHolder (s : State) (d : Nat) : State :=
  let places := s.coh.dir.cells.map fun c => s.dirPlace c.1
  places.foldl (fun s x =>
    let s := (List.range 4).foldl (fun s i =>
      let a := x.2 + 64 * i
      let bits := s.dirBits x.1 a
      if dirPtr bits i == d && dirLs bits i == dirPE then (s.dirLine x.1 a dirU 0).absorb a 0 true
      else if dirPtr bits i == d && dirLs bits i == dirSF then s.dirLine x.1 a dirSH 0
      else s) s
    if (s.dirWay x.1 x.2).isSome then s.putDir x.1 x.2 (dirPeer (s.dirBits x.1 x.2) d false) else s) s

/-- Every snoop outstanding to a lost device counts as answered with RspI, and no writeback of it is awaited (R98). -/
def State.answerFor (s : State) (d : Nat) : State :=
  (s.coh.txs.map (·.id)).foldl (fun s id =>
    match s.tx id with
    | none => s
    | some t =>
      if t.wbWait.contains d then (s.updTx id fun t => { t with wbWait := t.wbWait.filter (· != d) }).advance id
      else if t.phase == .snoop && t.peers.contains d then s.onResponse { (default : Msg) with opc := 0x40, src := d, txn := id } false
      else s) s

/-- The requests outstanding to a lost device end with Err HOME_LOST (R98). -/
def State.failRequests (s : State) (d : Nat) : State :=
  let lost := fun (txn : Nat) => { (default : Msg) with opc := 0x45, src := d, txn := txn, err := 3 }
  let s := ((s.coh.reqs.filter fun t => t.home == d).map (·.txn)).foldl (fun s n => s.onErr (lost n)) s
  let s := ((s.coh.mirOut.filter fun x => x.2.2 == d).map (·.1)).foldl (fun s n => s.onErr (lost n)) s
  ((s.link.preqs.filter fun t => t.home == d).map (·.txn)).foldl (fun s n => s.onErr (lost n)) s

/-- What waits to be sent to a lost device, what it asked for, and the credits it granted, dropped (R387). -/
def State.forgetPeer (s : State) (d : Nat) : State :=
  let mine := fun (r : Req) => r.agent == .peer d
  let of2 := fun (k : Nat) => k / 2 == d
  { s with
    rgl := { s.rgl with admq := ⟨s.rgl.admq.cells.map fun c => (c.1, c.2.filter fun w => !mine w.req)⟩ }
    coh := { s.coh with
      ordq := ⟨s.coh.ordq.cells.map fun c => (c.1, c.2.filter fun r => !mine r)⟩
      snpWait := s.coh.snpWait.filter fun m => m.src != d }
    mesh := s.mesh.mapReqs fun r => if mine r then none else some r
    link := { s.link with
      outq := s.link.outq.put d [], pwait := s.link.pwait.put d [], pcr := s.link.pcr.drop of2, pout := s.link.pout.drop of2,
      pret := s.link.pret.drop of2, outst := s.link.outst.drop fun k => k / 8 == d,
      mgtAt := s.link.mgtAt.filter fun x => x.1 != d } }

/-- Empty queues are not listed. -/
def State.tidyQueues (s : State) : State :=
  { s with
    rgl := { s.rgl with admq := ⟨s.rgl.admq.cells.filter fun c => !c.2.isEmpty⟩ }
    coh := { s.coh with ordq := ⟨s.coh.ordq.cells.filter fun c => !c.2.isEmpty⟩ } }

/-- MIRRORLOST for every domain replicated to a device (R387). -/
def State.loseMirrors (s : State) (d : Nat) : State :=
  s.domains.foldl (fun s c =>
    let e : Entry := c.2
    if e.repl && e.replDev == d && !e.mirrorLost then
      (s.setEntry c.1 (setFld e 400 400 1)).log { type := 0x0308, sev := 2, level := 3, ukind := 8, unit := d, dom := c.1 }
    else s) s

/-- A pool device declared lost (R387). -/
def State.losePeer (s : State) (d : Nat) : State :=
  if s.peerLost d || d == s.devNum then s
  else
    let s := s.set1 ((R.CF_STAT_PEERLOST).bitAt d)
    let s := s.log { type := 0x010B, sev := 2, level := 3, ukind := 8, unit := d }
    let s := (((s.loseMirrors d).dropHolder d).answerFor d).failRequests d
    (s.forgetPeer d).tidyQueues

/-! ### This device lost -/

/-- The device declared lost for a cause of Table 17-2 (R379): Viral, an AER Uncorrectable Internal Error and the Fatal log on every head (R311). -/
def State.loseDevice (s : State) (cause : Nat) : State :=
  if s.lost then s
  else
    let s := s.log { type := 0x0608, sev := 4, level := 3, ukind := 7, detail := BitVec.ofNat 128 cause }
    let s := ((s.set1 R.CF_STAT_DEVLOST).wr R.CF_STAT_CAUSE cause).life 6
    let s := s.headLogAll 3 0x0608 0xFFFF 0
    ((List.range 32).filter fun p => (s.place p).on).foldl (fun s p => s.updHead p fun h => { h with viral := true, aer := true }) s

/-! ### Wake patterns -/

/-- Whether a group's link is out of L0 while the outbound store holds a message for the peer last seen on it (R435). -/
def State.wantsWake (s : State) (g : Nat) : Bool :=
  s.lane.mode.get g == 2 && s.rd (R.PG_LKSTAT_LTSTATE g) != 6 &&
    !(s.link.outq.get (s.rd (R.PG_LKSTAT_PEERDEV g))).isEmpty && (s.link.peerEpoch.get (s.rd (R.PG_LKSTAT_PEERDEV g))).isSome

/-- `WAKETX` of every Pennant group rewritten by the manager, at a change of state, of link state or of what waits (R435). -/
def State.wakeTxSync (s : State) : State :=
  ((List.range 16).filter fun g => s.lane.mode.get g == 2).foldl (fun s g => s.wr (R.PG_SDCTL_WAKETX g) (b2n (s.wantsWake g))) s

end Sys2Proof.Machine
end

