-- ==== Sys2Proof/Machine/LaneOps.lean ====
section
/-!
DEFINITION. The lanes of a port group (R248 to R252, R257 to R259): their states, what ends when a lane changes state,
and the start of detection and training.
-/
namespace Sys2Proof.Machine

/-- A lane. -/
def State.laneOf (s : State) (g l : Nat) : Lane := s.lane.lanes.get (g * 16 + l)
/-- The state with a lane changed. -/
def State.updLane (s : State) (g l : Nat) (f : Lane → Lane) : State :=
  { s with lane := { s.lane with lanes := s.lane.lanes.upd (g * 16 + l) f } }
/-- A lane's state code (Table 11-4). -/
def State.laneSt (s : State) (g l : Nat) : Nat := s.rd (R.PG_LN_STAT_STATE g l)
/-- The `MODE` in force of a group (R241): 0 off, 1 CXL, 2 Pennant, 3 Test. -/
def State.pgMode (s : State) (g : Nat) : Nat := s.lane.mode.get g
/-- The lanes that a group trains: 0 to 7 in CXL mode, all nine in Pennant mode (R241, R248). -/
def State.groupLanes (s : State) (g : Nat) : List Nat := if s.pgMode g == 2 then List.range 9 else List.range 8
/-- The excluded lane. -/
def State.excl (s : State) (g : Nat) : Nat := s.rd (R.PG_SDSTAT_EXCL g)

/-- A margin run or host margin command on a lane ends aborted (R257). -/
def State.abortMargin (s : State) (g l : Nat) : State :=
  if s.flag (R.PG_LN_MARGSTAT_BUSY g l) then
    ((s.clr (R.PG_LN_MARGSTAT_BUSY g l)).wr (R.PG_LN_MARGSTAT_RESULT g l) 2).updLane g l fun x => { x with margHost := false }
  else s

/-- A lane enters a state: `LNFAIL` and `CDRLOCK` follow it; a run of its sampler ends when it leaves Active, Standby and
Test (R257); in Standby the hardware runs PRBS31 (R253). -/
def State.setLane (s : State) (g l st : Nat) : State :=
  let was := s.laneSt g l
  let s := (s.wr (R.PG_LN_STAT_STATE g l) st).wr ((R.PG_SDSTAT_LNFAIL g).bitAt l) (b2n (st == 5))
  let s := s.wr (R.PG_LN_STAT_CDRLOCK g l) (b2n (st == 3 || st == 4))
  let s := if st == 4 then s.wr (R.PG_LN_PRBSCTL_CHK g l) 5
    else if was == 4 then (s.clr (R.PG_LN_PRBSCTL_CHK g l)).clr (R.PG_LN_PRBSCTL_LOCK g l)
    else s
  if st == 3 || st == 4 || st == 6 then s else s.abortMargin g l

/-- Detection begun on a lane (R258): `was` is 0 in training, else 1 + the state it returns to. -/
def State.startDetect (s : State) (g l was : Nat) : State :=
  let s := ((s.set1 (R.PG_LN_DETECT_BUSY g l)).clr (R.PG_LN_DETECT_TXRES g l)).clr (R.PG_LN_DETECT_RXRES g l)
  (s.setLane g l 1).updLane g l fun x => { x with was := was }

/-- Training of a group's lanes begun: each that is not Failed is detected first (R258). -/
def State.startLanes (s : State) (g : Nat) : State :=
  ((s.groupLanes g).filter fun l => s.laneSt g l != 5).foldl (fun s l => s.startDetect g l 0) s

/-- The lanes of a group powered down; Failed ones stay so (R251). -/
def State.lanesOff (s : State) (g : Nat) : State :=
  ((List.range 9).filter fun l => s.laneSt g l != 5).foldl (fun s l =>
    (s.clr (R.PG_LN_DETECT_BUSY g l)).setLane g l 0) s

/-- A lane as a Port reset or a Cold reset leaves it: `MARGSTAT`, `STAT` and `DETECT` at Reset, so that a Failed one is Off again
(R251, R473). -/
def State.laneReset (s : State) (g l : Nat) : State :=
  let s := [R.PG_LN_MARGSTAT g l, R.PG_LN_STAT g l, R.PG_LN_DETECT g l].foldl (fun s o => s.setReg o (regReset o)) (s.setLane g l 0)
  s.updLane g l fun x => { x with judge := 0, was := 0, margHost := false }

/-- DFE taps that a rate uses (Table 11-1). -/
def rateTaps (rate : Nat) : Nat := [0, 0, 0, 8, 8, 16, 16, 16].getD rate 0

/-- The tap fields of a `PGg_LNl_DFEk` word with those held at 0 that the rate does not use (R245). -/
def usedTaps (rate k : Nat) (v : BitVec 32) : BitVec 32 :=
  (List.range 4).foldl (fun (v : BitVec 32) i => if 4 * k + i < rateTaps rate then v else setFld v (8 * i + 7) (8 * i) 0) v

/-- A group's rate in force; the taps that it does not use are held at 0 (R241, R245). -/
def State.setRate (s : State) (g rate : Nat) : State :=
  (List.range 9).foldl (fun s l => (List.range 4).foldl (fun s k =>
    s.setReg (R.PG_LN_DFE g l k) (usedTaps rate k (s.reg (R.PG_LN_DFE g l k)))) s) (s.wr (R.PG_SDSTAT_RATECUR g) rate)

/-- Whether a rate is in force on a lane: it adapts, carries traffic, stands by or is tested. -/
def State.rated (s : State) (g l : Nat) : Bool := [2, 3, 4, 6].contains (s.laneSt g l)

/-- The excluded lane of a Pennant group in warm standby, or powered down (R250). -/
def State.standExcluded (s : State) (g : Nat) : State :=
  let l := s.excl g
  if s.laneSt g l == 5 || s.laneSt g l == 1 then s
  else s.setLane g l (if s.flag (R.PG_SDCTL_SPAREPWR g) then 4 else 0)

/-- Every lane of a group into Test; what ran on it ends (R263). -/
def State.lanesTest (s : State) (g : Nat) : State :=
  (List.range 9).foldl (fun s l => ((s.abortMargin g l).clr (R.PG_LN_DETECT_BUSY g l)).setLane g l 6) s

end Sys2Proof.Machine
end

