-- ==== Sys2Proof/Machine/PortOps.lean ====
section
/-!
DEFINITION. Where the logical ports stand (R297), and what a Port reset does to one (R314).
-/
namespace Sys2Proof.Machine

/-! ### Layout -/

/-- `WIDTH` in force of a group (R297). -/
def State.cxlWidth (s : State) (g : Nat) : Nat := fld (s.lane.cfg.get g) 31 30

/-- Whether a group in CXL mode is held down by an x16 setting that it and its partner do not share (R297). -/
def State.badWidth (s : State) (g : Nat) : Bool :=
  let o := if g % 2 == 0 then g + 1 else g - 1
  let wide := fun g => s.pgMode g == 1 && s.cxlWidth g == 2
  s.cxlWidth g == 3 || ((wide g || wide o) && !(wide g && wide o))

/-- The ports of a group: number and place. -/
def State.groupPorts (s : State) (g : Nat) : List (Nat × PortPlace) :=
  let c := s.lane.cfg.get g
  let p0 : Nat × PortPlace := (fld c 29 25, { on := true, group := g, half := 0, wide := s.cxlWidth g == 2 })
  if s.pgMode g != 1 || s.badWidth g then []
  else
    match s.cxlWidth g with
    | 0 => [p0]
    | 1 => [p0, (fld c 24 20, { on := true, group := g, half := 1, wide := false })]
    | _ => if g % 2 == 0 then [p0] else []

/-- The ports in ascending group, each number taken once; and the groups where a number was taken already (R297). -/
def State.layout (s : State) : Tab PortPlace × List Nat :=
  (((List.range 16).map s.groupPorts).flatten).foldl (fun (a : Tab PortPlace × List Nat) x =>
    if (a.1.get x.1).on then (a.1, x.2.group :: a.2) else (a.1.put x.1 x.2, a.2)) (Tab.empty, [])

/-- Whether a group's setting holds its links down (R297). -/
def State.portCfgError (s : State) (g : Nat) : Bool := (s.pgMode g == 1 && s.badWidth g) || s.layout.2.contains g

/-! ### A port's status -/

/-- A port's fields of `PGg_CXLSTAT` brought up to its head. -/
def State.portSync (s : State) (p : Nat) : State :=
  if !(s.place p).on then s
  else
    let s := s.wr (s.ofHalf p R.PG_CXLSTAT_FLIT0 R.PG_CXLSTAT_FLIT1) (s.head p).flit
    (s.wr (s.ofHalf p R.PG_CXLSTAT_DB0 R.PG_CXLSTAT_DB1) (b2n (s.hdmDb p))).biSync p

/-- A change of a port's state or tolerance: the limit recomputed, and LATENCY raised with the port (R344, R430). -/
def State.portChanged (s : State) (p : Nat) : State := s.limitSync.event 0x13 p

/-! ### Port reset -/

/-- A request whose response goes nowhere (R314); its credit is the link's no more. -/
def Req.cut (p : Nat) (r : Req) : Req :=
  if r.agent == .host p && r.tag < 2 ^ 16 then { r with tag := 2 ^ 16 + r.tag, credit := 0 } else r

/-- Every request of a port in the device cut off; the responses that wait for it discarded. -/
def State.cutRequests (s : State) (p : Nat) : State :=
  let mine := fun (e : Egress) => e.toHost && e.req.agent == .host p
  let egress := s.rgl.egress.cells.map fun c => (c.1, c.2.filter fun e => !mine e)
  { s with
    rgl := { s.rgl with
      admq := ⟨s.rgl.admq.cells.map fun c => (c.1, c.2.map fun w => { w with req := w.req.cut p })⟩
      egress := ⟨egress.filter fun c => !c.2.isEmpty⟩
      taken := s.rgl.taken.drop fun k => k / 2 == p
      owed := s.rgl.owed.drop fun k => k / 2 == p }
    coh := { s.coh with
      txs := s.coh.txs.map fun t => { t with req := t.req.cut p }
      ordq := ⟨s.coh.ordq.cells.map fun c => (c.1, c.2.map (Req.cut p))⟩
      reqs := s.coh.reqs.map fun t => { t with req := t.req.cut p }
      biCredit := s.coh.biCredit.put p 0 }
    mesh := s.mesh.mapReqs fun r => some (r.cut p)
    link := { s.link with preqs := s.link.preqs.map fun t => { t with req := t.req.cut p } }
    ring := { s.ring with subs := (s.ring.subs.put p none).put (32 + p) none } }

/-- A head after a Function Level Reset: its CXL.io function's state (R314). A background command's result is not reported. -/
def Head.flr (h : Head) : Head :=
  { h with mbx := false, tolScale := 0, tolVal := 0, ltrSent := false, bg := none, bgDone := none }

/-- A head after a Port reset (R314): link down, no decoders, no IDE. Its event logs stay. -/
def Head.reset (h : Head) : Head :=
  { h.flr with flit := 0, biEn := false, l1 := false, dec := Tab.empty, ide := 0, ideKey := none, ideIo := none }

/-- The lanes of a port (R241). -/
def PortPlace.lanes (x : PortPlace) (two : Bool) : List (Nat × Nat) :=
  if !x.on then []
  else if two then (List.range 4).map fun i => (x.group, 4 * x.half + i)
  else
    let all := fun g => (List.range 8).map fun l => (g, l)
    if x.wide then all x.group ++ all (x.group + 1) else all x.group

/-- A Port reset of a logical port (R314): its lanes and its status fields too (R473). -/
def State.portReset (s : State) (p : Nat) : State :=
  let g := (s.place p).group
  let s := ((s.place p).lanes (s.cxlWidth g == 1)).foldl (fun s x => s.laneReset x.1 x.2) s
  let s := if (s.place p).on then (s.clr (R.PG_CXLSTAT_CFGERR g)).clr (R.PG_CXLSTAT_BISTL g) else s
  (((s.cutRequests p).updHead p Head.reset).portSync p).portChanged p

/-- The layout applied to a group that starts again: its ports reset, and its setting checked (R297). -/
def State.placeGroup (s : State) (g : Nat) : State :=
  let s := { s with lane := { s.lane with cfg := s.lane.cfg.put g (s.reg (R.PG_CXLCFG g)) } }
  let old := s.host.place
  let new := s.layout.1
  let moved := (List.range 32).filter fun p => old.get p != new.get p
  let s := moved.foldl (fun s p => s.portReset p) s
  let s := ((s.clr (R.PG_CXLSTAT_BIOUT0 g)).clr (R.PG_CXLSTAT_BIOUT1 g))
  let s := { s with host := { s.host with place := new } }
  let s := moved.foldl (fun s p => s.portSync p) s
  let s := (List.range 32).foldl (fun s p => if (s.place p).group == g then s.portSync p else s) s
  if s.portCfgError g then
    (s.set1 (R.PG_CXLSTAT_CFGERR g)).log { type := 0x0109, sev := 2, level := 1, ukind := 1, unit := g }
  else s

end Sys2Proof.Machine
end

