-- ==== Sys2Proof/Machine/Link.lean ====
section
/-!
DEFINITION. The training of a Pennant link (R286 to R292): its states, retrain and full reset, the leader's decisions, boot epochs,
and entry to L0 and Failed.
-/
namespace Sys2Proof.Machine

/-! ### One end -/

/-- This end of a group's link. -/
def State.linkEnd (s : State) (g : Nat) : LinkEnd := s.link.ends.get g
/-- The state with an end changed. -/
def State.updEnd (s : State) (g : Nat) (f : LinkEnd → LinkEnd) : State :=
  { s with link := { s.link with ends := s.link.ends.upd g f } }
/-- The training state of a group's link (Table 12-10). -/
def State.lt (s : State) (g : Nat) : Nat := s.rd (R.PG_LKSTAT_LTSTATE g)
/-- The peer last seen on a group. -/
def State.peerDev (s : State) (g : Nat) : Nat := s.rd (R.PG_LKSTAT_PEERDEV g)
/-- NEXT and E (Table 12-5). -/
def State.nextSeq (s : State) (g : Nat) : Nat := s.rd (R.PG_LKSEQ_NEXT g)
def State.expSeq (s : State) (g : Nat) : Nat := s.rd (R.PG_LKSEQ_EXP g)
/-- `OUTST` brought up to the replay buffer. -/
def State.bufSync (s : State) (g : Nat) : State := s.wr (R.PG_LKCNT_OUTST g) (s.linkEnd g).buf.length

/-- The FFE preset that a lane asks of the peer: none but in Equalise (R286, R287). -/
def State.wantsPreset (s : State) (g l : Nat) : Nat := if s.lt g == 3 then Config.wantedPreset (16 * g + l) % 11 else 0

/-- The training block that a lane sends (R287). -/
def State.blockOut (s : State) (g l : Nat) : BitVec 256 :=
  let e := s.linkEnd g
  let lim := e.adv
  TrainBlock.bits {
    state := s.lt g, seen := e.peerNonce != 0, full := e.full, lane := l, dev := s.devNum, group := g, nonce := e.nonce,
    epoch := (s.link.epoch).getD 0, e := s.expSeq g, ev := e.evValid, fast := s.rd (R.PG_SDCTL_RATE g) == 7,
    decision := e.leadOut, vc8 := s.flag (R.PG_LKCTL_VC8 g), minw := s.rd (R.PG_LKCTL_MINW g), preset := s.wantsPreset g l,
    faults := BitVec.ofNat 9 (s.rd (R.PG_SDSTAT_LNFAIL g)), oreq := fld lim 9 0, owb := fld lim 19 10, osnp := fld lim 30 20 }

/-- A lane's training block sent, from Polling to Equalise (R286). -/
def State.sendTraining (s : State) (g l : Nat) : State :=
  if s.pgMode g == 2 && (s.lt g == 1 || s.lt g == 2 || s.lt g == 3) && !s.lost then s.send (.train g l (s.blockOut g l)) else s

/-- The lanes whose blocks Polling waits for: those adapted. -/
def State.adaptedLanes (s : State) (g : Nat) : List Nat := (List.range 9).filter fun l => s.laneSt g l == 3

/-- A link enters a training state (Table 12-10): leaving L0 is noted, Polling draws a new nonce and sends it on the lanes adapted, Config takes the limits to
advertise (R296), Down starts its lanes and Failed powers them down. -/
def State.linkTo (s : State) (g st : Nat) : State :=
  let left := s.lt g == 6 && st != 6
  let s := s.wr (R.PG_LKSTAT_LTSTATE g) st
  let s := if left then (s.set1 (R.PG_LKSTAT_DOWNEVT g)).updEnd g fun e => { e with downAt := some s.gtc, l0Run := 0 } else s
  let s := match st with
    | 0 => (s.wr (R.PG_LKSTAT_WIDTH g) 3).startLanes g
    | 1 =>
      let (n, s) := s.fresh
      let s := s.updEnd g fun e => { e with nonce := Config.nonce n, peerNonce := 0, blocks := Tab.empty, echoes := 0 }
      (s.adaptedLanes g).foldl (fun s l => s.sendTraining g l) s
    | 2 => s.updEnd g fun e => { e with echoes := 0, adv := s.reg (R.CHIP_PEERLIM (s.peerDev g)) }
    | 3 => s.updEnd g fun e => { e with calm := 0 }
    | 4 => s.updEnd g fun e => { e with slot := 0, rxSlot := 0, markers := 0, rxMarkers := Tab.empty, missed := Tab.empty }
    | 5 => s.updEnd g fun e => { e with resumeRx := 0, resumeTx := 0, slot := 0, rxSlot := 0 }
    | 7 => (s.wr (R.PG_LKSTAT_WIDTH g) 3).lanesOff g
    | _ => s
  s.limitSync.wakeTxSync

/-- A retrain of a link that trains or serves (R289). -/
def State.retrain (s : State) (g : Nat) : State :=
  if s.pgMode g != 2 || s.lt g < 2 || s.lt g == 7 then s
  else ((s.satAdd (R.PG_LKCNT_RETRAINS g) 1).updEnd g fun e => { e with full := false }).linkTo g 1

/-- A group starts in the mode its register selects: at a Port reset, or at a full reset of its link, where Failed lanes stay
(R241, R251, R289). -/
def State.groupStart (s : State) (g : Nat) (port : Bool) : State :=
  let was := s.pgMode g
  let mode := s.rd (R.PG_SDCTL_MODE g)
  let s := { s with lane := { s.lane with mode := s.lane.mode.put g mode, subst := s.lane.subst.put g 0 } }
  let s := if port then (List.range 9).foldl (fun s l => s.laneReset g l) s else s
  let s := if was == 2 && mode != 2 then
    ((if s.lt g == 6 then s.set1 (R.PG_LKSTAT_DOWNEVT g) else s).wr (R.PG_LKSTAT_LTSTATE g) 0).wr (R.PG_LKSTAT_WIDTH g) 3 else s
  let s := s.placeGroup g
  match mode with
  | 0 => s.lanesOff g
  | 1 => ((s.wr (R.PG_SDSTAT_EXCL g) 8).clr (R.PG_SDSTAT_REV g)).startLanes g
  | 2 => ((s.satAdd (R.PG_LKCNT_RETRAINS g) (b2n (was == 2))).updEnd g fun e => { e with full := true }).linkTo g 0
  | _ => (s.setRate g (s.rd (R.PG_SDCTL_RATE g))).lanesTest g

/-- A full reset of a link, which also leaves Failed (R289). -/
def State.fullReset (s : State) (g : Nat) : State :=
  if s.pgMode g == 2 || (s.pgMode g != 1 && s.rd (R.PG_SDCTL_MODE g) == 2) then s.groupStart g false else s

/-! ### Entry to L0 and Failed -/

/-- Flits before a sequence number freed, when it is in window (R273): whether it was, and the state. -/
def State.ackTo (s : State) (g e : Nat) : Bool × State :=
  let b := (s.linkEnd g).buf
  let old := (s.nextSeq g + 4096 - b.length) % 4096
  let n := (e + 4096 - old) % 4096
  if n ≤ b.length then
    let s := if n == 0 then s else s.updEnd g fun x => { x with buf := b.drop n, restarts := 0 }
    (true, s.bufSync g)
  else (false, s)

/-- A link enters L0 (R286, R289): the sender goes back to the peer's E, the peer is no longer lost (R387), and the first link to
it brings it its paced credits (R284). -/
def State.enterL0 (s : State) (g : Nat) : State :=
  let d := s.peerDev g
  let first := (s.linksTo d).isEmpty
  let s := match (s.linkEnd g).peerRec with
    | some e => (s.ackTo g e).2
    | none => s
  let b := (s.linkEnd g).buf
  let s := s.updEnd g fun e => { e with
    replayAt := b.head?.map (·.seq), rplFlag := !b.isEmpty, rwait := false, nakDue := false, evValid := true,
    retrainFails := 0, eqFails := 0, slowRate := false, full := false, downAt := none, restarts := 0, refused := 0 }
  let s := (s.clr ((R.CF_STAT_PEERLOST).bitAt d)).linkTo g 6
  if first then s.pcrInit d else s

/-- `DETAIL` of a lane or link record (R382). -/
def State.linkDetail (s : State) (g lane st seq : Nat) : BitVec 128 :=
  BitVec.ofNat 128 (lane + 2 ^ 8 * st + 2 ^ 16 * seq + 2 ^ 32 * s.rd (R.PG_LKSTAT_PEERGRP g))

/-- A record of a port group's link (R381, R382), about sequence number `seq`. -/
def State.linkLog (s : State) (g type sev seq : Nat) : State :=
  s.log { type := type, sev := sev, level := 1, ukind := 1, unit := g, detail := s.linkDetail g 0 0 seq }

/-- A link enters Failed for good (R292, R294): recorded, its E sent on another link to the peer; with every link to the peer
Failed, the peer is lost (R387). -/
def State.failLink (s : State) (g : Nat) : State :=
  let d := s.peerDev g
  let s := (s.linkTo g 7).linkLog g 0x0105 2 (s.expSeq g)
  let e := s.linkEnd g
  if (s.linksTo d).isEmpty then
    let mine := (List.range 16).filter fun k => s.pgMode k == 2 && s.peerDev k == d && (s.link.peerEpoch.get d).isSome
    if mine.all fun k => s.lt k == 7 then (s.losePeer d).finish else s
  else
    let x := g + 16 * s.rd (R.PG_LKSTAT_PEERGRP g) + 256 * s.expSeq g + 2 ^ 20 * b2n e.evValid
    (s.toPeer { (default : Msg) with opc := 0xA1, dst := d, data := BitVec.ofNat 512 x }).updEnd g fun e => { e with evValid := false }

/-- LinkRecover received (R294): what the failed link still held is queued again ahead of everything unsent. -/
def State.linkRecover (s : State) (src g e : Nat) (ev : Bool) : State :=
  if s.lt g == 6 || s.peerDev g != src || s.pgMode g != 2 then s
  else
    let s := if ev then (s.ackTo g e).2 else s
    let kept := (s.linkEnd g).buf
    let msgs := (kept.map (·.msgs)).flatten
    let r := kept.foldl (fun n f => n + f.prc) 0
    let w := kept.foldl (fun n f => n + f.pwc) 0
    let s := { s with link := { s.link with
      outq := s.link.outq.upd src (msgs ++ ·)
      pret := (s.link.pret.upd (2 * src) (· + r)).upd (2 * src + 1) (· + w)
      outst := msgs.foldl (fun (t : Tab Nat) (m : Msg) => t.upd (src * 8 + vcOf m.opc) (· - 1)) s.link.outst } }
    ((s.updEnd g fun x => { x with buf := [], replayAt := none, evValid := false }).bufSync g).wakeTxSync

/-! ### Boot epochs -/

/-- A peer's epoch seen in training (R291): a new one means the peer has been reset. -/
def State.seeEpoch (s : State) (g d : Nat) (epoch : BitVec 32) : State :=
  let note := fun (s : State) => { s with link := { s.link with peerEpoch := s.link.peerEpoch.put d (some epoch) } }
  match s.link.peerEpoch.get d with
  | none => note s
  | some e =>
    if e == epoch then s
    else
      let gs := (List.range 16).filter fun k => s.pgMode k == 2 && (k == g || s.peerDev k == d)
      let s := gs.foldl (fun s k =>
        let s := (s.wr (R.PG_LKSEQ_NEXT k) 0).wr (R.PG_LKSEQ_EXP k) 0
        (s.updEnd k fun x => { x with buf := [], replayAt := none, peerRec := none, evValid := true }).bufSync k) s
      let s := (s.set1 (R.PG_LKSTAT_PEERRST g)).log
        { type := 0x0107, sev := 2, level := 1, ukind := 8, unit := d, detail := s.linkDetail g 0 0 0 }
      (note (s.losePeer d)).finish

/-- The sequence state of a link restarted at 0 with nothing discarded, as EV = 0 asks (R291). -/
def State.restartSeq (s : State) (g : Nat) : State :=
  let b := (s.linkEnd g).buf.zipIdx.map fun x => { x.1 with seq := x.2 }
  ((s.wr (R.PG_LKSEQ_NEXT g) b.length).wr (R.PG_LKSEQ_EXP g) 0).updEnd g fun x => { x with buf := b, replayAt := none }

/-! ### The leader's decisions -/

/-- A lane's number at the other end of its wire (R248). -/
def acrossWire (rev : Bool) (l : Nat) : Nat := if rev then 8 - l else l

/-- Wires with a lasting fault at either end, by our physical lanes (R288). -/
def State.badWires (s : State) (g : Nat) : List Nat :=
  let e := s.linkEnd g
  (List.range 9).filter fun l =>
    (s.rd (R.PG_SDSTAT_LNFAIL g)).testBit l || e.peerFaults.testBit (acrossWire e.peerRev l)

/-- Whether this end leads: its nonce is the larger (R288). -/
def State.leads (s : State) (g : Nat) : Bool := decide ((s.linkEnd g).nonce > (s.linkEnd g).peerNonce)

/-- The leader's decision byte (R288, Table 12-11): width code, the follower's `REV`, the excluded wire. -/
def State.decide19 (s : State) (g : Nat) : Nat :=
  let e := s.linkEnd g
  let bad := s.badWires g
  let good := 9 - bad.length
  let w := if bad.length ≤ 1 then 2 else if good ≥ 8 then 2 else if good ≥ 4 then 1 else 0
  let x := match bad with
    | [] => if e.full then 8 else s.excl g
    | l :: _ => l
  w + 4 * b2n e.peerRev + 16 * x

/-- Whether a width code is one that both ends accept (`MINW`; Table 12-13 codes it alike). -/
def State.widthOk (s : State) (g w : Nat) : Bool := decide (w ≥ s.rd (R.PG_LKCTL_MINW g)) && decide (w ≥ (s.linkEnd g).peerMinw)

/-- The physical lanes that carry traffic, in logical order (R248, R264, R288). -/
def State.laneMap (s : State) (g : Nat) : List Nat :=
  let x := s.excl g
  let ls := (List.range 9).filter fun l => l != x && !(s.badWires g).contains l
  let w := [2, 4, 8, 0].getD (s.rd (R.PG_LKSTAT_WIDTH g)) 0
  (if s.flag (R.PG_SDSTAT_REV g) then ls.reverse else ls).take w

/-- The lanes that a narrower link leaves unused powered down (R264). -/
def State.restLanes (s : State) (g : Nat) : State :=
  ((List.range 9).filter fun l => s.laneSt g l == 3 && l != s.excl g && !(s.laneMap g).contains l).foldl
    (fun s l => s.setLane g l 0) s

/-- The decisions applied at the end of Config (R288): roles, lanes, width, and on a full reset rate, VCs and limits. -/
def State.applyDecision (s : State) (g : Nat) : State :=
  let e := s.linkEnd g
  let lead := s.leads g
  let rev := !lead && e.leadOut.testBit 2
  let x := e.leadOut / 16 % 16
  let ex := if rev then 8 - x else x
  let old := s.excl g
  let s := (s.wr (R.PG_LKSTAT_LEADER g) (b2n lead)).wr (R.PG_SDSTAT_REV g) (b2n rev)
  let s := (s.wr (R.PG_SDSTAT_EXCL g) ex).wr (R.PG_LKSTAT_WIDTH g) (e.leadOut % 4)
  let s := if ex == old then s
    else if s.laneSt g old == 4 then s.setLane g old 3
    else if s.laneSt g old == 0 then s.startDetect g old 0
    else s
  let s := if (s.badWires g).isEmpty then s else s.set1 (R.PG_SDSTAT_SPAREUSE g)
  let s := (s.standExcluded g).restLanes g
  if e.full then
    let fast := s.rd (R.PG_SDCTL_RATE g) == 7 && e.peer112 && !e.slowRate
    (s.setRate g (if fast then 7 else 6)).wr (R.PG_LKSTAT_VCS8 g) (b2n (s.flag (R.PG_LKCTL_VC8 g) && e.peerVc8))
  else s

/-- Config left (R286, R288): a width that either end refuses holds the link in Failed, and one that a retrain would change takes a full
reset (R289). -/
def State.configDone (s : State) (g : Nat) : State :=
  let e := s.linkEnd g
  if !s.widthOk g (e.leadOut % 4) then s.linkTo g 7
  else if !e.full && e.leadOut % 4 != s.rd (R.PG_LKSTAT_WIDTH g) then s.fullReset g
  else (s.applyDecision g).linkTo g (if e.full then 3 else 4)

/-! ### Blocks -/

/-- What any block of a training peer tells (Table 12-11). -/
def State.notePeer (s : State) (g l : Nat) (t : TrainBlock) : State :=
  let s := (s.wr (R.PG_LKSTAT_PEERDEV g) t.dev).wr (R.PG_LKSTAT_PEERGRP g) t.group
  let s := s.updEnd g fun e => { e with
    peerFaults := t.faults.toNat, peerRev := if l == 4 then e.peerRev else t.lane != l, peer112 := t.fast, peerVc8 := t.vc8, peerMinw := t.minw,
    peerRec := if t.ev then some t.e else none,
    oreq := if e.full then t.oreq else e.oreq, owb := if e.full then t.owb else e.owb, osnp := if e.full then t.osnp else e.osnp }
  let same := s.link.peerEpoch.get t.dev == some t.epoch
  let s := s.seeEpoch g t.dev t.epoch
  if !t.ev && same then s.restartSeq g else s

/-- Polling left once every adapted lane has its eight blocks (R286); equal nonces are drawn again (R288). -/
def State.pollingDone (s : State) (g : Nat) : State :=
  let e := s.linkEnd g
  let ls := s.adaptedLanes g
  if ls.length < 2 || ls.any fun l => e.blocks.get l < 8 then s
  else if e.nonce == e.peerNonce then s.linkTo g 1
  else
    let s := s.linkTo g 2
    if s.peerDev g == s.devNum then s.linkLog g 0x0108 2 0
    else if s.leads g then s.updEnd g fun e => { e with leadOut := s.decide19 g }
    else s

/-- A block in Polling. -/
def State.inPolling (s : State) (g l : Nat) (t : TrainBlock) : State :=
  let s := s.notePeer g l t
  let s := s.updEnd g fun e =>
    let e := if t.nonce == e.peerNonce then e else { e with peerNonce := t.nonce, blocks := Tab.empty }
    { e with blocks := if t.seen then e.blocks.upd l (· + 1) else e.blocks.put l 0 }
  s.pollingDone g

/-- A block in Config (R286, R288): the leader counts echoes of its decisions, the follower the decisions it echoes. Equal device
numbers hold the link here. -/
def State.inConfig (s : State) (g : Nat) (t : TrainBlock) : State :=
  let e := s.linkEnd g
  if s.peerDev g == s.devNum || t.state < 2 then s
  else
    let s :=
      if t.decision == e.leadOut then s.updEnd g fun e => { e with echoes := e.echoes + 1 }
      else if s.leads g then s.updEnd g fun e => { e with echoes := 0 }
      else s.updEnd g fun e => { e with leadOut := t.decision, echoes := 1 }
    if (s.linkEnd g).echoes ≥ 8 then s.configDone g else s

/-- A lane's taps set by training, unless `OVR` keeps the host's (R244). -/
def State.setTaps (s : State) (g l : Nat) (v : BitVec 15) : State :=
  if s.flag (R.PG_LN_TXEQ_OVR g l) then s
  else
    let x : BitVec 32 := setFld (s.reg (R.PG_LN_TXEQ g l)) 17 3 v.toNat
    let sum := fld x 17 15 + fld x 14 11 + fld x 10 6 + fld x 5 3
    if sum ≤ 21 then s.setReg (R.PG_LN_TXEQ g l) (setFld x 23 18 (63 - sum)) else s

/-- A block in Equalise: its preset request is applied; the peer is done once it has moved on, or has asked for nothing new in
eight blocks (DESIGN CHOICE, assumption 30). -/
def State.inEqualise (s : State) (g l : Nat) (t : TrainBlock) : State :=
  let old := s.reg (R.PG_LN_TXEQ g l)
  let s := if t.state == 3 && t.preset ≤ 10 then s.setTaps g l (Config.ffePreset t.preset) else s
  let s := s.updEnd g fun e => { e with calm := if s.reg (R.PG_LN_TXEQ g l) == old then e.calm + 1 else 0 }
  if t.state == 4 || (s.linkEnd g).calm ≥ 8 then s.linkTo g 4 else s

/-- A block in L0: four valid ones in a row start a retrain (Table 12-12). -/
def State.inL0 (s : State) (g : Nat) : State :=
  let s := s.updEnd g fun e => { e with l0Run := e.l0Run + 1 }
  if (s.linkEnd g).l0Run ≥ 4 then s.retrain g else s

/-- A training block received on a lane (R287). One with `FULL` = 1 makes a full reset of whatever else this end does (R290,
Table 12-12). -/
def State.onBlock (s : State) (g l : Nat) (x : BitVec 256) : State :=
  if s.pgMode g != 2 || s.lost then s
  else if !trainOk x then
    s.updEnd g fun e => { e with l0Run := 0, blocks := if s.lt g == 1 then e.blocks.put l 0 else e.blocks }
  else
    let t := trainBlock x
    if t.full && !(s.linkEnd g).full && s.lt g != 0 && s.lt g != 7 then s.fullReset g
    else match s.lt g with
    | 1 => s.inPolling g l t
    | 2 => s.inConfig g t
    | 3 => s.inEqualise g l t
    | 6 => s.inL0 g
    | _ => s

/-! ### Bounds -/

/-- Lanes that did not train in their classification retrain have a lasting fault (R251). -/
def State.untrained (s : State) (g : Nat) : State :=
  (List.range 9).foldl (fun s l => if (s.laneOf g l).judge == 1 then s.updLane g l fun x => { x with judge := 4 } else s) s

/-- The bound of a training state passes (Table 12-10). Three failed retrains make a full reset (R289); Equalise failed twice at
112 Gbit/s lowers the rate (R288). -/
def State.stateTimeout (s : State) (g : Nat) : State :=
  let e := s.linkEnd g
  if s.pgMode g != 2 then s
  else
    match s.lt g with
    | 1 =>
      let s := s.untrained g
      if e.full then s.linkTo g 0
      else
        let s := s.updEnd g fun e => { e with retrainFails := e.retrainFails + 1 }
        if e.retrainFails + 1 ≥ 3 then (s.updEnd g fun e => { e with retrainFails := 0 }).fullReset g else s.linkTo g 0
    | 3 => (s.updEnd g fun e => { e with eqFails := e.eqFails + 1, slowRate := e.slowRate || decide (e.eqFails + 1 ≥ 2) }).linkTo g 0
    | 2 | 4 | 5 => s.linkTo g 1
    | _ => s

/-- A link out of L0 for `DOWNLIM` ms (R292). -/
def State.downTimeout (s : State) (g : Nat) : State :=
  match (s.linkEnd g).downAt with
  | some t =>
    if s.pgMode g == 2 && s.lt g != 6 && s.lt g != 7 && decide (s.gtc ≥ t + s.rd (R.PG_LKCTL_DOWNLIM g) * 1000000) then s.failLink g
    else s
  | none => s

end Sys2Proof.Machine
end

