-- ==== Sys2Proof/Machine/LaneCmd.lean ====
section
/-!
DEFINITION. The commands of the serial lanes (chapter 11): lane registers, faults and their classification, PRBS, eye margining,
detection, and the pennant pattern.
-/
namespace Sys2Proof.Machine

/-! ### Group and lane registers -/

/-- Whether a `MODE` and `RATE` go together (Table 11-7). -/
def ratePairs (v : BitVec 32) : Bool :=
  match fld v 31 30 with
  | 1 => decide (fld v 29 27 ≤ 5)
  | 2 => decide (6 ≤ fld v 29 27)
  | _ => true

/-- `PGg_SDCTL` written (R241): Test applies at once, a new `RATE` starts a full reset of a Pennant link (Table 12-12), and
`SPAREPWR` acts on the lane left out. -/
def State.writeSdctl (s : State) (g : Nat) (v : BitVec 32) : State :=
  if !ratePairs v then s.badValue (R.PG_SDCTL g)
  else
    let old := s.reg (R.PG_SDCTL g)
    let s := s.putReg (R.PG_SDCTL g) v
    if fld v 31 30 == 3 && s.pgMode g != 3 then s.groupStart g false
    else if s.pgMode g == 2 && s.lt g != 7 && fld v 29 27 != fld old 29 27 then s.fullReset g
    else if s.pgMode g == 2 && s.lt g == 6 then s.standExcluded g
    else s

/-- `PGg_LNl_TXEQ` written (R244): a sum above 21 is refused; `MAIN` is what the others leave. -/
def State.writeTxeq (s : State) (g l : Nat) (v : BitVec 32) : State :=
  let sum := fld v 17 15 + fld v 14 11 + fld v 10 6 + fld v 5 3
  if sum > 21 then s.badValue (R.PG_LN_TXEQ g l)
  else (s.putReg (R.PG_LN_TXEQ g l) v).wr (R.PG_LN_TXEQ_MAIN g l) (63 - sum)

/-- Whether a lane holds the values that registers give it (R246). -/
def State.holds (s : State) (g l : Nat) : Bool := s.rd (R.PG_LN_RXEQ_ADAPT g l) == 2

/-- `PGg_LNl_RXEQ` written (R246): `CTLE` and `VGA` are ignored unless the lane is in hold. -/
def State.writeRxeq (s : State) (g l : Nat) (v : BitVec 32) : State :=
  if s.holds g l then s.putReg (R.PG_LN_RXEQ g l) v else s.wr (R.PG_LN_RXEQ_ADAPT g l) (fld v 31 30)

/-- `PGg_LNl_DFEk` written (R245, R246). The first tap alone takes the whole range of a byte. -/
def State.writeDfe (s : State) (g l k : Nat) (v : BitVec 32) : State :=
  if k != 0 && decide (64 ≤ fld v 7 0) && decide (fld v 7 0 < 192) then s.badValue (R.PG_LN_DFE g l k)
  else if s.holds g l then
    s.putReg (R.PG_LN_DFE g l k) (if s.rated g l then usedTaps (s.rd (R.PG_SDSTAT_RATECUR g)) k v else v)
  else s

/-- The values that adaptation found (R246, R247): kept unless the lane is in hold. -/
def State.adapted (s : State) (g l ctle vga : Nat) (taps : BitVec 128) : State :=
  if s.holds g l then s
  else
    let s := (s.wr (R.PG_LN_RXEQ_CTLE g l) ctle).wr (R.PG_LN_RXEQ_VGA g l) vga
    (List.range 4).foldl (fun s k =>
      s.setReg (R.PG_LN_DFE g l k) (usedTaps (s.rd (R.PG_SDSTAT_RATECUR g)) k (taps.extractLsb' (32 * k) 32))) s

/-- SERDES_TEST_MODE (R241): a write of `PGg_SDCTL`. -/
def execSerdesTestMode (p : Path) (group : Fin 16) (val : BitVec 32) (s : State) : Answer :=
  .next (s.writing p (R.PG_SDCTL group) val fun v s => s.writeSdctl group v).finish

/-! ### Lane faults -/

/-- A lane's lasting fault passes to the link layer (R250): the width is reduced through a full reset. -/
def State.passFault (s : State) (g : Nat) : State := s.fullReset g

/-- A lane that takes the place of the excluded one (R250): the lane left out until then returns to service, and the link
retrains. -/
def State.substitute (s : State) (g l : Nat) : State :=
  let x := s.excl g
  let s := (s.wr (R.PG_SDSTAT_EXCL g) l).set1 (R.PG_SDSTAT_SPAREUSE g)
  let s := if s.laneSt g x == 4 then s.setLane g x 3 else if s.laneSt g x == 0 then s.startDetect g x 0 else s
  s.retrain g

/-- A lasting fault of a Pennant group's lane that has entered Failed (R250, R263). -/
def State.lastingFault (s : State) (g l : Nat) : State :=
  if s.pgMode g != 2 then s
  else if l == s.excl g then s.set1 (R.PG_SDSTAT_SPAREFLT g)
  else if s.flag (R.PG_SDSTAT_SPAREUSE g) || !s.flag (R.PG_SDCTL_SPAREEN g) || s.flag (R.PG_SDSTAT_SPAREFLT g) then s.passFault g
  else if s.laneSt g (s.excl g) == 1 then { s with lane := { s.lane with subst := s.lane.subst.put g (1 + l) } }
  else s.substitute g l

/-- A fault's events (Tables 11-8 and 11-16). -/
def State.faultSeen (s : State) (g l : Nat) : State := (s.set1 (R.PG_SDSTAT_LNEVT g)).set1 (R.PG_LN_STAT_FLTEVT g l)

/-- A classified fault recorded (R251): class 1 transient, 2 lasting. -/
def State.recordFault (s : State) (g l cls : Nat) : State :=
  (s.wr (R.PG_LN_STAT_FCLASS g l) cls).log
    { type := 0x0101, sev := cls, cls := cls, level := 1, ukind := 1, unit := g, detail := s.linkDetail g l (s.laneSt g l) 0 }

/-- A lane enters Failed (R251). -/
def State.failLane (s : State) (g l : Nat) : State :=
  let s := (s.setLane g l 5).updLane g l fun x => { x with judge := 0 }
  (s.recordFault g l 2).lastingFault g l

/-- A fault of a lane (R251): one on the standby lane disables substitution (R250), a first one is classified by a retrain, and
one met while that goes on is lasting (R263). -/
def State.laneFault (s : State) (g l : Nat) : State :=
  if s.laneSt g l == 4 then (s.faultSeen g l).set1 (R.PG_SDSTAT_SPAREFLT g)
  else if s.laneSt g l == 2 || s.laneSt g l == 3 then
    let s := s.faultSeen g l
    if (s.laneOf g l).judge == 0 then
      ((s.setLane g l 2).updLane g l fun x => { x with judge := 1 }).retrain g
    else s.updLane g l fun x => { x with judge := 4 }
  else s

/-- The end of a 1 ms interval (R251): a fault above `ERRTH`, a step of a classification at or below it. -/
def State.symbolInterval (s : State) (g l n : Nat) : State :=
  if s.laneSt g l != 3 then s
  else
    let s := s.wr (R.PG_LN_STAT_SYMERR g l) (min n 65535)
    if n > s.rd (R.PG_SDCTL_ERRTH g) then s.laneFault g l
    else if (s.laneOf g l).judge == 2 then s.updLane g l fun x => { x with judge := 3 }
    else s

/-- SYMBOL_INTERVAL (R251). -/
def execSymbolInterval (group : Fin 16) (lane : Fin 9) (count : BitVec 32) (s : State) : Answer :=
  .next (s.symbolInterval group lane count.toNat).finish
/-- LANE_FAULT (R251): CDR lock lost, or skew beyond R249. -/
def execLaneFault (group : Fin 16) (lane : Fin 9) (s : State) : Answer := .next (s.laneFault group lane).finish

/-- A classification ended (R251). -/
def State.laneClassified (s : State) (g l : Nat) : State :=
  match (s.laneOf g l).judge with
  | 3 => (s.updLane g l fun x => { x with judge := 0 }).recordFault g l 1
  | 4 => s.failLane g l
  | _ => s

/-- LANE_CLASSIFIED (R251). -/
def execLaneClassified (group : Fin 16) (lane : Fin 9) (s : State) : Answer := .next (s.laneClassified group lane).finish

/-- ADAPT_REEVAL (R246): a continuously adapting lane that carries traffic, or stands by. -/
def execAdaptReeval (group : Fin 16) (lane : Fin 9) (ctle : Fin 41) (vga : Fin 32) (s : State) : Answer :=
  let st := s.laneSt group lane
  .next (if s.rd (R.PG_LN_RXEQ_ADAPT group lane) == 0 && (st == 3 || st == 4) then
    (s.wr (R.PG_LN_RXEQ_CTLE group lane) ctle).wr (R.PG_LN_RXEQ_VGA group lane) vga
  else s)

/-- A lane's training ended (R247): CDR lock, polarity and adapted values. -/
def State.laneActive (s : State) (g l : Nat) (pol : Bool) (ctle vga : Nat) (taps : BitVec 128) : State :=
  if s.laneSt g l != 2 then s
  else
    let s := ((s.setLane g l 3).wr ((R.PG_SDSTAT_POL g).bitAt l) (b2n pol)).adapted g l ctle vga taps
    let s := if (s.laneOf g l).judge == 1 then s.updLane g l fun x => { x with judge := 2 } else s
    s.sendTraining g l

/-- LANE_ACTIVE (R247). -/
def execLaneActive (group : Fin 16) (lane : Fin 9) (pol : Bool) (ctle : Fin 41) (vga : Fin 32) (taps : BitVec 128) (s : State) :
    Answer :=
  .next (s.laneActive group lane pol ctle vga taps)

/-! ### PRBS -/

/-- Whether a lane's checker runs: in Test as `CHK` says, on the lane in warm standby always (R253). -/
def State.checks (s : State) (g l : Nat) : Bool :=
  s.rd (R.PG_LN_PRBSCTL_CHK g l) != 0 && (s.laneSt g l == 6 || s.laneSt g l == 4)

/-- Bits checked while the checker was locked (R254). -/
def State.prbsCount (s : State) (g l bits errs : Nat) : State :=
  if s.flag (R.PG_LN_PRBSCTL_LOCK g l) then
    s.updLane g l fun x => { x with checked := min (x.checked + bits) (2 ^ 48 - 1), errors := min (x.errors + errs) (2 ^ 48 - 1) }
  else s

/-- `PGg_LNl_PRBSCTL` written (R253, R254): patterns only in Test; the generator starts from all ones; a new `CHK` seeks lock again;
`CLR` zeroes the counts, `err` being an error of that very clock. -/
def State.writePrbsctl (s : State) (g l : Nat) (v : BitVec 32) (err : Bool) : State :=
  if s.pgMode g != 3 && (fld v 30 28 != 0 || fld v 27 25 != 0) then s.badValue (R.PG_LN_PRBSCTL g l)
  else
    let old := s.rd (R.PG_LN_PRBSCTL_CHK g l)
    let s := (s.putReg (R.PG_LN_PRBSCTL g l) v).updLane g l fun x => { x with gen := BitVec.allOnes 31 }
    let s := if s.laneSt g l == 4 then s.wr (R.PG_LN_PRBSCTL_CHK g l) old else s
    let s := if s.rd (R.PG_LN_PRBSCTL_CHK g l) != old then s.clr (R.PG_LN_PRBSCTL_LOCK g l) else s
    if bit v 31 then
      (s.clr (R.PG_LN_PRBSCTL_LOSSCNT g l)).updLane g l fun x => { x with checked := 0, errors := b2n err }
    else s

/-- PRBS_GEN (R253): a write of `PGg_LNl_PRBSCTL`. -/
def execPrbsGen (p : Path) (group : Fin 16) (lane : Fin 9) (val : BitVec 32) (s : State) : Answer :=
  .next (s.writing p (R.PG_LN_PRBSCTL group lane) val fun v s => s.writePrbsctl group lane v false)
/-- PRBS_CLEAR (R254): a write of `PGg_LNl_PRBSCTL` with `CLR` = 1; `err` is a bit error in the clock of the clear. -/
def execPrbsClear (p : Path) (group : Fin 16) (lane : Fin 9) (val : BitVec 32) (err : Bool) (s : State) : Answer :=
  .next (s.writing p (R.PG_LN_PRBSCTL group lane) (setFld val 31 31 1) fun v s => s.writePrbsctl group lane v err)
/-- PRBS_LOCK (R253). -/
def execPrbsLock (group : Fin 16) (lane : Fin 9) (s : State) : Answer :=
  .next (if s.checks group lane then s.set1 (R.PG_LN_PRBSCTL_LOCK group lane) else s)
/-- PRBS_LOCK_LOSS (R253, R254): after `bits` more bits with `errs` errors. On the standby lane it disables substitution (R250). -/
def execPrbsLockLoss (group : Fin 16) (lane : Fin 9) (bits errs : BitVec 48) (s : State) : Answer :=
  .next (if s.checks group lane && s.flag (R.PG_LN_PRBSCTL_LOCK group lane) then
    let s := s.prbsCount group lane bits.toNat errs.toNat
    let s := (s.satAdd (R.PG_LN_PRBSCTL_LOSSCNT group lane) 1).clr (R.PG_LN_PRBSCTL_LOCK group lane)
    if s.laneSt group lane == 4 then s.set1 (R.PG_SDSTAT_SPAREFLT group) else s
  else s)

/-- A lane's counters latched for one snapshot (R254). -/
def State.latchPrbs (s : State) (g l : Nat) : State :=
  let x := s.laneOf g l
  let s := s.wr (R.PG_LN_PRBSERR_ERRLO g l) (x.errors % 2 ^ 32)
  let s := s.wr (R.PG_LN_PRBSCNT_CNTLO g l) (x.checked % 2 ^ 32)
  (s.wr (R.PG_LN_PRBSHI_CNTHI g l) (x.checked / 2 ^ 32)).wr (R.PG_LN_PRBSHI_ERRHI g l) (x.errors / 2 ^ 32)

/-- PRBS_SNAPSHOT_READ (R254): a read of `PGg_LNl_PRBSERR`, after `bits` more bits with `errs` errors. -/
def execPrbsSnapshotRead (p : Path) (group : Fin 16) (lane : Fin 9) (bits errs : BitVec 48) (s : State) : Answer :=
  let off := R.PG_LN_PRBSERR group lane
  .next (s.reading p off fun s =>
    let s := if s.checks group lane then s.prbsCount group lane bits.toNat errs.toNat else s
    let s := s.latchPrbs group lane
    (s.reg off, s))

/-! ### Eye margining -/

/-- `PGg_LNl_MARGCTL` written (R255, R256): `GO` starts a run on a lane in Active, Standby or Test; it is refused while the host
holds the sampler. -/
def State.writeMargctl (s : State) (g l : Nat) (v : BitVec 32) : State :=
  let s := s.putReg (R.PG_LN_MARGCTL g l) v
  let st := s.laneSt g l
  if !bit v 31 then s
  else if s.flag (R.PG_LN_MARGSTAT_BUSY g l) then
    if (s.laneOf g l).margHost then s.wr (R.PG_LN_MARGSTAT_RESULT g l) 3 else s
  else if st == 3 || st == 4 || st == 6 then (s.set1 (R.PG_LN_MARGSTAT_BUSY g l)).clr (R.PG_LN_MARGSTAT_RESULT g l)
  else s

/-- MARGIN_RUN (R255). -/
def execMarginRun (p : Path) (group : Fin 16) (lane : Fin 9) (val : BitVec 32) (s : State) : Answer :=
  .next (s.writing p (R.PG_LN_MARGCTL group lane) val fun v s => s.writeMargctl group lane v)
/-- MARGIN_RUN_DONE (R255). -/
def execMarginRunDone (group : Fin 16) (lane : Fin 9) (errs : BitVec 32) (s : State) : Answer :=
  .next (if s.flag (R.PG_LN_MARGSTAT_BUSY group lane) && !(s.laneOf group lane).margHost then
    let s := (s.clr (R.PG_LN_MARGSTAT_BUSY group lane)).wr (R.PG_LN_MARGSTAT_RESULT group lane) 1
    s.wr (R.PG_LN_MARGSTAT_ERRS group lane) (min errs.toNat (2 ^ 24 - 1))
  else s)

/-- What the device reports of its margining (R256): 31 timing steps of 1/64 UI each way, 63 voltage steps of 2/128 of the reference level
each way, left and right and up and down independent, no error sampler of its own. -/
def marginReport : MarginReport :=
  { timingSteps := 31, maxTiming := 31, voltageSteps := 63, voltageUnit := 2, leftRight := true, upDown := true, errorSampler := false }

/-- LANE_MARGIN_COMMAND (R256): on a CXL group at 16 GT/s and above, a host's command takes the sampler and is told what margining
there is, or gives the sampler back. -/
def execLaneMarginCommand (group : Fin 16) (lane : Fin 9) (start : Bool) (s : State) : Answer :=
  let busy := s.flag (R.PG_LN_MARGSTAT_BUSY group lane)
  let held := (s.laneOf group lane).margHost
  .next (if s.pgMode group == 1 && decide (s.rd (R.PG_SDSTAT_RATECUR group) ≥ 3) && s.laneSt group lane == 3 then
    if start && !busy then
      ((s.set1 (R.PG_LN_MARGSTAT_BUSY group lane)).updLane group lane fun x => { x with margHost := true }).send
        (.margin group lane marginReport)
    else if !start && held then
      (s.clr (R.PG_LN_MARGSTAT_BUSY group lane)).updLane group lane fun x => { x with margHost := false }
    else s
  else s)

/-! ### Detection -/

/-- `PGg_LNl_DETECT` written (R258): a demand is accepted on a lane in Off, Failed or Test. -/
def State.writeDetect (s : State) (g l : Nat) (v : BitVec 32) : State :=
  let st := s.laneSt g l
  if bit v 31 && !s.flag (R.PG_LN_DETECT_BUSY g l) && (st == 0 || st == 5 || st == 6) then s.startDetect g l (1 + st) else s

/-- DETECTION (R258). -/
def execDetection (p : Path) (group : Fin 16) (lane : Fin 9) (val : BitVec 32) (s : State) : Answer :=
  .next (s.writing p (R.PG_LN_DETECT group lane) val fun v s => s.writeDetect group lane v)

/-- A detected lane's next state (R251, R258, R259): a demand returns it to where it was, but a Failed lane that passes to Off; in
training a lane that passes adapts and one without a far end stays in Detect. Any other result is a lasting fault. -/
def State.detected (s : State) (g l tx rx : Nat) : State :=
  let was := (s.laneOf g l).was
  if tx == 1 && rx == 1 then
    let s := if l == s.excl g then s.clr (R.PG_SDSTAT_SPAREFLT g) else s
    s.setLane g l (if was == 0 then 2 else if was == 6 then 0 else was - 1)
  else if tx == 7 && rx == 1 then if was == 0 then s else s.setLane g l (was - 1)
  else (s.faultSeen g l).failLane g l

/-- What waits for a group's detections (R263, R286): a substitution for the standby lane, and a link in Down for two lanes that
pass. -/
def State.afterDetect (s : State) (g l : Nat) : State :=
  let w := s.lane.subst.get g
  let s := if w == 0 || l != s.excl g then s
    else
      let s := { s with lane := { s.lane with subst := s.lane.subst.put g 0 } }
      if s.laneSt g l == 2 then s.substitute g (w - 1) else (s.set1 (R.PG_SDSTAT_SPAREFLT g)).passFault g
  let busy := (List.range 9).any fun i => s.flag (R.PG_LN_DETECT_BUSY g i)
  let pass := ((List.range 9).filter fun i => s.laneSt g i == 2 || s.laneSt g i == 3).length
  if s.pgMode g == 2 && s.lt g == 0 && !busy && decide (pass ≥ 2) then s.linkTo g 1 else s

/-- The code of a transmitter's result (Table 11-6). -/
def txCode (r : TxResult) : Nat :=
  match r with
  | .pass => 1
  | .openP => 2
  | .openN => 3
  | .ground => 4
  | .supply => 5
  | .pn => 6
  | .absent => 7
/-- The code of a receiver's result. -/
def rxCode (r : RxResult) : Nat :=
  match r with
  | .pass => 1
  | .ground => 4
  | .supply => 5
  | .pn => 6

/-- DETECTION_DONE (R258). -/
def execDetectionDone (group : Fin 16) (lane : Fin 9) (tx : TxResult) (rx : RxResult) (s : State) : Answer :=
  .next (if s.flag (R.PG_LN_DETECT_BUSY group lane) then
    let s := (s.clr (R.PG_LN_DETECT_BUSY group lane)).wr (R.PG_LN_DETECT_TXRES group lane) (txCode tx)
    let s := s.wr (R.PG_LN_DETECT_RXRES group lane) (rxCode rx)
    ((s.detected group lane (txCode tx) (rxCode rx)).afterDetect group lane).finish
  else s)

/-- Whether every lane of a group reports that it has no partner (R259). -/
def State.alone (s : State) (g : Nat) : Bool :=
  (s.pgMode g == 1 || s.pgMode g == 2) && (s.groupLanes g).all fun l =>
    s.laneSt g l == 1 && !s.flag (R.PG_LN_DETECT_BUSY g l) && s.rd (R.PG_LN_DETECT_TXRES g l) == 7

/-- DETECTION_REPEAT (R259). -/
def execDetectionRepeat (group : Fin 16) (s : State) : Answer := .next (if s.alone group then s.startLanes group else s)

/-- PENNANT_PATTERN_DETECT (R261): the lanes that have detected the pattern within one window. -/
def execPennantPatternDetect (group : Fin 16) (lanes : BitVec 9) (s : State) : Answer :=
  .next (if s.pgMode group == 2 && s.flag (R.PG_SDCTL_WAKEEN group) &&
      decide ((bitsOf 9 lanes).length ≥ s.rd (R.PG_SDCTL_WAKEMIN group) + 1) then
    (s.set1 (R.PG_SDSTAT_WAKEDET group)).wake 3
  else s)

end Sys2Proof.Machine
end

