-- ==== Sys2Proof/Machine/LinkCmd.lean ====
section
/-!
DEFINITION. The commands of the Pennant link (chapter 12): flits sent and received, acknowledgement and replay, markers, training
blocks and bounds, management messages, and the limits granted to peers.
-/
namespace Sys2Proof.Machine

/-! ### What a flit carries -/

/-- Whether a message of a class may be sent to a peer on a link (R281, R282, Table 12-7); MGT messages without a reply count
for 1 µs. -/
def State.limitLeft (s : State) (g d vc : Nat) (outst : Tab Nat) (mgt : Nat) : Bool :=
  let e := s.linkEnd g
  let n := outst.get (d * 8 + vc)
  match vc with
  | 0 => decide (n < e.oreq)
  | 1 => decide (n < e.osnp)
  | 4 => decide (n < e.owb)
  | 5 => decide (n + mgt < 8)
  | _ => true

/-- Messages chosen for a flit: their places in the peer's queue, the messages, the slots they fill, the outstanding counts with
them, and the MGT messages without a reply; `stop` ends a VC. -/
structure Pick where
  idx : List Nat
  msgs : List Msg
  used : Nat
  outst : Tab Nat
  mgt : Nat
  stop : Bool

/-- Whether an MGT message has a reply (Table 12-7). -/
def Msg.noReply (m : Msg) : Bool := m.opc == 0xA0 || m.opc == 0xA1

/-- One queued message tried for a flit: a VC stops at its first that does not fit or is held by its limit (R279). -/
def State.pickOne (s : State) (g d vc : Nat) (a : Pick) (x : Msg × Nat) : Pick :=
  let m := x.1
  if a.stop || vcOf m.opc != vc || s.linkFor m != some g then a
  else if a.used + msgSlots m.opc > 14 || !s.limitLeft g d vc a.outst a.mgt then { a with stop := true }
  else
    let counted := [0, 1, 4].contains vc || (vc == 5 && !m.noReply)
    { a with
      idx := x.2 :: a.idx, msgs := a.msgs ++ [m], used := a.used + msgSlots m.opc,
      outst := if counted then a.outst.upd (d * 8 + vc) (· + 1) else a.outst,
      mgt := if m.noReply then a.mgt + 1 else a.mgt }

/-- The messages of the next data flit of a link, in the VC order of R26 (R279). -/
def State.pickMsgs (s : State) (g d : Nat) : Pick :=
  let q := (s.link.outq.get d).zipIdx
  let mgt := (s.link.mgtAt.filter fun x => x.1 == d && decide (s.gtc < x.2 + 1000)).length
  let start : Pick := { idx := [], msgs := [], used := 0, outst := s.link.outst, mgt := mgt, stop := false }
  [7, 6, 3, 2, 1, 4, 5, 0].foldl (fun a vc => q.foldl (s.pickOne g d vc) { a with stop := false }) start

/-! ### Sending -/

/-- One flit sent in its slot, over the logical lanes of the link (R269). -/
def State.emit (s : State) (g : Nat) (h : FlitHead) (msgs : List Msg) (seed : Nat) : State :=
  (s.send (.flit g (s.laneMap g).length (flitBits h msgs seed))).updEnd g fun e => { e with slot := e.slot + 1 }

/-- `ACK` of a flit sent now (R273). -/
def State.ackNow (s : State) (g : Nat) : Nat := (s.expSeq g + 4095) % 4096

/-- An idle flit, or a NAK (R274). -/
def State.sendIdle (s : State) (g : Nat) (nak : Bool) : State :=
  s.emit g { ftype := 1, nak := nak, rpl := false, ack := s.ackNow g, prc := 0, pwc := 0, lcmd := 0 } [] 0x1000

/-- A kept flit sent again (R274): the first of a replay carries `RPL`. -/
def State.resend (s : State) (g : Nat) (f : KeptFlit) : State :=
  let h : FlitHead :=
    { ftype := 0, nak := false, rpl := (s.linkEnd g).rplFlag, ack := s.ackNow g, prc := f.prc, pwc := f.pwc, lcmd := 0 }
  let n := (f.seq + 1) % 4096
  let more := (s.linkEnd g).buf.any fun x => x.seq == n
  ((s.emit g h f.msgs f.seq).countBlk g 0x03 1 none none).updEnd g fun e =>
    { e with replayAt := if more then some n else none, rplFlag := false }

/-- A new data flit (R235, R272, R279, R284): its messages charged where the shaper has not, kept for replay, its messages no longer queued, its credit returns given. -/
def State.sendNew (s : State) (g d : Nat) (a : Pick) : State :=
  let r := min (s.link.pret.get (2 * d)) 15
  let w := min (s.link.pret.get (2 * d + 1)) 8
  let q := s.nextSeq g
  let h : FlitHead := { ftype := 0, nak := false, rpl := false, ack := s.ackNow g, prc := r, pwc := w, lcmd := 0 }
  let left := ((s.link.outq.get d).zipIdx.filter fun (x : Msg × Nat) => !a.idx.contains x.2).map (·.1)
  let quiet := (a.msgs.filter Msg.noReply).map fun _ => (d, s.gtc)
  let s : State := { s with link := { s.link with
    outq := s.link.outq.put d left, outst := a.outst,
    pret := (s.link.pret.upd (2 * d) (· - r)).upd (2 * d + 1) (· - w),
    mgtAt := (s.link.mgtAt.filter fun x => decide (s.gtc < x.2 + 1000)) ++ quiet } }
  let s := a.msgs.foldl (fun s m => s.chargeMsg g m) s
  let s := (s.emit g h a.msgs q).updEnd g fun e =>
    { e with buf := e.buf ++ [{ seq := q, msgs := a.msgs, prc := r, pwc := w }] }
  ((s.wr (R.PG_LKSEQ_NEXT g) ((q + 1) % 4096)).bufSync g).countBlk g 0x02 1 none none

/-- What a link in L0 sends in a slot: a NAK that is due, a replay, new messages or credits, else an idle flit (R273, R274, R279). -/
def State.sendL0 (s : State) (g : Nat) : State :=
  let e := s.linkEnd g
  let d := s.peerDev g
  if e.nakDue then
    ((s.sendIdle g true).satAdd (R.PG_LKCNT_NAKS g) 1).updEnd g fun e => { e with nakDue := false }
  else
    match e.replayAt.bind fun q => e.buf.find? fun f => f.seq == q with
    | some f => s.resend g f
    | none =>
      let a := s.pickMsgs g d
      let owes := s.link.pret.get (2 * d) != 0 || s.link.pret.get (2 * d + 1) != 0
      if e.buf.length < 1024 && (!a.msgs.isEmpty || owes) then s.sendNew g d a else s.sendIdle g false

/-- A flit slot of a link (R276, R277, R286): none at a skip position, nor where a marker is due. -/
def State.flitSlot (s : State) (g : Nat) : State :=
  let e := s.linkEnd g
  if s.lost || s.pgMode g != 2 || e.slot % 2048 == 2047 || e.slot ≥ 16384 then s
  else
    match s.lt g with
    | 6 => (s.sendL0 g).wakeTxSync
    | 5 =>
      let h : FlitHead := { ftype := 2, nak := false, rpl := false, ack := s.ackNow g, prc := 0, pwc := 0, lcmd := 1 }
      let s := (s.emit g h [] 0x1000).updEnd g fun e => { e with resumeTx := e.resumeTx + 1 }
      if (s.linkEnd g).resumeTx ≥ 16 && (s.linkEnd g).resumeRx ≥ 2 then s.enterL0 g else s
    | _ => s

/-- FLIT_SEND (R279). -/
def execFlitSend (group : Fin 16) (s : State) : Answer := .next (s.flitSlot group).finish

/-- A skip flit sent at its position (R276). -/
def State.skipSlot (s : State) (g : Nat) : State :=
  if s.lost || s.pgMode g != 2 || (s.lt g != 5 && s.lt g != 6) || (s.linkEnd g).slot % 2048 != 2047 then s
  else s.emit g { ftype := 3, nak := false, rpl := false, ack := 0, prc := 0, pwc := 0, lcmd := 0 } [] 0x1000

/-- SKIP_FLIT (R276). -/
def execSkipFlit (group : Fin 16) (s : State) : Answer := .next (s.skipSlot group)

/-- An alignment marker sent on all lanes: in Align, and after 16,384 slots (R277, R286). -/
def State.markerSlot (s : State) (g : Nat) : State :=
  let e := s.linkEnd g
  let due := s.lt g == 4 || ((s.lt g == 5 || s.lt g == 6) && e.slot ≥ 16384)
  if s.lost || s.pgMode g != 2 || !due then s
  else
    let s := (s.laneMap g).zipIdx.foldl (fun s x => s.send (.marker g x.1 (markerBits x.2 x.1 (e.markers % 256)))) s
    s.updEnd g fun e => { e with slot := 0, markers := e.markers + 1 }

/-- ALIGNMENT_MARKER (R277). -/
def execAlignmentMarker (group : Fin 16) (s : State) : Answer := .next (s.markerSlot group)

/-! ### Receiving -/

/-- A marker's turn on a lane (R277, R286): `skewed` is a skew beyond 2 ns. -/
def State.onMarker (s : State) (g l : Nat) (x : BitVec 256) (skewed : Bool) : State :=
  let st := s.lt g
  if s.lost || s.pgMode g != 2 || !(st == 4 || st == 5 || st == 6) || !(s.laneMap g).contains l then s
  else if skewed then s.laneFault g l
  else if markerOk x then
    let s := s.updEnd g fun e =>
      { e with missed := e.missed.put l 0, rxSlot := 0, rxMarkers := e.rxMarkers.upd l (· + 1) }
    if st == 4 && (s.laneMap g).all fun i => (s.linkEnd g).rxMarkers.get i ≥ 4 then s.linkTo g 5 else s
  else
    let s := s.updEnd g fun e => { e with missed := e.missed.upd l (· + 1), rxMarkers := e.rxMarkers.put l 0 }
    if (s.linkEnd g).missed.get l ≥ 2 then (s.updEnd g fun e => { e with missed := e.missed.put l 0 }).laneFault g l else s

/-- MARKER_RECEIVE (R277): what arrives on a lane where a marker is due. -/
def execMarkerReceive (group : Fin 16) (lane : Fin 9) (block : BitVec 256) (skewed : Bool) (s : State) : Answer :=
  .next (s.onMarker group lane block skewed).finish

/-- A flit that is not taken (R274): a NAK, unless one is awaited already. -/
def State.badFlit (s : State) (g : Nat) : State :=
  if (s.linkEnd g).rwait then s else s.updEnd g fun e => { e with nakDue := true, rwait := true }

/-- Transmission restarted at a sequence number (R274, R275). -/
def State.restartAt (s : State) (g q : Nat) : State :=
  let s := s.updEnd g fun e =>
    { e with
      replayAt := if e.buf.isEmpty then none else some q, rplFlag := true,
      restarts := if e.restartSeq == q then e.restarts + 1 else 1, restartSeq := q }
  if (s.linkEnd g).restarts ≥ s.rd (R.PG_LKCTL_MAXRPL g) then (s.updEnd g fun e => { e with restarts := 0 }).retrain g else s

/-- Paced requests that wait for a peer's credits sent while they last (R284). -/
def State.drainPaced (s : State) (d : Nat) : State :=
  (s.link.pwait.get d).foldl (fun s m =>
    let w := b2n (m.opc == 0xC1)
    if s.link.pout.get (2 * d + w) < s.link.pcr.get (2 * d + w) then
      ({ s with link := { s.link with
        pout := s.link.pout.upd (2 * d + w) (· + 1), pwait := s.link.pwait.upd d fun l => l.erase m } } : State).toPeer m
    else s) s

/-- PCrInit received: the totals a home grants (R284). -/
def State.onPcrInit (s : State) (d pqr pqw : Nat) : State :=
  ({ s with link := { s.link with pcr := (s.link.pcr.put (2 * d) pqr).put (2 * d + 1) pqw } } : State).drainPaced d

/-- MISROUTE (R264, R278, R285). -/
def State.misroute (s : State) (g : Nat) : State := (s.set1 (R.PG_LKSTAT_MISRT g)).linkLog g 0x0102 1 (s.expSeq g)

/-- A message of an accepted flit taken (R264, R274, R285): a request to its admission point, any other into the mesh toward the home
slice of its line (R281). One whose slots are not as R267 says is discarded. -/
def State.unpack (s : State) (g : Nat) (x : Msg × Nat × Bool) : State :=
  let m := x.1
  if !x.2.2 || m.dst != s.devNum || !knownOpc m.opc then s.misroute g
  else if s.lost || s.peerLost m.src then s
  else
    match m.opc with
    | 0xA0 => s.onPcrInit m.src (fld m.data 3 0) (fld m.data 7 4)
    | 0xA1 => s.linkRecover m.src (fld m.data 7 4) (fld m.data 19 8) (bit m.data 20)
    | _ =>
      let s := s.endsLimit m
      if vcOf m.opc == 0 || vcOf m.opc == 6 then s.deliverMsg m
      else s.inject (meshMsg (meshClassOf (vcOf m.opc)) g ((s.domOf m.dpa).elim 0 fun d => d.2.slice m.dpa) (.msg m))

/-- Whether a message that waits at a port stop came over its link in a VC. -/
def MeshLoad.fromPeer (x : MeshLoad) (vc : Nat) : Bool :=
  match x with
  | .req r => (match r.agent with | .peer _ => true | .host _ => false) && (vc == if r.op == .pRd || r.op == .pWr then 6 else 0)
  | .msg m => vcOf m.opc == vc

/-- The entries of a group's ingress store of a VC that are taken (R281): requests not yet granted, and messages that have not entered
the mesh. -/
def State.inStore (s : State) (g vc : Nat) : Nat :=
  ((s.rgl.admq.get g).filter fun w => (MeshLoad.req w.req).fromPeer vc).length +
    (s.mesh.msgs.filter fun m => m.port == .own && (m.x, m.y) == portStop g && m.load.fromPeer vc).length

/-- The entries of the ingress stores that are limited (Table 12-7). -/
def storeSizes : List (Nat × Nat) := [(0, 768), (1, 1024), (4, 512), (6, 24), (5, 128)]

/-- Whether the ingress stores cannot hold every message of a flit (R274). -/
def State.storesFull (s : State) (g : Nat) (msgs : List (Msg × Nat × Bool)) : Bool :=
  storeSizes.any fun c => decide (s.inStore g c.1 + (msgs.filter fun m => vcOf m.1.opc == c.1).length > c.2)

/-- A data flit whose messages the ingress stores cannot hold (R283, Table 12-8). -/
def State.overrun (s : State) (g : Nat) : State :=
  let s := ((s.set1 (R.PG_LKSTAT_OVRUN g)).linkLog g 0x0106 2 (s.expSeq g)).badFlit g
  let n := (s.linkEnd g).refused + 1
  if n < s.rd (R.PG_LKCTL_MAXRPL g) then s.updEnd g fun e => { e with refused := n }
  else
    let k := (s.linkEnd g).ovrRetrains + 1
    let s := s.updEnd g fun e => { e with refused := 0, ovrRetrains := k }
    if k ≥ 3 then s.failLink g else s.retrain g

/-- A data flit accepted (R274, R284). -/
def State.acceptFlit (s : State) (g : Nat) (h : FlitHead) (msgs : List (Msg × Nat × Bool)) : State :=
  let d := s.peerDev g
  let s := (s.wr (R.PG_LKSEQ_EXP g) ((s.expSeq g + 1) % 4096)).countBlk g 0x01 1 none none
  let s := (s.updEnd g fun e => { e with rwait := false, nakDue := false, refused := 0, ovrRetrains := 0 }).wake 2
  let s := (msgs.foldl (fun s m => s.unpack g m) s).settleAll
  let s : State := { s with link := { s.link with
    pout := (s.link.pout.upd (2 * d) (· - h.prc)).upd (2 * d + 1) (· - h.pwc) } }
  s.drainPaced d

/-- A flit that passed its checks (R274); the RESUME flits of R286 bring the peer's E. -/
def State.goodFlit (s : State) (g : Nat) (h : FlitHead) (b : List Byte) (full : Bool) : State :=
  let (inWin, s) := s.ackTo g ((h.ack + 1) % 4096)
  let s := if inWin then s else (s.set1 (R.PG_LKSTAT_ACKRNG g)).linkLog g 0x0103 1 h.ack
  let s := if h.nak && inWin then s.restartAt g ((h.ack + 1) % 4096) else s
  match h.ftype with
  | 0 =>
    let sh : BitVec 96 := ofLe 96 ((b.drop 4).take 12)
    let msgs := slotMsgs sh fun k => ofLe 128 ((b.drop (16 + 16 * k)).take 16)
    if !s.flag (R.PG_LKSTAT_VCS8 g) && msgs.any fun m => m.2.1 ≥ 6 then (s.misroute g).badFlit g
    else if (full || s.storesFull g msgs) && !msgs.isEmpty then s.overrun g
    else s.acceptFlit g h msgs
  | 2 =>
    if h.lcmd == 1 && s.lt g == 5 then
      let s := s.updEnd g fun e => { e with resumeRx := e.resumeRx + 1, peerRec := some ((h.ack + 1) % 4096) }
      if (s.linkEnd g).resumeTx ≥ 16 && (s.linkEnd g).resumeRx ≥ 2 then s.enterL0 g else s
    else s
  | _ => s

/-- A flit received (R274, R276): nothing at a skip position is looked at; the correction, then the CRC under the number
expected. -/
def State.flitIn (s : State) (g : Nat) (raw : BitVec 2048) (full : Bool) : State :=
  let e := s.linkEnd g
  if s.lost || s.pgMode g != 2 || (s.lt g != 5 && s.lt g != 6) then s
  else
    let s := s.updEnd g fun e => { e with rxSlot := e.rxSlot + 1, l0Run := 0 }
    if e.rxSlot % 2048 == 2047 then s
    else
      match flitCorrect (leBytes 256 raw) with
      | none => (s.satAdd (R.PG_LKERR_FECUNC g) 1).badFlit g
      | some (b, n) =>
        let s := s.countBlk g 0x04 n none none
        let h := flitHead (ofLe 32 (b.take 4))
        let body := b.take 240
        if leBytes 8 (crc64 (if h.ftype == 0 then s.expSeq g else 0x1000) body) != b.drop 240 then
          (s.satAdd (R.PG_LKERR_CRCERR g) 1).badFlit g
        else if h.ftype == 3 then s
        else s.goodFlit g h b full

/-- FLIT_RECEIVE (R274). `full`: its messages find no room in the ingress stores, behind others that this model has let cross the mesh at
once (assumption 106). -/
def execFlitReceive (group : Fin 16) (raw : BitVec 2048) (full : Bool) (s : State) : Answer :=
  .next (s.flitIn group raw full).finish

/-- REPLAY_TIMER_EXPIRY (R274). -/
def execReplayTimerExpiry (group : Fin 16) (s : State) : Answer :=
  .next (if (s.linkEnd group).rwait then s.updEnd group fun e => { e with nakDue := true } else s)

/-! ### Training -/

/-- A training block received; while this end trains, its own block goes out on the lane. -/
def State.trainIn (s : State) (g l : Nat) (x : BitVec 256) : State :=
  (s.onBlock g l x).sendTraining g l

/-- TRAINING_BLOCK_RECEIVE (R287). -/
def execTrainingBlockReceive (group : Fin 16) (lane : Fin 9) (block : BitVec 256) (s : State) : Answer :=
  .next (s.trainIn group lane block).finish
/-- LINK_STATE_TIMEOUT (R286). -/
def execLinkStateTimeout (group : Fin 16) (s : State) : Answer := .next (s.stateTimeout group).finish
/-- LINK_DOWN_TIMEOUT (R292). -/
def execLinkDownTimeout (group : Fin 16) (s : State) : Answer := .next (s.downTimeout group).finish

/-- `PGg_LKCTL` written (R289, Table 12-12): a full reset asked for, or made by a change of `VC8` or `MINW`; else a retrain. -/
def State.writeLkctl (s : State) (g : Nat) (v : BitVec 32) : State :=
  let old := s.reg (R.PG_LKCTL g)
  let s := s.putReg (R.PG_LKCTL g) v
  if bit v 30 then s.fullReset g
  else if s.pgMode g == 2 && s.lt g != 7 && fld v 29 27 != fld old 29 27 then s.fullReset g
  else if bit v 31 then s.retrain g
  else s

/-- RETRAIN (R289): a write of `PGg_LKCTL` with `RETRAIN` = 1. -/
def execRetrain (p : Path) (group : Fin 16) (val : BitVec 32) (s : State) : Answer :=
  .next (s.writing p (R.PG_LKCTL group) (setFld val 31 31 1) fun v s => s.writeLkctl group v).finish
/-- LINK_FULL_RESET (R289): a write of `PGg_LKCTL` with `RESET` = 1. -/
def execLinkFullReset (p : Path) (group : Fin 16) (val : BitVec 32) (s : State) : Answer :=
  .next (s.writing p (R.PG_LKCTL group) (setFld val 30 30 1) fun v s => s.writeLkctl group v).finish

/-! ### Management messages and limits -/

/-- LINKRECOVER (R294): the sender's and this device's port groups of the failed link, the sender's E and whether it is valid. -/
def execLinkrecover (src : Fin 16) (sender receiver : Fin 16) (e : BitVec 12) (ev : Bool) (s : State) : Answer :=
  let _ := sender
  .next (if s.lost || s.peerLost src then s else s.linkRecover src receiver e.toNat ev).finish
/-- PCRINIT (R284). -/
def execPcrinit (src : Fin 16) (pqr pqw : BitVec 4) (s : State) : Answer :=
  .next (if s.lost || s.peerLost src then s else s.onPcrInit src pqr.toNat pqw.toNat).finish

/-- Whether the limits granted to all other devices fit the ingress stores (R282). -/
def State.limitsFit (s : State) : Bool :=
  let ds := (List.range 16).filter fun d => d != s.devNum
  let sum := fun (f : Nat → Fld) => ds.foldl (fun a d => a + s.rd (f d)) 0
  decide (sum R.CHIP_PEERLIM_OREQ ≤ 768) && decide (sum R.CHIP_PEERLIM_OWB ≤ 512) && decide (sum R.CHIP_PEERLIM_OSNP ≤ 1024)

/-- `CHIP_PEERLIMd` written (R282): discarded and recorded where a sum or a range is broken. -/
def State.writePeerlim (s : State) (d : Nat) (v : BitVec 32) : State :=
  let s' := s.putReg (R.CHIP_PEERLIM d) v
  if legalWrite (R.CHIP_PEERLIM d) v && s'.limitsFit then s'
  else s.log { type := 0x040A, level := 3, ukind := 8, unit := d }

/-- PEERLIM_WRITE (R282). -/
def execPeerlimWrite (p : Path) (dev : Fin 16) (val : BitVec 32) (s : State) : Answer :=
  .next (s.viaPath p (R.CHIP_PEERLIM dev) fun s => s.writePeerlim dev val)

end Sys2Proof.Machine
end

