-- ==== Sys2Proof/Machine/Reset.lean ====
section
/-!
DEFINITION. Warm reset (R357, R448, R449): the orderly drain and its steps, what the reset of the main die keeps, and how a
reset is asked for.
-/
namespace Sys2Proof.Machine

/-! ### Registers -/

/-- A register's value with the fields that a Warm reset does not keep at their Reset values (R17, R473). -/
def keptValue (r : RegRow) (off : Nat) (v : BitVec 32) : BitVec 32 :=
  r.fields.foldl (fun w f => if f.keep then setFld w f.hi f.lo (fld v f.hi f.lo) else w) (regReset off)

/-- The registers after a Warm reset. Staging areas, committed copies and ring memory are gone. -/
def warmRegs (t : Tab (BitVec 32)) : Tab (BitVec 32) :=
  ⟨t.cells.filterMap fun c =>
    if c.1 ≥ 2 ^ 28 then none
    else
      match regRow c.1 with
      | none => none
      | some r => if keptValue r c.1 c.2 == regReset c.1 then none else some (c.1, keptValue r c.1 c.2)⟩

/-! ### What is kept -/

/-- The jobs after a Warm reset (R357): a SANITIZE, and a RESIZE past its commit point, stay and are read with JOB_STATUS; the
others end with RESET. -/
def State.resetJobs (s : State) : State :=
  s.ring.jobs.foldl (fun s j =>
    let past := j.phase ≥ 2 || (j.phase == 1 && s.dom.commits.any fun c => c.src == 5 && c.arg == j.id)
    let s := s.updJob j.id fun j => { j with src := 8, irq := false }
    if j.op == 0x23 then s
    else if j.op == 0x24 && past then s.updJob j.id fun j => { j with phase := max j.phase 2, hold := false }
    else s.endJob j.id 0x8A) s

/-- The page maps and what stands with them. -/
def TierState.kept (t : TierState) : TierState :=
  { (default : TierState) with
    pmap := t.pmap, inDram := t.inDram, epoch := t.epoch, extents := t.extents, frames := t.frames, slots := t.slots, lostBack := t.lostBack, tagHeld := t.tagHeld,
    region := t.region, metaChans := t.metaChans, place := t.place }

/-- Key slots, device keys, sequence counters, and the erase walks that resume after the reset (R156). -/
def EngState.kept (t : EngState) : EngState :=
  { (default : EngState) with
    slots := t.slots, dk := t.dk, seq := t.seq, erases := t.erases.map fun x => { x with port := none } }

/-- A channel's repairs, retirement and redirects. -/
def Chan.kept (c : Chan) : Chan :=
  { (default : Chan) with
    repairs := c.repairs, spares := c.spares, spareOf := c.spareOf, softRows := c.softRows, poisonList := c.poisonList,
    redirect := c.redirect, retired := c.retired, ident := c.ident, rate := c.rate, values := c.values }

/-- What is stored, and each channel's lasting part. -/
def DramState.kept (t : DramState) : DramState :=
  { (default : DramState) with
    lines := t.lines, media := t.media, mediaFull := t.mediaFull,
    chans := ⟨(t.chans.cells.map fun c => (c.1, Chan.kept c.2)).filter fun c => c.2 != default⟩ }

/-- A head's event logs. -/
def Head.kept (h : Head) : Head := { (default : Head) with logs := h.logs }

/-- The register paths whose destroys resume read BUSY and their domain again (R156). -/
def State.resumeErases (s : State) : State :=
  s.eng.erases.foldl (fun s x =>
    match x.path with
    | some p => (s.set1 (R.SEC_KEYSTAT_BUSY.on p)).wr (R.SEC_KEYSTAT_DOMAIN.on p) x.dom
    | none => s) s

/-- The reset of the main die (Table 21-4), with the cause code of `RSTCAUSE`: 1 an orderly one, 2 an immediate one, 3 a drain
past its limit. The main die is held until WARM_HOLD_END. -/
def State.warmReset (s : State) (cause : Nat) : State :=
  let failed := if cause == 1 then (List.range 16).filter fun n => s.chanState n == 6 else []
  let s := if cause == 1 then s.resetJobs.dropMaps else s.resetJobs
  let s : State :=
    { s with
      regs := warmRegs s.regs
      dom := default, kind := default, coh := default, mesh := default, tier := s.tier.kept, eng := s.eng.kept, dram := s.dram.kept
      flt := { s.flt with latched := default }
      ctr := default, rgl := default
      host := { (default : HostState) with
        heads := ⟨(s.host.heads.cells.map fun c => (c.1, Head.kept c.2)).filter fun c => c.2 != default⟩ }
      lane := default, link := default
      core := { CoreState.rom with loads := s.core.loads }
      ring := { (default : RingState) with jobs := s.ring.jobs, done := s.ring.done, nextJob := s.ring.nextJob }
      peat := { s.peat with prgPend := [], idle := s.peat.cur.isNone }
      pow := { (default : PowState) with quietSince := s.gtc }
      boot := { s.boot with hold := true, startAt := s.gtc, drain := none, drainPhase := 0, failed := failed, sync := default }
      mgmt := { s.mgmt with acked := 0, opening := [], secured := [] } }
  ((s.wr R.CHIP_BOOTSTAT_RSTCAUSE cause).resumeErases).life 2

/-! ### The orderly drain -/

/-- Migrations that are not held end; none starts while the drain runs. -/
def State.stopMigs (s : State) : State :=
  (s.tier.migs.filter fun m => m.phase != .held).foldl (fun s m => s.migEnd m 0x67) s

/-- Whether no request or transaction is in flight, and no migration. -/
def State.drained (s : State) : Bool :=
  s.coh.txs.isEmpty && s.coh.ordq.cells.isEmpty && s.coh.reqs.isEmpty && s.coh.recalls.isEmpty && s.link.preqs.isEmpty &&
    s.tier.migs.isEmpty && s.mesh.msgs.isEmpty

/-- Whether no slice runs an operation. -/
def State.slicesIdle (s : State) : Bool := (List.range 16).all fun n => s.kind.op.get n == 0

/-- Clean and invalidate of everything on every slice (R70; step 5): an operation that a slice is in goes over into it. -/
def State.cleanAll (s : State) : State := (List.range 16).foldl (fun s n => s.beginClean n 1 false 0) s

/-- Step 6: every directory entry recalled from its peers and hosts. -/
def State.recallAll (s : State) : State :=
  let places := (s.coh.dir.cells.map fun c => s.dirPlace c.1).eraseDups
  places.foldl (fun s x =>
    let bits := s.dirBits x.1 x.2
    let devs := otherPeers bits (.host 32)
    let ports := s.otherPorts bits (.peer 16)
    if devs.isEmpty && ports.isEmpty then s else s.launchSector x.1 x.2 (.recall 16384 false) devs ports) s

/-- The lines that a recall brought back leave Kindling for DRAM, as far as they go (R65). -/
def State.emptyKind (s : State) : State :=
  (s.evictAllOf (s.kind.lines.cells.map (·.1))).2

/-- Whether no write waits: Kindling, engines, write queues, merge buffers, the map cache. -/
def State.written (s : State) : Bool :=
  s.kind.lines.cells.isEmpty && s.kind.fills.isEmpty && s.mapDirty.isEmpty &&
  s.eng.czWait.isEmpty && s.eng.czHeld.isEmpty && ((List.range 16).all fun e => (s.eng.cq.get e).isEmpty) &&
    (s.dram.subs.cells.all fun c => c.2.wq.isEmpty) && (s.dram.chans.cells.all fun c => c.2.merges.isEmpty && c.2.scrub.isEmpty)

/-- The drain brought on by a step where the one in hand has ended (R448). -/
def State.settleDrain (s : State) : State :=
  let on := fun (s : State) (k : Nat) => { s with boot := { s.boot with drainPhase := k } }
  if s.boot.drain.isNone then s
  else
    match s.boot.drainPhase with
    | 0 => if s.drained then on s.cleanAll 1 else s
    | 1 => if s.slicesIdle && s.drained then (on s.recallAll 2).finish else s
    | 2 => if s.drained then (on s.emptyKind 3).finish else s
    | _ => if s.kind.lines.cells.isEmpty && s.eng.czHeld.isEmpty then s.storeMaps else s.emptyKind

/-- Whether the drain has ended. -/
def State.drainOver (s : State) : Bool := s.boot.drain.isSome && s.boot.drainPhase == 3 && s.drained && s.written

/-! ### Asking for a reset -/

/-- An immediate Warm reset; one asked for during a LASTGASP flush follows it (R391), and one asked for before a Cold start has
begun finds the main die in reset already. -/
def State.askImmediate (s : State) : State :=
  let cold := s.boot.hold && s.rd R.CHIP_BOOTSTAT_RSTCAUSE == 0 && s.rd R.CHIP_BOOTSTAT_PHASE == 0
  if !s.boot.supplies || cold then s
  else if s.peat.flush.isSome then { s with boot := { s.boot with resetDue := true } }
  else s.warmReset 2

/-- An orderly Warm reset: at once an immediate one while the device is lost, and one that follows a LASTGASP flush, whose stopped
clocks (R486) leave nothing to drain; one already draining goes on. -/
def State.askOrderly (s : State) : State :=
  if s.lost || s.peat.flush.isSome then s.askImmediate
  else if s.boot.hold || s.boot.drain.isSome || !s.boot.supplies then s
  else
    let s : State := { s with boot := { s.boot with drain := some s.gtc, drainPhase := 0 } }
    s.stopMigs.finish.settleDrain

end Sys2Proof.Machine
end

