-- ==== Sys2Proof/Machine/FaultCmd.lean ====
section
/-!
DEFINITION. The commands of the chip fault block (chapter 17) but for the thermal trip: SRAM faults and spare rows (R378), mesh
links, KILL and the watchdog (R379), lost peers (R387), and the reading of records (R390).
-/
namespace Sys2Proof.Machine

/-! ### SRAM faults -/

/-- The slice of an SRAM word; none for chip-level state. -/
def sramSlice : SramUnit → Option Nat
  | .kindling n _ _ | .directory n _ | .mapCache n _ | .queue n => some n
  | .chip _ => none

/-- A spare row of a macro taken, when one of its 16 is left (Table 17-1). -/
def State.spareRow (s : State) (rg k : Nat) : Bool × State :=
  let used := s.flt.spareRows.get k
  if used ≥ 16 then (false, s)
  else
    let s : State := { s with flt := { s.flt with spareRows := s.flt.spareRows.put k (used + 1) } }
    (true, s.satAdd (R.RF_STAT_SPROWS rg) 1)

/-- A word corrected by its code: one that is wrong again on its re-read has its row replaced, or is passed to its block. -/
def State.sramCorrected (s : State) (u : SramUnit) (k : Nat) (lasting : Bool) : State :=
  let n := (sramSlice u).getD 0
  let (kept, s) := if lasting then s.spareRow (n / 4) k else (true, s)
  let s := s.log {
    type := 0x0304, sev := 1, cls := if lasting then 2 else 1, level := if kept then 0 else 1, ukind := if u == .chip true then 7 else 3,
    unit := n }
  match u, lasting with
  | .kindling _ _ way, true => s.wayWord n way false
  | _, _ => s

/-- A lasting word of a home slice's queues (R19, R378): what it held is poison. The spec does not say which request a word holds; the
model takes the slice's oldest waiting one that carries data (DESIGN CHOICE, assumption 105). -/
def State.poisonQueued (s : State) (n : Nat) : State :=
  match (s.coh.ordq.get n).span fun r => !r.op.isWrite with
  | (a, r :: b) => { s with coh := { s.coh with ordq := s.coh.ordq.put n (a ++ { r with poison := true } :: b) } }
  | (_, []) => s

/-- A lasting word of a set of a slice's map cache: a clean entry is read again from DRAM when it is next needed; a dirty one is lost
as one of an unreadable line is (R386). Taken to be the set's entry used last, since the fault is met on an access (DESIGN CHOICE,
assumption 105). -/
def State.loseMapWord (s : State) (k : Nat) : State :=
  match s.tier.mcache.get k with
  | [] => s
  | (key, dirty) :: ws =>
    if dirty then s.loseMapEntry key
    else ({ s with tier := { s.tier with mcache := s.tier.mcache.put k ws } } : State).metaStore key false

/-- A word found uncorrectable: a Kindling line is fetched again or written back as poison (R69), a directory entry is
resolved by broadcast (R77), a map-cache entry is read again or lost, a queued word that stays wrong passes up to the chip, which
poisons its data, and chip-level state is reloaded or the device is lost (R378, R379). -/
def State.sramLost (s : State) (u : SramUnit) (lasting : Bool) : State :=
  let note := fun (s : State) (n level : Nat) => s.log {
    type := 0x0304, sev := if lasting then 3 else 1, cls := if lasting then 2 else 1, level := level, ukind := 3, unit := n }
  match u with
  | .kindling n set way =>
    let l := s.kLine n set way
    if l.st == .invalid then (note s n 1).wayWord n way true
    else s.lineUpset n (if l.blk then l.tag * 1024 + set % 16 * 64 else lineAddr set l) way
  | .directory n dpa =>
    match s.domOf dpa.toNat with
    | some (_, e) => if (s.dirWay n dpa.toNat).isSome then s.loseDir n dpa.toNat e else note s n 1
    | none => note s n 1
  | .mapCache n set =>
    let s := note s n 1
    if lasting then s.loseMapWord (n.val * 4096 + set.val) else s
  | .queue n => if lasting then (note s n 3).poisonQueued n else note s n 1
  | .chip reload =>
    let s := s.log { type := 0x0304, sev := if reload then 1 else 3, cls := if reload then 1 else 2, level := 3, ukind := 7 }
    if reload then s else s.loseDevice 3

/-- SRAM_FAULT (R378): `bank` numbers the SRAM macro within its unit, `ue` says that the code cannot correct the word, `lasting`
that its re-read is wrong again. -/
def execSramFault (unit : SramUnit) (bank : BitVec 16) (ue lasting : Bool) (s : State) : Answer :=
  let k := (match unit with
    | .kindling n _ _ => 4 * n.val
    | .directory n _ => 4 * n.val + 1
    | .mapCache n _ => 4 * n.val + 2
    | .queue n => 4 * n.val + 3
    | .chip _ => 64) * 65536 + bank.toNat
  .next (if ue then s.sramLost unit lasting else s.sramCorrected unit k lasting).finish

/-! ### Device loss -/

/-- MESH_LINK (R379): a message that fails again when its stop resends it loses the device. -/
def execMeshLink (region : Fin 4) (again : Bool) (s : State) : Answer :=
  let r : Record := {
    type := 0x010C, sev := if again then 4 else 1, cls := if again then 2 else 1, level := if again then 3 else 1, ukind := 6,
    unit := region }
  let s := s.log r
  .next (if again then (s.loseDevice 2).finish else s)

/-- `CF_CTL` written (Table 17-9): `KILL` declares the device lost, `DECLARE` the peer that `PEER` names. -/
def State.writeCfctl (s : State) (v : BitVec 32) : State :=
  let s := s.putReg R.CF_CTL v
  let s := if bit v 31 then s.losePeer (fld v 27 24) else s
  if bit v 30 then s.loseDevice 6 else s

/-- KILL (R379). -/
def execKill (p : Path) (val : BitVec 32) (s : State) : Answer :=
  .next (s.writing p R.CF_CTL (setFld val 30 30 1) fun v s => s.writeCfctl v).finish
/-- DECLARE (R387). -/
def execDeclare (p : Path) (val : BitVec 32) (s : State) : Answer :=
  .next (s.writing p R.CF_CTL (setFld val 31 31 1) fun v s => s.writeCfctl v).finish

/-- WATCHDOG_EXPIRY (R379): AOT1 finds the chip arbiter or the control ring stalled; not while the main die is held in reset or
unpowered. -/
def execWatchdogExpiry (s : State) : Answer :=
  .next (if s.boot.hold || !s.boot.supplies || s.rd R.PS_STAT_STATE == 3 then s else (s.loseDevice 5).finish)

/-! ### Records -/

/-- FAULT_N is asserted while an unread record of at least `FAULTSEV` is held (Table 17-9). -/
def State.faultN (s : State) : Bool := s.flt.ring.any fun r => r.unread && decide (r.sev ≥ s.rd R.CF_CTL_FAULTSEV)

/-- A read of `CF_REC0` latches the record at `CF_RECIDX` and marks it read (R390). -/
def State.readRecord (s : State) : BitVec 32 × State :=
  let i := s.rd R.CF_RECIDX_IDX
  let ring := s.flt.ring.map fun x => if x.index == i && i < s.rd R.CF_NEXT_NEXT then { x with unread := false } else x
  let x : BitVec 512 := ofLe 512 (s.recordBytes i)
  (x.setWidth 32, { s with flt := { s.flt with latched := x, ring := ring } })

/-- FAULT_RECORD_READ (R390). -/
def execFaultRecordRead (p : Path) (s : State) : Answer := .next (s.reading p (R.CF_REC 0) State.readRecord)

end Sys2Proof.Machine
end

