-- ==== Sys2Proof/Machine/PeatPage.lean ====
section
/-!
DEFINITION. A page of the Peat log (R392, R393): its layout and its tag.
-/
namespace Sys2Proof.Machine

/-- Bytes 503:0 of a page (Table 18-1): a written page of a stream's object, with `FLAGS` bits for its first and last page. -/
def peatBody (stream obj : Nat) (first last : Bool) (seq : Nat) (payload : BitVec 3904) : List Byte :=
  [0x45, 0x50, byteOf stream, byteOf (b2n first + 2 * b2n last)] ++ leBytes 4 (BitVec.ofNat 32 obj) ++
    leBytes 8 (BitVec.ofNat 64 seq) ++ leBytes 488 payload

/-- A whole page: `TAG` is the leftmost 64 bits of AES-CMAC under DK5. -/
def peatPage (stream obj : Nat) (first last : Bool) (seq : Nat) (payload : BitVec 3904) : BitVec 4096 :=
  let b := peatBody stream obj first last seq payload
  ofLe 4096 (b ++ (aesCmac Config.sealKey b).take 8)

/-- Whether a page is valid (R393). -/
def peatPageValid (x : BitVec 4096) : Bool :=
  let b := leBytes 512 x
  fld x 15 0 == 0x5045 && decide (1 ≤ fld x 23 16) && decide (fld x 23 16 ≤ 7) &&
    (aesCmac Config.sealKey (b.take 504)).take 8 == b.drop 504

/-- `FLAGS` and `SEQ` of a page. -/
def peatFirst (x : BitVec 4096) : Bool := bit x 24
def peatLast (x : BitVec 4096) : Bool := bit x 25
def peatSeq (x : BitVec 4096) : Nat := fld x 127 64

/-- Whether pages make a valid object (R393): valid ones with consecutive `SEQ`, the first marked first and the last marked last. -/
def peatObjectValid (pages : List (BitVec 4096)) : Bool :=
  pages.all peatPageValid && pages.head?.any peatFirst && pages.getLast?.any peatLast &&
    (pages.zip (pages.drop 1)).all fun x => peatSeq x.2 == peatSeq x.1 + 1

end Sys2Proof.Machine
end

