-- ==== Sys2Proof/Machine/Peat.lean ====
section
/-!
DEFINITION. The Peat log (chapter 18): the configuration image, the objects that wait to be written, the frontier with its reserve
and relocation, the LASTGASP flush, and recovery at a start. The log is modelled by its objects and the pages they take.
-/
namespace Sys2Proof.Machine

/-! ### The configuration image -/

/-- The bits of a register that the image keeps (Table 18-2): RWS fields, the fields of class I that are written, and
the channel marks. -/
def imageValue (r : RegRow) (off : Nat) (v : BitVec 32) : BitVec 32 :=
  r.fields.foldl (fun w f =>
    if f.acc == .rws || (r.cls == .i && (f.acc == .rw || f.acc == .rwl)) || r.base == R.CH_MARK 0 0 then
      setFld w f.hi f.lo (fld v f.hi f.lo)
    else w) (regReset off)

/-- The registers that the image keeps, the regulator's by their committed settings. -/
def State.imageRegs (s : State) : Tab (BitVec 32) :=
  let plain := s.regs.cells.filterMap fun c =>
    if c.1 ≥ 2 ^ 28 || stagedRgl.contains c.1 then none
    else
      match regRow c.1 with
      | none => none
      | some r => if imageValue r c.1 c.2 == regReset c.1 then none else some (c.1, imageValue r c.1 c.2)
  stagedRgl.foldl (fun t o => t.putD (regReset o) o (s.rglLatest o)) ⟨plain⟩

/-- The configuration as it stands. -/
def State.imageNow (s : State) : Image :=
  { entries := s.dom.entries, regs := s.imageRegs, claim := s.claim
    redirect := (List.range 16).foldl (fun (t : Tab (Tab Nat)) n => t.put n (s.dram.chans.get n).redirect) Tab.empty
    retired := (List.range 16).filter fun n => (s.dram.chans.get n).retired
    region := s.tier.region, metaChans := s.tier.metaChans, place := s.tier.place, params := s.core.params }

/-- `PL_STAT.PEND`: a configuration step is not yet journalled (R399). -/
def State.peatPending (s : State) : Bool := s.peat.image != some s.imageNow

/-! ### Pages -/

/-- Pages of the array (R392). -/
def peatPages : Nat := 131072

/-- Whether a page holds a live object. -/
def PeatState.live (p : PeatState) (page : Nat) : Bool := p.objs.any fun o => o.pages.contains page

/-- Live pages (R395). -/
def PeatState.livePages (p : PeatState) : Nat := p.objs.foldl (fun n o => n + o.pages.length) 0

/-- The first page from `x` on that `busy` does not name. -/
def peatSkip (busy : Nat → Bool) : Nat → Nat → Nat
  | 0, x => x
  | f + 1, x => if busy x then peatSkip busy f ((x + 1) % peatPages) else x

/-- The page that the next write takes: neither retired nor live (R395). -/
def PeatState.next (p : PeatState) : Nat :=
  peatSkip (fun x => p.bad.contains x || p.live x) (p.bad.length + p.livePages) p.frontier

/-- How far a page lies ahead of the frontier. -/
def PeatState.ahead (p : PeatState) (page : Nat) : Nat := (page + peatPages - p.frontier) % peatPages

/-- Pages from the frontier on that hold the next 4,096 writable ones and the page beyond them (R396). -/
def PeatState.window (p : PeatState) : Nat := 4097 + (p.bad.filter fun b => decide (p.ahead b < 4096)).length

/-- A live page that has to leave the reserve, or the page beyond it, before the next write (R396): the nearest. -/
def PeatState.inReserve (p : PeatState) : Option Nat :=
  ((p.objs.map (·.pages)).flatten.filter fun x => decide (p.ahead x < p.window)).foldl (fun (b : Option Nat) x =>
    match b with
    | none => some x
    | some y => if p.ahead x < p.ahead y then some x else some y) none

/-- The log Worn when it has made its laps or lost its pages (Table 18-3). -/
def State.wornSync (s : State) : State :=
  let s := if s.rd R.PL_WEAR_LAPS ≥ 90000000 then s.set1 R.PL_STAT_WEAR90 else s
  if s.rd R.PL_WEAR_LAPS ≥ 100000000 || s.peat.bad.length > 1023 then s.wr R.PL_STAT_STATE 3 else s

/-- The frontier moved past a page; a wrap is one lap. -/
def State.movePast (s : State) (page : Nat) : State :=
  let wraps := decide (page + 1 ≥ peatPages) || decide (page < s.peat.frontier)
  let s : State := { s with peat := { s.peat with frontier := (page + 1) % peatPages } }
  if wraps then s.satAdd R.PL_WEAR_LAPS 1 else s

/-- A page of an object written at the frontier with the next sequence number (Table 18-1): the page, and the state. -/
def State.writePage (s : State) (key : Nat × Nat) (first last : Bool) : Nat × State :=
  let page := s.peat.next
  let n := s.peat.seq + 1
  let s : State := { s with peat := { s.peat with
    seq := n, closed := false, array := s.peat.array.put page (peatPage key.1 key.2 first last n (Config.pagePayload n)) } }
  (page, (s.movePast page).count 4 0 0x83 1 none none)

/-- A page that has failed its verification twice retired (R392). -/
def State.retirePage (s : State) : State :=
  let page := s.peat.next
  let s : State := { s with peat := { s.peat with bad := page :: s.peat.bad, badDue := true } }
  ((s.movePast page).satAdd R.PL_STAT_RETIRED 1).wornSync

/-- The live object at a page copied to the frontier (R395). -/
def State.relocatePage (s : State) (old : Nat) : State :=
  let page := s.peat.next
  let move := fun (o : PeatObj) => { o with pages := o.pages.map fun x => if x == old then page else x }
  let s : State := { s with peat := { s.peat with
    objs := s.peat.objs.map move, array := s.peat.array.put page (s.peat.array.get old) } }
  (s.movePast page).count 4 0 0x83 1 none none

/-- The reserve cleared by relocation (R400), one page at a time. -/
def State.clearReserve : Nat → State → State
  | 0, s => s
  | f + 1, s =>
    match s.peat.inReserve with
    | some old => State.clearReserve f (s.relocatePage old)
    | none => s

/-! ### What waits to be written -/

/-- Records of severity 2 or higher that have not been journalled. -/
def State.unjournalled (s : State) : List Record := s.flt.ring.filter fun r => decide (r.sev ≥ 2) && decide (r.index ≥ s.peat.hlt)

/-- A channel's training record as it stands. -/
def State.trnNow (s : State) (n : Nat) : Option TrnRecord :=
  (s.dram.chans.get n).ident.map fun i =>
    { ident := i, rate := (s.dram.chans.get n).rate, values := (s.dram.chans.get n).values, repairs := (s.dram.chans.get n).repairs }

/-- A channel whose training record has not been written. -/
def State.trnDue (s : State) : Option (Nat × TrnRecord) :=
  (List.range 16).findSome? fun n =>
    match s.trnNow n with
    | some r => if s.peat.trn.get n == some r then none else some (n, r)
    | none => none

/-- The stream and key of an object (Table 18-2). -/
def PeatContent.key : PeatContent → Nat × Nat
  | .full _ => (1, 0)
  | .delta _ => (1, 1)
  | .trn n _ => (2, n)
  | .hlt _ => (3, 0)
  | .cnt => (4, 0)
  | .prg p _ => (5, p)
  | .lgp _ => (6, 0)
  | .bad => (7, 0)

/-- How much an object holds, for its count of pages. -/
def State.contentSize (s : State) : PeatContent → Nat
  | .full i | .delta i => i.entries.cells.length + i.regs.cells.length
  | .trn _ r => r.repairs.length
  | .hlt _ => s.unjournalled.length
  | .prg _ b => b.length
  | .cnt | .lgp _ => 0
  | .bad => s.peat.bad.length

/-- The pages of an object: one for the counters, markers and closing pages, at most one a record for health records. -/
def State.pagesOf (s : State) (c : PeatContent) : Nat :=
  match c with
  | .cnt | .lgp _ => 1
  | .hlt _ => max 1 (min (Config.objectPages 3 (s.contentSize c)) (s.contentSize c))
  | _ => max 1 (Config.objectPages c.key.1 (s.contentSize c))

/-- The object that is written next (Table 18-2). -/
def State.nextObject (s : State) : Option (PeatContent × Nat × Nat) :=
  let p := s.peat
  match s.trnDue with
  | some (n, r) => some (.trn n r, 0, 16)
  | none =>
    if !s.unjournalled.isEmpty then some (.hlt (s.rd R.CF_NEXT_NEXT), 0, 16)
    else if p.badDue then some (.bad, 0, 16)
    else if p.wantFull then some (.full s.imageNow, 0, 16)
    else if s.peatPending && p.image.isSome && p.seen != some s.imageNow then
      let full := p.deltas ≥ 2048 || p.livePages + s.pagesOf (.delta s.imageNow) > 61440
      some (if full then .full s.imageNow else .delta s.imageNow, 0, 16)
    else if p.cntDue then some (.cnt, 0, 16)
    else
      match p.prgPend with
      | x :: _ => some (.prg x.prog x.bytes, x.core, x.tk)
      | [] => none

/-- What a program's record leaves pending once it has been taken up or dropped. -/
def State.takePending (s : State) (c : PeatContent) : State :=
  match c with
  | .prg _ _ => { s with peat := { s.peat with prgPend := s.peat.prgPend.drop 1 } }
  | .bad => { s with peat := { s.peat with badDue := false } }
  | .cnt => { s with peat := { s.peat with cntDue := false } }
  | .full _ => { s with peat := { s.peat with wantFull := false } }
  | _ => s

/-- An object of a log that is Worn or full counted in `DROP` and not written (R395, R398). -/
def State.dropObject (s : State) (c : PeatContent) (core tk : Nat) : State :=
  let s := (s.takePending c).satAdd R.PL_STAT_DROP 1
  match c with
  | .prg _ _ => if tk < 16 then s.ticketDone core tk 0 0 0 else s
  | .hlt n => { s with peat := { s.peat with hlt := n } }
  | .trn n r => { s with peat := { s.peat with trn := s.peat.trn.put n (some r) } }
  | .full i => ({ s with peat := { s.peat with seen := some i } }).clr R.PL_STAT_BUSY
  | .delta i => { s with peat := { s.peat with seen := some i } }
  | _ => s

/-- An object whose last page has been written (R394). -/
def State.objectDone (s : State) (w : PeatWork) : State :=
  let (stream, key) := w.content.key
  let o : PeatObj := { stream := stream, obj := key, seq := w.seq, pages := w.pages }
  let p := s.peat
  let adds := match w.content with
    | .delta _ | .hlt _ | .prg _ _ => true
    | _ => false
  let stale := fun (x : PeatObj) => !adds && x.stream == stream && (stream == 1 || x.obj == key)
  let s : State := { s with peat := { p with cur := none, objs := o :: p.objs.filter fun x => !stale x } }
  match w.content with
  | .full i =>
    let s : State := { s with peat := { s.peat with image := some i, older := p.image, deltas := 0 } }
    let s := s.clr R.PL_STAT_BUSY
    if s.rd R.PL_STAT_STATE == 3 then s else s.wr R.PL_STAT_STATE 1
  | .delta i => { s with peat := { s.peat with image := some i, deltas := s.peat.deltas + w.pages.length } }
  | .trn n r => { s with peat := { s.peat with trn := s.peat.trn.put n (some r) } }
  | .hlt n => { s with peat := { s.peat with
      health := (s.unjournalled.filter fun r => decide (r.index < n)) ++ s.peat.health, hlt := n } }
  | .prg prog b =>
    let s : State := { s with peat := { s.peat with prg := (prog, b) :: s.peat.prg } }
    if w.tk < 16 then s.ticketDone w.core w.tk 0 0 0 else s
  | .lgp c => { s with peat := { s.peat with closed := c } }
  | .cnt | .bad => s

/-- Records of a program beyond its newest 256 KiB are stale (R394): the records kept, newest first, with their objects. -/
def keepPrg (prog : Nat) : Nat → List (Nat × List Byte) → List (Nat × List Byte)
  | _, [] => []
  | n, (p, b) :: t =>
    if p != prog then (p, b) :: keepPrg prog n t
    else if n + b.length > 262144 then keepPrg prog 262144 t
    else (p, b) :: keepPrg prog (n + b.length) t

/-- The objects of a program's stream kept in step with its records. -/
def State.trimPrg (s : State) (prog : Nat) : State :=
  let prg := keepPrg prog 0 s.peat.prg
  let n := (prg.filter fun x => x.1 == prog).length
  let mine := (s.peat.objs.filter fun o => o.stream == 5 && o.obj == prog).take n
  let others := s.peat.objs.filter fun o => !(o.stream == 5 && o.obj == prog)
  { s with peat := { s.peat with prg := prg, objs := mine ++ others } }

/-- An object begun: Worn logs drop it, and so does a log whose live pages would pass 61,440 for a program's record. -/
def State.beginObject (s : State) : State :=
  match s.nextObject with
  | none => s
  | some (c, core, tk) =>
    let full := match c with
      | .prg _ _ => decide (s.peat.livePages + s.pagesOf c > 61440)
      | _ => false
    if s.rd R.PL_STAT_STATE == 3 then s.dropObject c core tk
    else if full then s.dropObject c core tk
    else
      let w : PeatWork := { content := c, seq := s.peat.seq + 1, pages := [], left := s.pagesOf c, core := core, tk := tk }
      let s := s.takePending c
      { s with peat := { s.peat with cur := some w } }

/-- One page of the object in progress. -/
def State.writeWork (s : State) (w : PeatWork) : State :=
  let (page, s) := s.writePage w.content.key w.pages.isEmpty (w.left == 1)
  let w := { w with pages := w.pages ++ [page], left := w.left - 1 }
  let s := if w.left == 0 then s.objectDone w else { s with peat := { s.peat with cur := some w } }
  match w.content with
  | .prg prog _ => (if w.left == 0 then s.trimPrg prog else s).wornSync
  | _ => s.wornSync

/-- The next page: a live page at the edge of the reserve is moved first (R396); with nothing to write, the frontier moves by
relocation alone (R397). `fails` counts the failed verifications of the page. -/
def State.peatStep (s : State) (fails : Nat) : State :=
  if s.peat.flush.isSome || !s.boot.supplies then s
  else
    let s := if s.peat.cur.isNone then s.beginObject else s
    if s.peat.cur.isSome && fails ≥ 2 then s.retirePage
    else
      match s.peat.inReserve, s.peat.cur with
      | some old, _ => (s.relocatePage old).wornSync
      | none, some w => s.writeWork w
      | none, none => (s.movePast s.peat.next).wornSync

/-- PEAT_PAGE_WRITE (R395). -/
def execPeatPageWrite (fails : Fin 3) (s : State) : Answer := .next (s.peatStep fails)

/-- CNT_WRITE (R394): an hour has passed; the power-on hours count it. -/
def execCntWrite (s : State) : Answer :=
  .next (({ s with peat := { s.peat with cntAt := s.gtc, cntDue := true } } : State).life 0)

/-! ### PL_CTL -/

/-- OP 001: every stream but BAD and CNT made stale, and a full image asked for (R402). -/
def State.clearLog (s : State) : State :=
  let p := s.peat
  let s : State := { s with peat := { p with
    objs := p.objs.filter fun o => o.stream == 7 || o.stream == 4
    cur := none, image := none, older := none, deltas := 0, trn := Tab.empty, health := [], prg := [], wantFull := true } }
  s.wr R.PL_STAT_STATE (if s.rd R.PL_STAT_STATE == 3 then 3 else 0)

/-- `PL_CTL` written: `GO` is discarded while `BUSY` = 1, and while a flush runs (R404). -/
def State.writePlctl (s : State) (v : BitVec 32) : State :=
  let busy := s.flag R.PL_STAT_BUSY || s.peat.flush.isSome
  let s := s.putReg R.PL_CTL v
  if !bit v 31 || busy || fld v 30 28 > 1 then s
  else if fld v 30 28 == 1 then s.clearLog.set1 R.PL_STAT_BUSY
  else ({ s with peat := { s.peat with wantFull := true } }).set1 R.PL_STAT_BUSY

/-- FULL_IMAGE_WRITE (R402). -/
def execFullImageWrite (p : Path) (val : BitVec 32) (s : State) : Answer :=
  .next (s.writing p R.PL_CTL (setFld (setFld val 31 31 1) 30 28 0) fun v s => s.writePlctl v)
/-- LOG_CLEAR (R402). -/
def execLogClear (p : Path) (val : BitVec 32) (s : State) : Answer :=
  .next (s.writing p R.PL_CTL (setFld (setFld val 31 31 1) 30 28 1) fun v s => s.writePlctl v)

/-! ### LASTGASP -/

/-- PFW as the always-on island takes it (R399): ordinary writes stop, and the flush begins. A second PFW during a flush adds
nothing (R404). -/
def State.startFlush (s : State) : State :=
  if s.peat.flush.isSome then s
  else
    let s : State := { s with peat := { s.peat with flush := some s.gtc, flushDone := false } }
    (s.life 3).event 0x14 0

/-- A page that fails its verification in a flush is retired and the next one is used; the numbers in `bad` count the flush's
pages from 0. -/
def State.flushPage (s : State) (bad : List Nat) (k : Nat) (key : Nat × Nat) (first last : Bool) : Nat × State :=
  (if bad.contains k then s.retirePage else s).writePage key first last

/-- An object written into the reserve, as far as the pages left reach: the pages left, and the state. -/
def State.flushObject (s : State) (left used : Nat) (bad : List Nat) (c : PeatContent) : Nat × State :=
  let n := s.pagesOf c
  let seq := s.peat.seq + 1
  let m := min n left
  let (ps, s) := (List.range m).foldl (fun (a : List Nat × State) i =>
    let (page, s) := a.2.flushPage bad (used + i) c.key (i == 0) (i + 1 == n)
    (a.1 ++ [page], s)) ([], s)
  (left - m, if m == n then s.objectDone { content := c, seq := seq, pages := ps, left := 0 } else s)

/-- What a flush writes, in the order of Table 18-4. -/
def State.flushContents (s : State) : List PeatContent :=
  let hlt := if s.unjournalled.isEmpty then [] else [.hlt (s.rd R.CF_NEXT_NEXT)]
  let cfg := if s.peatPending && s.peat.image.isSome then [.delta s.imageNow] else []
  let trn := (List.range 16).filterMap fun n =>
    match s.trnNow n with
    | some r => if s.peat.trn.get n == some r then none else some (.trn n r)
    | none => none
  [.lgp false] ++ hlt ++ [.cnt] ++ cfg ++ trn ++ [.lgp true]

/-- The flush of R399, with the pages that hold-up lasts for. A complete one is closed, counted and told to the feed die. -/
def State.flushLog (s : State) (pages : Nat) (bad : List Nat) : State :=
  if s.peat.flush.isNone || s.peat.flushDone then s
  else
    let s : State := { s with peat := { s.peat with cur := none } }
    let room := min pages (4096 - (bad.filter (· < 4096)).length)
    let (left, s) := s.flushContents.foldl (fun (a : Nat × State) c =>
      if a.1 == 0 then a else a.2.flushObject a.1 (room - a.1) bad c) (room, s)
    if decide (room > 0) && s.peat.closed then ({ s with peat := { s.peat with flush := none, flushDone := true } }).life 4
    else if left == 0 then { s with peat := { s.peat with flush := none } }
    else s

/-- A Warm reset that waited for the flush (R391). -/
def State.resetIfDue (s : State) : State :=
  if s.boot.resetDue && s.peat.flush.isNone then ({ s with boot := { s.boot with resetDue := false } }).warmReset 2 else s

/-- LASTGASP_FLUSH (R399): `pages` is how many pages are written before hold-up ends. -/
def execLastgaspFlush (pages : BitVec 13) (bad : List Nat) (s : State) : Answer := .next (s.flushLog pages.toNat bad).resetIfDue

/-- LASTGASP_DEADLINE (R399): AOT0 expires 4 ms after PFW, and a flush that still runs is at its end. -/
def execLastgaspDeadline (s : State) : Answer :=
  .next (if s.peat.flush.isSome then ({ s with peat := { s.peat with flush := none } } : State).resetIfDue else s)

/-! ### Recovery -/

/-- The log recovered at a start (R400, R401): `newest` says that the newest image and its deltas are valid, `older` that an
older consistent set is. -/
def State.recoverLog (s : State) (newest older : Bool) : State :=
  let p := s.peat
  let img := if newest && p.image.isSome then p.image else if older then p.older else none
  let st := if newest && p.image.isSome then 1 else if img.isSome then 2 else 0
  let s : State := { s with peat := { p with
    cur := none, image := img, wantFull := st == 2, flush := none, flushDone := false, seen := none } }
  let s := State.clearReserve s.peat.livePages s
  let s := (s.wr R.PL_STAT_STATE st).wr R.PL_STAT_LASTOK (b2n (p.closed || p.idle))
  (s.wr R.PL_STAT_RETIRED (min p.bad.length 1023)).wornSync

/-- The pending delta of an orderly drain journalled (step 8 of R448). -/
def State.journalNow (s : State) : State :=
  if !s.peatPending || s.peat.image.isNone || s.rd R.PL_STAT_STATE == 3 || s.peat.flush.isSome then s
  else (s.flushObject 4096 0 [] (.delta s.imageNow)).2

end Sys2Proof.Machine
end

