-- ==== Sys2Proof/Machine/FeedDie.lean ====
section
/-!
DEFINITION. The feed die (chapter 19): feed states, inrush, breaker, ORing, power-good, power-fail warning and release, settings
and OTP, and its link to the always-on island; and the thermal trip (R389), which acts through it. The conditions a command
stands for (a voltage that has held for its filter, a delay that has run) lie outside; the command carries the readings.
-/
namespace Sys2Proof.Machine

/-! ### Fields -/

/-- The number of a feed. -/
def feedIx : Feed → Nat
  | .a => 0
  | .b => 1

/-- The state and trip count of a feed in `FD_STAT`. -/
def feedState : Feed → Fld
  | .a => R.FD_STAT_STATEA
  | .b => R.FD_STAT_STATEB
def feedTrips : Feed → Fld
  | .a => R.FD_STAT_TRIPA
  | .b => R.FD_STAT_TRIPB

/-- A feed's state code (Table 19-3). -/
def State.feedSt (s : State) (x : Feed) : Nat := s.rd (feedState x)

/-- A setting in force. -/
def State.feedSet (s : State) (f : Fld) : Nat := fld (s.feed.set.getD (regReset f.off) f.off) f.hi f.lo

/-- The registers that stage a settings set, in ascending order (Table 19-11). -/
def feedStaging : List Nat :=
  [R.FD_WIN, R.FD_PFW, R.FD_SEQ, R.FD_RETRY, R.FD_SHUNT] ++ (List.range 8).map fun k => R.FD_BP0 + 4 * k

/-- I[k] and T[k] of a settings set. -/
def bpCur (get : Nat → BitVec 32) (k : Nat) : Nat := fld (get (R.FD_BP0 + 4 * k)) 31 22
def bpTime (get : Nat → BitVec 32) (k : Nat) : Nat := fld (get (R.FD_BP0 + 4 * k)) 21 0
/-- The settings in force by their registers. -/
def State.feedGet (s : State) (off : Nat) : BitVec 32 := s.feed.set.getD (regReset off) off

/-! ### The event log (R422) -/

/-- An event logged at `EVHEAD`. -/
def State.feedEvent (s : State) (code feed arg : Nat) : State :=
  let k := s.rd R.FD_STAT_EVHEAD
  let v : BitVec 32 := BitVec.ofNat 32 (code * 2 ^ 24 + feed * 2 ^ 22 + arg * 2 ^ 19 + s.feed.ns / 1000000 % 2 ^ 19)
  (s.setReg (R.FD_EVT k) v).wr R.FD_STAT_EVHEAD ((k + 1) % 16)

/-! ### Power-fail warning and release (R415, R416) -/

/-- The clocks of G0 to G7 stopped: `STATE` reads 101, and what each core was is kept. -/
def State.stopCores (s : State) : State :=
  (List.range 8).foldl (fun s k =>
    if s.coreSt k == 5 then s
    else ({ s with pow := { s.pow with cores := s.pow.cores.put k (1 + s.coreSt k) } } : State).setCoreSt k 5) s

/-- What the main die does with PFW: LASTGASP starts, and every clock but those of the island and of the path to the Peat log
stops (R486); a start that has not reached READY is abandoned (R456). -/
def State.pfwTaken (s : State) : State :=
  let s := s.startFlush.stopCores
  { s with boot := { s.boot with hold := true } }

/-- PFW raised and latched, with its source: 0 the feeds, 1 thermal. -/
def State.raisePfw (s : State) (src : Nat) : State :=
  if !s.feed.on || !s.flag R.FD_STAT_PG then s
  else
    let s : State := { s with feed := { s.feed with hot := s.feed.hot || src == 1 } }
    if s.flag R.FD_STAT_PFW then s
    else
      let s := (s.set1 R.FD_STAT_PFW).wr R.FD_STAT_PFWSRC src
      (s.feedEvent 0x0D 0 src).pfwTaken

/-- A feed sent to a state; its accumulators start at 0 on entry to On. -/
def State.feedTo (s : State) (x : Feed) (st : Nat) : State :=
  let s := s.wr (feedState x) st
  { s with feed := { s.feed with
    acc := s.feed.acc.drop fun k => k / 8 == feedIx x
    reverse := if st == 2 || st == 3 then s.feed.reverse else s.feed.reverse.put (feedIx x) false } }

/-- The release: every gate off, PG and PFW at 0, every feed Off, or Latched when the thermal input raised PFW. A feed that is
Latched or Reversed stays so. -/
def State.releaseFeeds (s : State) : State :=
  if !s.flag R.FD_STAT_PFW then s
  else
    let hot := s.feed.hot
    let s := (s.clr R.FD_STAT_PG).clr R.FD_STAT_PFW
    let s := (s.feedEvent 0x0E 0 0).feedEvent 0x0C 0 0
    let s := if hot then s.set1 R.FD_STAT_TLATCH else s
    let s : State := { s with
      feed := { s.feed with hot := false }, peat := { s.peat with flushDone := false }
      mgmt := { s.mgmt with acked := setFld s.mgmt.acked 2 2 0 } }
    [Feed.a, Feed.b].foldl (fun s x =>
      let st := s.feedSt x
      if hot then (if st == 5 then s else (s.feedTo x 5).feedEvent 0x0A (feedIx x + 1) 0)
      else if st == 5 || st == 6 then s
      else s.feedTo x 0) s

/-- PFW (R416): no feed in On at VPFW or more for `PFWFILT` ticks, by the feeds' voltages in 0.05 V. -/
def State.pfwFeeds (s : State) (va vb : Nat) : State :=
  let ok := fun (x : Feed) (v : Nat) => s.feedSt x == 3 && decide (v ≥ 800 + 5 * s.feedSet R.FD_PFW_VPFW)
  if ok .a va || ok .b vb then s else s.raisePfw 0

/-- PFW (R416). -/
def execPfw (va vb : BitVec 11) (s : State) : Answer := .next (s.pfwFeeds va.toNat vb.toNat)
/-- FLUSH_DONE (R416): GA's wire, while PFW is latched. -/
def execFlushDone (s : State) : Answer := .next (if s.feed.on && s.peat.flushDone then s.releaseFeeds else s)
/-- RELEASE_TIMEOUT (R416): 4 ms after PFW. -/
def execReleaseTimeout (s : State) : Answer := .next (if s.feed.on then s.releaseFeeds else s)

/-- PG_RISE (R415). -/
def execPgRise (s : State) : Answer :=
  let on := [Feed.a, Feed.b].filter fun x => s.feedSt x == 3
  let quiet := on.all fun x => (List.range 8).all fun k => s.feed.acc.get (feedIx x * 8 + k) == 0
  .next (if s.feed.on && !s.flag R.FD_STAT_PG && !on.isEmpty && quiet && !s.flag R.FD_STAT_PFW then
    (s.set1 R.FD_STAT_PG).feedEvent 0x0B 0 0
  else s)
/-- PG_FALL (R415): F_BULK below 40.0 V for its filter time. -/
def execPgFall (s : State) : Answer :=
  .next (if s.feed.on && s.flag R.FD_STAT_PG then (s.clr R.FD_STAT_PG).feedEvent 0x0C 0 0 else s)

/-- THERMAL_TRIP (R389, R379): PFW raised within, THERM_TRIP latched, the device lost. -/
def execThermalTrip (region : Fin 4) (s : State) : Answer :=
  let s := (s.set1 R.CF_STAT_THERMTRIP).life 5
  let s := s.log { type := 0x0607, sev := 4, level := 3, ukind := 6, unit := region }
  .next ((s.loseDevice 1).raisePfw 1).finish

/-! ### Feed states (R408, R409, R412) -/

/-- FEED_DIE_POWER_ON (R406): every feed Off, the log cleared, the settings from OTP or at Reset. -/
def execFeedDiePowerOn (s : State) : Answer :=
  let otp := s.feed.otp
  let set : Tab (BitVec 32) := otp.getD Tab.empty
  let s : State := { s with regs := s.regs.drop fun o => decide (R.FD_STAT ≤ o) && decide (o < R.FD_LINK) }
  let s := feedStaging.foldl (fun s o => s.setReg o (set.getD (regReset o) o)) s
  let s := s.wr R.FD_OTPCTL_PROG (b2n otp.isSome)
  .next { s with feed := { otp := otp, set := set, missed := s.feed.missed } }

/-- FEED_DIE_SUPPLY_LOSS (R406): the feed die stops; its registers read 0 over a link that no longer answers. -/
def execFeedDieSupplyLoss (s : State) : Answer := .next { s with feed := { s.feed with on := false } }

/-- FEED_IN_RANGE (R408): a voltage within UVON to OVON, in 0.05 V. -/
def execFeedInRange (feed : Feed) (v : BitVec 11) (s : State) : Answer :=
  let lo := 800 + 5 * s.feedSet R.FD_WIN_UVON
  let hi := 800 + 5 * s.feedSet R.FD_WIN_OVON
  .next (if s.feed.on && s.feedSt feed == 0 && decide (lo ≤ v.toNat) && decide (v.toNat ≤ hi) then s.feedTo feed 1 else s)

/-- WINDOW_LEFT (R408): below UVOFF, or above OVOFF. -/
def execWindowLeft (feed : Feed) (above : Bool) (s : State) : Answer :=
  let st := s.feedSt feed
  .next (if s.feed.on && (st == 1 || st == 2 || st == 3) then
    (s.feedTo feed 0).feedEvent (if above then 0x04 else 0x03) (feedIx feed + 1) 0
  else s)

/-- INSERTION_DELAY_EXPIRY (R408). -/
def execInsertionDelayExpiry (feed : Feed) (s : State) : Answer :=
  .next (if s.feed.on && s.feedSt feed == 1 then (s.feedTo feed 2).feedEvent 0x01 (feedIx feed + 1) 0 else s)

/-- RAMP_COMPLETE (R409): F_BULK within 1.0 V of the feed, in 0.05 V; the pass gate is enhanced. -/
def execRampComplete (feed : Feed) (v bulk : BitVec 11) (s : State) : Answer :=
  .next (if s.feed.on && s.feedSt feed == 2 && decide (bulk.toNat + 20 ≥ v.toNat) then
    (s.feedTo feed 3).feedEvent 0x02 (feedIx feed + 1) 0
  else s)

/-- A trip (R412): counted, and Latched when the count passes `RETRIES`. -/
def State.trip (s : State) (x : Feed) (code arg : Nat) : State :=
  let latches := decide (s.rd (feedTrips x) ≥ s.feedSet R.FD_RETRY_RETRIES)
  let s := (s.satAdd (feedTrips x) 1).feedEvent code (feedIx x + 1) arg
  if latches then
    (s.feedTo x 5).feedEvent 0x0A (feedIx x + 1) 0
  else s.feedTo x 4

/-- V_SS of the rise test, in units of 0.05 V times `TSTART` in ms: a rise r fails when 2 × TSTART × r < OVOFF × 1 ms (R409). -/
def State.slowRise (s : State) (r : Nat) : Bool :=
  decide (2 * (10 * s.feedSet R.FD_SEQ_TSTART) * r < 800 + 5 * s.feedSet R.FD_WIN_OVOFF)

/-- STARTSHORT (R409): the rise of F_BULK, in 0.05 V, 1 ms into a ramp; the test does not apply where the ramp began with the
bulk already up. -/
def execStartshort (feed : Feed) (start v rise : BitVec 11) (s : State) : Answer :=
  .next (if s.feed.on && s.feedSt feed == 2 && decide (start.toNat + 20 < v.toNat) && s.slowRise rise.toNat then
    s.trip feed 0x07 0
  else s)

/-- START_TIMEOUT (R409). -/
def execStartTimeout (feed : Feed) (s : State) : Answer :=
  .next (if s.feed.on && s.feedSt feed == 2 then s.trip feed 0x08 0 else s)

/-- One accumulator over `n` ticks of a current: where it stands, or the limit reached (R410). -/
def accStep (acc i limit cool cur n : Nat) : Nat :=
  if cur ≥ i then min (acc + 8 * n) limit else acc - cool * n

/-- The breakpoint that trips first within `n` ticks of a current: the tick and k. -/
def State.firstTrip (s : State) (x : Feed) (cur n : Nat) : Option (Nat × Nat) :=
  (List.range 8).foldl (fun (best : Option (Nat × Nat)) k =>
    let i := bpCur s.feedGet k
    let acc := s.feed.acc.get (feedIx x * 8 + k)
    let limit := 200 * bpTime s.feedGet k
    let t := max ((limit - acc + 7) / 8) 1
    let past := decide (acc - s.feedSet R.FD_RETRY_COOL ≥ limit)
    if i == 0 || (cur < i && !past) || t > n then best
    else
      match best with
      | some b => if t < b.1 then some (t, k) else best
      | none => some (t, k)) none

/-- The breaker's curve run over `n` ticks of one current (R410). -/
def State.runBreaker (s : State) (x : Feed) (cur n : Nat) : State :=
  if s.feedSt x != 3 || n == 0 then s
  else
    match s.firstTrip x cur n with
    | some (_, k) => s.trip x 0x05 k
    | none =>
      (List.range 8).foldl (fun s k =>
        let i := bpCur s.feedGet k
        let key := feedIx x * 8 + k
        if i == 0 then s
        else
          let v := accStep (s.feed.acc.get key) i (200 * bpTime s.feedGet k) (s.feedSet R.FD_RETRY_COOL) cur n
          { s with feed := { s.feed with acc := s.feed.acc.put key v } }) s

/-- BREAKER (R410): the samples of a feed's current in 0.1 A, each with the ticks it held. -/
def execBreaker (feed : Feed) (samples : List (BitVec 10 × BitVec 32)) (s : State) : Answer :=
  .next (if s.feed.on then
    samples.foldl (fun (s : State) (x : BitVec 10 × BitVec 32) => s.runBreaker feed x.1.toNat x.2.toNat) s
  else s)

/-- FAST_TRIP (R411): a current in 0.1 A past `FAST` in On, or past 4 × `INRUSH` in Ramp. -/
def execFastTrip (feed : Feed) (current : BitVec 11) (s : State) : Answer :=
  .next (if !s.feed.on then s
  else if s.feedSt feed == 3 && current.toNat > s.feedSet R.FD_SHUNT_FAST then s.trip feed 0x06 0
  else if s.feedSt feed == 2 && current.toNat > 4 * s.feedSet R.FD_SEQ_INRUSH then s.trip feed 0x07 0
  else s)

/-- RETRY_DELAY_EXPIRY (R412). -/
def execRetryDelayExpiry (feed : Feed) (s : State) : Answer :=
  .next (if s.feed.on && s.feedSt feed == 4 then s.feedTo feed 1 else s)

/-- TRIP_COUNT_CLEAR (R412): 10 s in On without a break. -/
def execTripCountClear (feed : Feed) (s : State) : Answer :=
  .next (if s.feed.on && s.feedSt feed == 3 then s.clr (feedTrips feed) else s)

/-- FEED_REMOVAL (R412): below UVOFF for 1 s; a thermal latch stays. -/
def execFeedRemoval (feed : Feed) (s : State) : Answer :=
  .next (if s.feed.on && s.feedSt feed == 5 && !s.flag R.FD_STAT_TLATCH then s.feedTo feed 0 else s)

/-! ### ORing and reversed feeds (R413, R414) -/

/-- ORING_TURN_OFF (R413). -/
def execOringTurnOff (feed : Feed) (s : State) : Answer :=
  let st := s.feedSt feed
  .next (if s.feed.on && (st == 2 || st == 3) then
    { s with feed := { s.feed with reverse := s.feed.reverse.put (feedIx feed) true } } else s)
/-- ORING_TURN_ON (R413). -/
def execOringTurnOn (feed : Feed) (s : State) : Answer :=
  .next (if s.feed.on then { s with feed := { s.feed with reverse := s.feed.reverse.put (feedIx feed) false } } else s)
/-- REVERSED (R414). -/
def execReversed (feed : Feed) (s : State) : Answer :=
  .next (if s.feed.on && s.feedSt feed != 6 then (s.feedTo feed 6).feedEvent 0x09 (feedIx feed + 1) 0 else s)
/-- REVERSED_CLEAR (R414). -/
def execReversedClear (feed : Feed) (s : State) : Answer :=
  .next (if s.feed.on && s.feedSt feed == 6 then s.feedTo feed 0 else s)

/-! ### Registers (R412, R419 to R421) -/

/-- A write of the feed die's registers: discarded while the link is lost, or the die is unpowered (R419). -/
def State.feedWrite (s : State) (f : State → State) : State := if s.flag R.FD_LINK_LOST || !s.feed.on then s else f s

/-- A feed's trip count and latch cleared; a thermal latch holds the feed Latched. -/
def State.clearFeed (s : State) (x : Feed) : State :=
  let s := s.clr (feedTrips x)
  if s.feedSt x == 5 && !s.flag R.FD_STAT_TLATCH then s.feedTo x 0 else s

/-- `TLATCH` and both latches cleared; the trip counts stand. -/
def State.clearThermal (s : State) : State :=
  [Feed.a, Feed.b].foldl (fun s x => if s.feedSt x == 5 then s.feedTo x 0 else s) (s.clr R.FD_STAT_TLATCH)

/-- `FD_CMD` written. -/
def State.writeFdcmd (s : State) (v : BitVec 32) : State :=
  s.feedWrite fun s =>
    let s := if bit v 29 then s.clearThermal else s
    let s := if bit v 31 then s.clearFeed .a else s
    if bit v 30 then s.clearFeed .b else s

/-- CLRA (R412). -/
def execClra (p : Path) (val : BitVec 32) (s : State) : Answer :=
  .next (s.writing p R.FD_CMD (setFld val 31 31 1) fun v s => s.writeFdcmd v)
/-- CLRB (R412). -/
def execClrb (p : Path) (val : BitVec 32) (s : State) : Answer :=
  .next (s.writing p R.FD_CMD (setFld val 30 30 1) fun v s => s.writeFdcmd v)
/-- CLRT (R412). -/
def execClrt (p : Path) (val : BitVec 32) (s : State) : Answer :=
  .next (s.writing p R.FD_CMD (setFld val 29 29 1) fun v s => s.writeFdcmd v)

/-- Check 1 of Table 19-8. -/
def feedOrder (get : Nat → BitVec 32) : Bool :=
  let w := get R.FD_WIN
  let v := fld (get R.FD_PFW) 31 25
  decide (fld w 31 25 < v) && decide (v + 2 ≤ fld w 24 18) && decide (fld w 24 18 ≤ fld w 17 11) &&
    decide (fld w 17 11 < fld w 10 4) && decide (fld w 10 4 ≤ 80)

/-- Check 2: the breakpoints in use come first, rising in current and falling in time. -/
def feedCurve (get : Nat → BitVec 32) : Bool :=
  let n := ((List.range 8).takeWhile fun k => bpCur get k != 0).length
  decide (n ≥ 1) && ((List.range 8).all fun k => decide (k < n) || bpCur get k == 0) &&
    ((List.range n).all fun k => decide (bpTime get k ≥ 1) &&
      (k == 0 || (decide (bpCur get (k - 1) < bpCur get k) && decide (bpTime get (k - 1) > bpTime get k))))

/-- Check 3: ranges; I[k] × `SHUNT` ≤ 50 mV and `FAST` × `SHUNT` ≤ 60 mV, in units of 0.005 mV. -/
def feedRange (get : Nat → BitVec 32) : Bool :=
  let within := fun (v lo hi : Nat) => decide (lo ≤ v) && decide (v ≤ hi)
  let sh := fld (get R.FD_SHUNT) 31 25
  let fast := fld (get R.FD_SHUNT) 24 15
  let top := (List.range 8).foldl (fun a k => max a (bpCur get k)) 0
  within (fld (get R.FD_PFW) 24 21) 1 15 && within (fld (get R.FD_SEQ) 31 24) 10 200 &&
    within (fld (get R.FD_SEQ) 23 17) 10 100 && within (fld (get R.FD_SEQ) 16 10) 1 100 &&
    within (fld (get R.FD_RETRY) 28 21) 1 255 && within (fld (get R.FD_RETRY) 20 17) 1 8 && within sh 10 100 &&
    ((List.range 8).all fun k => decide (bpCur get k * sh ≤ 10000)) && decide (fast > top) && decide (fast * sh ≤ 12000)

/-- A commit of the staged settings (Table 19-8). -/
def State.feedCommit (s : State) : State :=
  let get := s.reg
  if !feedOrder get || !feedCurve get then s.wr R.FD_COMMIT_STATUS 0x40
  else if !feedRange get then s.wr R.FD_COMMIT_STATUS 0x41
  else
    let set := feedStaging.foldl (fun (t : Tab (BitVec 32)) o => t.putD (regReset o) o (s.reg o)) Tab.empty
    ({ s with feed := { s.feed with set := set } }).wr R.FD_COMMIT_STATUS 0

/-- The settings in force copied into staging. -/
def State.feedCopy (s : State) : State :=
  (feedStaging.foldl (fun s o => s.setReg o (s.feedGet o)) s).wr R.FD_COMMIT_STATUS 0

/-- `FD_COMMIT` written (R420). -/
def State.writeFdcommit (s : State) (v : BitVec 32) : State :=
  s.feedWrite fun s => if !bit v 31 then s else if bit v 30 then s.feedCopy else s.feedCommit

/-- FEED_COMMIT (R420). -/
def execFeedCommit (p : Path) (s : State) : Answer :=
  .next (s.writing p R.FD_COMMIT 0x80000000 fun v s => s.writeFdcommit v)
/-- FEED_COPY (R420). -/
def execFeedCopy (p : Path) (s : State) : Answer :=
  .next (s.writing p R.FD_COMMIT 0xC0000000 fun v s => s.writeFdcommit v)

/-- `FD_OTPCTL` written (R421): a burn with the key 0x5A, once, and not under `FEEDLK` (Table 22-4). -/
def State.writeOtp (s : State) (v : BitVec 32) : State :=
  s.feedWrite fun s =>
    if bit v 31 && fld v 7 0 == 0x5A && s.feed.otp.isNone && !s.flag R.MG_LOCK_FEEDLK then
      ({ s with feed := { s.feed with otp := some s.feed.set } }).set1 R.FD_OTPCTL_PROG
    else s

/-- OTP_BURN (R421). -/
def execOtpBurn (p : Path) (key : BitVec 8) (s : State) : Answer :=
  .next (s.writing p R.FD_OTPCTL (setFld 0x80000000 7 0 key.toNat) fun v s => s.writeOtp v)

/-- HEARTBEAT (R419): three in a row without an answer lose the link; one that is answered brings the readings. -/
def execHeartbeat (answered : Bool) (r : FeedReadings) (s : State) : Answer :=
  .next (if answered && s.feed.on then
    let s : State := ({ s with feed := { s.feed with missed := 0 } }).clr R.FD_LINK_LOST
    let s := (s.wr R.FD_TELA_VIN r.va.toNat).wr R.FD_TELA_IIN r.ia.toNat
    let s := (s.wr R.FD_TELB_VIN r.vb.toNat).wr R.FD_TELB_IIN r.ib.toNat
    (s.wr R.FD_TELBULK_VBULK r.bulk.toNat).wr R.FD_TELBULK_TEMP r.temp.toNat
  else
    let n := min (s.feed.missed + 1) 3
    let s : State := { s with feed := { s.feed with missed := n } }
    if n ≥ 3 then s.set1 R.FD_LINK_LOST else s)

end Sys2Proof.Machine
end

