-- ==== Sys2Proof/Machine/GriharAlu.lean ====
section
/-!
DEFINITION. The general instructions of a Grihar core but for loads, stores and atomics (Tables 14-5 and 14-6), each with the
word that the core fetches.
-/
namespace Sys2Proof.Machine

/-- An ALU instruction (opcode 0x00): rd := ra func rb. -/
def State.aluRun (s : State) (k : Nat) (w : BitVec 32) (upset : Bool) (func : Nat) : Answer :=
  s.gRun k w upset (0x100 + func) fun s =>
    .go (s.setG k (gRd w) (gAlu func (s.g k (gRa w)) (s.g k (gRb w)))) (gAluClocks func) none

/-- An instruction of one clock that writes rd from ra. -/
def State.immRun (s : State) (k : Nat) (w : BitVec 32) (upset : Bool) (row : Nat) (f : BitVec 64 → BitVec 64) : Answer :=
  s.gRun k w upset row fun s => .go (s.setG k (gRd w) (f (s.g k (gRa w)))) 1 none

/-- ADD (R322, Table 14-6). -/
def execAdd (core : Fin 9) (w : BitVec 32) (upset : Bool) (s : State) : Answer := s.aluRun core w upset 0x00
/-- SUB (R322, Table 14-6). -/
def execSub (core : Fin 9) (w : BitVec 32) (upset : Bool) (s : State) : Answer := s.aluRun core w upset 0x01
/-- AND (R322, Table 14-6). -/
def execAnd (core : Fin 9) (w : BitVec 32) (upset : Bool) (s : State) : Answer := s.aluRun core w upset 0x02
/-- OR (R322, Table 14-6). -/
def execOr (core : Fin 9) (w : BitVec 32) (upset : Bool) (s : State) : Answer := s.aluRun core w upset 0x03
/-- XOR (R322, Table 14-6). -/
def execXor (core : Fin 9) (w : BitVec 32) (upset : Bool) (s : State) : Answer := s.aluRun core w upset 0x04
/-- SLL (R322, Table 14-6). -/
def execSll (core : Fin 9) (w : BitVec 32) (upset : Bool) (s : State) : Answer := s.aluRun core w upset 0x05
/-- SRL (R322, Table 14-6). -/
def execSrl (core : Fin 9) (w : BitVec 32) (upset : Bool) (s : State) : Answer := s.aluRun core w upset 0x06
/-- SRA (R322, Table 14-6). -/
def execSra (core : Fin 9) (w : BitVec 32) (upset : Bool) (s : State) : Answer := s.aluRun core w upset 0x07
/-- MUL (R322, Table 14-6). -/
def execMul (core : Fin 9) (w : BitVec 32) (upset : Bool) (s : State) : Answer := s.aluRun core w upset 0x08
/-- MULHU (R322, Table 14-6). -/
def execMulhu (core : Fin 9) (w : BitVec 32) (upset : Bool) (s : State) : Answer := s.aluRun core w upset 0x09
/-- DIVU (R322, Table 14-6). -/
def execDivu (core : Fin 9) (w : BitVec 32) (upset : Bool) (s : State) : Answer := s.aluRun core w upset 0x0A
/-- REMU (R322, Table 14-6). -/
def execRemu (core : Fin 9) (w : BitVec 32) (upset : Bool) (s : State) : Answer := s.aluRun core w upset 0x0B
/-- MINU (R322, Table 14-6). -/
def execMinu (core : Fin 9) (w : BitVec 32) (upset : Bool) (s : State) : Answer := s.aluRun core w upset 0x0C
/-- MAXU (R322, Table 14-6). -/
def execMaxu (core : Fin 9) (w : BitVec 32) (upset : Bool) (s : State) : Answer := s.aluRun core w upset 0x0D
/-- MIN (R322, Table 14-6). -/
def execMin (core : Fin 9) (w : BitVec 32) (upset : Bool) (s : State) : Answer := s.aluRun core w upset 0x0E
/-- MAX (R322, Table 14-6). -/
def execMax (core : Fin 9) (w : BitVec 32) (upset : Bool) (s : State) : Answer := s.aluRun core w upset 0x0F
/-- POPC (R322, Table 14-6). -/
def execPopc (core : Fin 9) (w : BitVec 32) (upset : Bool) (s : State) : Answer := s.aluRun core w upset 0x10
/-- CLZ (R322, Table 14-6). -/
def execClz (core : Fin 9) (w : BitVec 32) (upset : Bool) (s : State) : Answer := s.aluRun core w upset 0x11
/-- SATADD (R322, Table 14-6). -/
def execSatadd (core : Fin 9) (w : BitVec 32) (upset : Bool) (s : State) : Answer := s.aluRun core w upset 0x12
/-- SATSUB (R322, Table 14-6). -/
def execSatsub (core : Fin 9) (w : BitVec 32) (upset : Bool) (s : State) : Answer := s.aluRun core w upset 0x13

/-- ADDI (R322). -/
def execAddi (core : Fin 9) (w : BitVec 32) (upset : Bool) (s : State) : Answer := s.immRun core w upset 0x01 (· + gImm12 w)
/-- ANDI (R322). -/
def execAndi (core : Fin 9) (w : BitVec 32) (upset : Bool) (s : State) : Answer := s.immRun core w upset 0x02 (· &&& gImm12 w)
/-- ORI (R322). -/
def execOri (core : Fin 9) (w : BitVec 32) (upset : Bool) (s : State) : Answer := s.immRun core w upset 0x03 (· ||| gImm12 w)
/-- XORI (R322). -/
def execXori (core : Fin 9) (w : BitVec 32) (upset : Bool) (s : State) : Answer := s.immRun core w upset 0x04 (· ^^^ gImm12 w)
/-- SHI (R322): the amount in bits 5:0 of the immediate and the kind in bits 7:6. -/
def execShi (core : Fin 9) (w : BitVec 32) (upset : Bool) (s : State) : Answer :=
  s.immRun core w upset 0x05 (gShift (fld w 7 6) (fld w 5 0))
/-- MOVI (R322). -/
def execMovi (core : Fin 9) (w : BitVec 32) (upset : Bool) (s : State) : Answer := s.immRun core w upset 0x06 fun _ => gImm17 w

/-- MOVK0 to MOVK3 (R322): a quarter of rd replaced, the rest kept. -/
def execMovk (core : Fin 9) (w : BitVec 32) (upset : Bool) (s : State) : Answer :=
  s.gRun core w upset 0x07 fun s =>
    let h := gOp w - 0x07
    .go (s.setG core (gRd w) (setFld (s.g core (gRd w)) (16 * h + 15) (16 * h) (fld w 15 0))) 1 none

/-- CMP and CMPI (R322): fd := ra cond rb, or ra cond the immediate. -/
def execCmpi (core : Fin 9) (w : BitVec 32) (upset : Bool) (s : State) : Answer :=
  s.gRun core w upset 0x0C fun s =>
    let a := s.g core (fld w 15 11)
    let b := if gOp w == 0x0B then s.g core (fld w 10 6) else gImm11 w
    .go (s.updCore core fun c => c.setFlag (fld w 21 19) (gCond (fld w 18 16) a b)) 1 none

/-- FOP (R322): fd := fa op fb. -/
def execFop (core : Fin 9) (w : BitVec 32) (upset : Bool) (s : State) : Answer :=
  s.gRun core w upset 0x0D fun s =>
    .go (s.updCore core fun c =>
      c.setFlag (fld w 21 19) (gFop (fld w 12 11) (c.flag (fld w 18 16)) (c.flag (fld w 15 13)))) 1 none

/-- SEL (R322): rd := ra when fc = 1, else rb. -/
def execSel (core : Fin 9) (w : BitVec 32) (upset : Bool) (s : State) : Answer :=
  s.gRun core w upset 0x0E fun s =>
    .go (s.setG core (gRd w) (if (s.gcore core).flag (fld w 6 4) then s.g core (gRa w) else s.g core (gRb w))) 1 none

/-- FENCE (R319): every store is visible as soon as it is made here, so that there is nothing to drain. -/
def execFence (core : Fin 9) (w : BitVec 32) (upset : Bool) (s : State) : Answer := s.gRun core w upset 0x18 fun s => .go s 1 none

/-- The PC of a branch's target, modulo 2^64. -/
def branchTo (pc : Nat) (w : BitVec 32) : Nat := (BitVec.ofNat 64 pc + gOff w).toNat

/-- BR (R322). -/
def execBr (core : Fin 9) (w : BitVec 32) (upset : Bool) (s : State) : Answer :=
  s.gRun core w upset 0x1C fun s => .go s 3 (some (branchTo (s.gcore core).pc w))

/-- CALL (R322): g31 := PC + 4. -/
def execCall (core : Fin 9) (w : BitVec 32) (upset : Bool) (s : State) : Answer :=
  s.gRun core w upset 0x1D fun s =>
    let pc := (s.gcore core).pc
    .go (s.setG core 31 (BitVec.ofNat 64 (pc + 4))) 3 (some (branchTo pc w))

/-- JR (R322): ALIGN where the address is not a multiple of 4. -/
def execJr (core : Fin 9) (w : BitVec 32) (upset : Bool) (s : State) : Answer :=
  s.gRun core w upset 0x1E fun s =>
    let a := (s.g core (gRa w)).toNat
    if a % 4 != 0 then .fault 0x4 a
    else .go (s.setG core (gRd w) (BitVec.ofNat 64 ((s.gcore core).pc + 4))) 3 (some a)

/-- A special register (Table 14-2). -/
def State.special (s : State) (k i : Nat) : Nat :=
  let c := s.gcore k
  match i with
  | 0 => s.gtc
  | 1 => k + 16 * b2n c.host
  | 2 => c.event
  | 3 => c.evarg
  | 4 => c.ckclk
  | _ => c.run

/-- MFS (R322). -/
def execMfs (core : Fin 9) (w : BitVec 32) (upset : Bool) (s : State) : Answer :=
  s.gRun core w upset 0x20 fun s => .go (s.setG core (gRd w) (BitVec.ofNat 64 (s.special core (fld w 11 0)))) 2 none

/-- CKPT (R334): requests that wait take effect with the next instruction to come. -/
def execCkpt (core : Fin 9) (w : BitVec 32) (upset : Bool) (s : State) : Answer :=
  s.gRun core w upset 0x22 fun s =>
    let pc := (s.gcore core).pc + 4
    .own ((s.gStep core 1 pc).checkpoint core pc)

/-- HALT (R322, R333): the run ends, and requests that wait take effect. -/
def execHalt (core : Fin 9) (w : BitVec 32) (upset : Bool) (s : State) : Answer :=
  s.gRun core w upset 0x23 fun s => .own ((s.endRun core).checkpoint core 0)

/-- TRAP (R322): its 22-bit code stands where a memory fault records its address. -/
def execTrap (core : Fin 9) (w : BitVec 32) (upset : Bool) (s : State) : Answer := s.gRun core w upset 0x24 fun _ => .fault 0xC (fld w 21 0)

end Sys2Proof.Machine
end

