-- ==== Sys2Proof/Machine/Rings.lean ====
section
/-!
DEFINITION. Command rings and what their descriptors do (R342 to R350, R353 to R356, R358): the taking of a descriptor, each
operation, and the writing of completions (R352).
-/
namespace Sys2Proof.Machine

/-! ### Descriptors -/

/-- The operand bytes of an opcode (Table 15-5); none for a code not in the table. -/
def descOperands (op : Nat) : Option (List (Nat × Nat)) :=
  match op with
  | 0x0001 => some [(17, 16), (87, 24)]
  | 0x0002 | 0x0020 => some [(17, 16)]
  | 0x0010 => some [(16, 16), (17, 17), (23, 20), (27, 24)]
  | 0x0011 => some [(17, 16), (18, 18), (19, 19), (23, 20)]
  | 0x0012 | 0x0013 => some [(17, 16), (18, 18), (31, 24)]
  | 0x0021 => some [(17, 16), (18, 18), (19, 19), (20, 20), (31, 24), (35, 32)]
  | 0x0022 => some [(17, 16), (18, 18), (19, 19), (20, 20)]
  | 0x0023 => some [(16, 16), (19, 18)]
  | 0x0024 => some [(17, 16), (23, 20)]
  | 0x0030 => some [(19, 16), (20, 20)]
  | 0x0031 => some [(19, 16)]
  | _ => none

/-- Whether a descriptor's operands lie outside what Table 15-5 gives. -/
def descRange (d : BitVec 1024) : Bool :=
  let b := descBytes d
  match descOp d with
  | 0x0001 | 0x0002 | 0x0020 => decide (b 17 16 ≥ 16384)
  | 0x0010 => decide (b 16 16 ≥ 8) || decide (b 17 17 ≥ 4)
  | 0x0011 => decide (b 19 19 ≥ 2)
  | 0x0012 => decide (b 18 18 ≥ 6)
  | 0x0021 => decide (b 17 16 ≥ 16384) || decide (b 18 18 ≥ 3) || decide (b 19 19 ≥ 16) || b 20 20 == 0 || decide (b 20 20 > 4)
  | 0x0022 => decide (b 19 19 ≥ 2) || b 20 20 == 0 || decide (b 20 20 > 99)
  | 0x0023 => decide (b 16 16 ≥ 3) || decide (b 19 18 ≥ 16384) || (b 16 16 != 0 && b 19 18 != 0)
  | 0x0024 => decide (b 17 16 ≥ 16384) || decide (b 23 20 ≥ 2 ^ 26)
  | 0x0030 => decide (b 20 20 ≥ 3)
  | _ => false

/-- The status of a descriptor's form (R348): BAD_OPCODE, BAD_OPERAND or 0. -/
def descStatus (d : BitVec 1024) : Nat :=
  match descOperands (descOp d) with
  | none => 0x80
  | some rs =>
    let rest := rs.foldl (fun (x : BitVec 1024) r => setFld x (8 * r.1 + 7) (8 * r.2) 0) d
    let rest := setFld (setFld rest 17 0 0) 63 32 0
    if rest != 0 || descRange d then 0x69 else 0

/-! ### Operations. `src` is a ring, or 8 + the logical port of a mailbox -/

/-- An immediate completion. -/
def State.immediate (s : State) (src status : Nat) (result : List Byte) : State := s.firstCompletion src status 1 0 result

/-- COMMIT_DOMAIN. -/
def State.opCommit (s : State) (src : Nat) (d : BitVec 1024) : State :=
  s.askCommit (descBytes d 17 16) (d.extractLsb' 192 512) none 2 src

/-- READ_DOMAIN. -/
def State.opRead (s : State) (src : Nat) (d : BitVec 1024) : State :=
  s.immediate src 0 (leBytes 64 (s.entry (descBytes d 17 16)))

/-- Whether the staged capability record breaks Table 14-12. -/
def capBad (cap : List Byte) : Bool :=
  decide (capN cap 7 0 ≥ 2 ^ 11) || decide (capN cap 9 8 ≥ 2 ^ 9) || decide (capN cap 11 10 > 255) ||
    decide (capN cap 13 12 > 255) || decide (capN cap 29 28 ≥ 2 ^ 9) || decide (capN cap 30 30 ≥ 2 ^ 5) ||
    capN cap 35 33 != 0 || capN cap 63 44 != 0

/-- The staged capability record (R342). -/
def State.stagedCap (s : State) : List Byte :=
  ((List.range 528).map fun i => leBytes 4 (s.reg (0x580000 + 4 * i))).flatten

/-- LOAD_PROGRAM (R342). -/
def State.opLoad (s : State) (src : Nat) (d : BitVec 1024) : State :=
  let k := descBytes d 16 16
  let code := descBytes d 23 20
  let data := descBytes d 27 24
  let replace := d.getLsbD 136
  let start := d.getLsbD 137
  let c := s.gcore k
  if code % 4 != 0 || code < 4 || code > 262144 || data > 516096 || capBad s.stagedCap then s.immediate src 0x87 []
  else if (c.prog != 0 && (!replace || c.host)) || c.load.isSome then s.immediate src 0x88 []
  else if s.coreSt k == 1 then s.updCore k fun c => { c with load := some (code, data, start, src) }
  else
    let (p, s) := (s.endRun k).loadHost k code data start
    s.immediate src 0 (leBytes 2 (BitVec.ofNat 16 p))

/-- Whether an event code is one of Table 15-2, and whether a host program may be bound to it. -/
def eventKnown (c : Nat) : Bool := (1 ≤ c ∧ c ≤ 0x0B) ∨ (0x10 ≤ c ∧ c ≤ 0x14)
def eventHost (c : Nat) : Bool := 1 ≤ c ∧ c ≤ 0x0B

/-- BIND (R343, R344): a code bound again takes the new period. -/
def State.opBind (s : State) (src : Nat) (d : BitVec 1024) : State :=
  let p := descBytes d 17 16
  let code := descBytes d 18 18
  let us := descBytes d 23 20
  match s.coreOf p with
  | none => s.immediate src 0x69 []
  | some k =>
    let c := s.gcore k
    let others := s.core.binds.filter fun b => !(b.prog == p && b.code == code)
    if p == 0 || !eventKnown code || (code == 2 && us == 0) then s.immediate src 0x69 []
    else if (c.host && (!eventHost code || (code == 9 && capN c.cap 27 24 == 0))) || (code == 2 && k == 8) ||
        (others.filter fun b => b.prog == p).length ≥ 16 then s.immediate src 0x89 []
    else
      let b : Bind := { prog := p, code := code, period := if code == 2 then us else 0, next := s.gtc + 1000 * us }
      ({ s with core := { s.core with binds := others ++ [b] } }).immediate src 0 []

/-- UNBIND: the binding goes, with the entry it left pending. -/
def State.opUnbind (s : State) (src : Nat) (d : BitVec 1024) : State :=
  let p := descBytes d 17 16
  let code := descBytes d 18 18
  if s.coreOf p == none || p == 0 || !eventKnown code then s.immediate src 0x69 []
  else
    ({ s with core := { s.core with
        binds := s.core.binds.filter fun b => !(b.prog == p && b.code == code)
        pend := s.core.pend.filter fun x => !(x.1 == p && x.2.1 == code) } }).immediate src 0 []

/-- The state code of a program: its core's, but idle for one of GA's programs while the other runs. -/
def State.progSt (s : State) (k p : Nat) : Nat :=
  let st := s.coreSt k
  if (st == 1 || st == 2) && (s.gcore k).run != p then 0 else st

/-- An action that takes effect at a checkpoint (R334, R345): at once unless its program runs. -/
def State.askProg (s : State) (k p : Nat) (a : Asked) : State :=
  if s.progSt k p == 1 then s.updCore k fun c => { c with asked := c.asked ++ [a] }
  else s.askedNow k (s.gcore k).pc a

/-- The program that a PROG_CTL names, with its core, handed to an action that Table 15-3 allows in some states. -/
def State.progCtl (s : State) (src : Nat) (d : BitVec 1024) (allowed : List Nat) (f : State → Nat → Nat → State) : State :=
  let p := descBytes d 17 16
  match s.coreOf p with
  | some k =>
    if p == 0 then s.immediate src 0x69 []
    else if !allowed.contains (s.progSt k p) then s.immediate src 0x85 []
    else f s k p
  | none => s.immediate src 0x69 []

/-- SUSPEND (Table 15-3). -/
def State.opSuspend (s : State) (src : Nat) (d : BitVec 1024) : State :=
  s.progCtl src d [0, 1, 2] fun s k p => s.askProg k p { action := 0, src := src }
/-- RESUME: the run goes on from its save area; a core that was idle is idle again. -/
def State.opResume (s : State) (src : Nat) (d : BitVec 1024) : State :=
  s.progCtl src d [3] fun s k _ =>
    (s.setCoreSt k (if (s.gcore k).run == 0 then 0 else 1)).immediate src 0 []
/-- CANCEL. -/
def State.opCancel (s : State) (src : Nat) (d : BitVec 1024) : State :=
  s.progCtl src d [1, 2, 3] fun s k p => s.askProg k p { action := 2, src := src }
/-- RESTART: a ROM program that PROG_STOPPED names stays faulted until Warm reset (R346). -/
def State.opRestart (s : State) (src : Nat) (d : BitVec 1024) : State :=
  s.progCtl src d [4] fun s k _ =>
    if (s.gcore k).stopped then s.immediate src 0x85 [] else (s.endRun k).immediate src 0 []
/-- UNLOAD. -/
def State.opUnload (s : State) (src : Nat) (d : BitVec 1024) : State :=
  s.progCtl src d [0, 1, 2, 3, 4, 5] fun s k p => s.askProg k p { action := 4, src := src }
/-- SIGNAL. -/
def State.opSignal (s : State) (src : Nat) (d : BitVec 1024) : State :=
  s.progCtl src d [0, 1, 2, 3, 5] fun s _ p => (s.eventFor p 0x0B (descBytes d 31 24)).immediate src 0 []

/-- The parameters of Table 15-11: program, index, least value, greatest value, default. -/
def paramTable : List (Nat × Nat × Nat × Nat × Nat) :=
  [(1, 0, 0, 254, 1), (1, 1, 1, 255, 8), (1, 2, 1, 255, 100), (1, 3, 1, 4, 2), (1, 4, 0, 3, 3),
   (2, 0, 1, 255, 10), (2, 1, 1, 255, 200), (2, 2, 1, 255, 64), (2, 3, 0, 100, 25),
   (3, 0, 0, 7, 7), (4, 0, 0, 1, 1), (4, 1, 1, 255, 10)]

/-- A parameter's value (Table 15-11). -/
def State.param (s : State) (p i : Nat) : Nat :=
  let v := s.core.params.get (p * 16 + i)
  if v != 0 then v - 1 else ((paramTable.find? fun r => r.1 == p && r.2.1 == i).map (·.2.2.2.2)).getD 0

/-- SET_PARAM (R358): HOT lies above COLD as it stands. A timer that has the parameter for its period begins it anew. -/
def State.opParam (s : State) (src : Nat) (d : BitVec 1024) : State :=
  let p := descBytes d 17 16
  let i := descBytes d 18 18
  let v := descBytes d 31 24
  match paramTable.find? fun r => r.1 == p && r.2.1 == i with
  | none => s.immediate src 0x69 []
  | some r =>
    if v < r.2.2.1 || v > r.2.2.2.1 || (p == 1 && i == 1 && v ≤ s.param 1 0) then s.immediate src 0x69 []
    else
      let s := { s with core := { s.core with params := s.core.params.put (p * 16 + i) (v + 1) } }
      let s := if (p == 1 && i == 2) || (p == 2 && i == 0) then
          { s with core := { s.core with binds := s.core.binds.map fun b =>
            if b.prog == p && b.code == 2 then { b with period := 1000 * v, next := s.gtc + 1000000 * v } else b } }
        else s
      s.immediate src 0 []

/-- A refusal of a job descriptor (R349). -/
def State.refuseJob (s : State) (src status : Nat) : State := s.firstCompletion src status 2 0 []

/-- A job begun unless its descriptor's own checks or R353 refuse it. -/
def State.opJob (s : State) (src : Nat) (d : BitVec 1024) (status : Nat) (j : Job) : State :=
  let j := { j with op := descOp d }
  if status != 0 then s.refuseJob src status
  else if s.jobRefusal j != 0 then s.refuseJob src (s.jobRefusal j)
  else s.takeJob src d j

/-- AUDIT (R209): a second one of a domain waits in Queued. -/
def State.opAudit (s : State) (src : Nat) (d : BitVec 1024) : State :=
  let k := descBytes d 17 16
  let e := s.entry k
  let wait := s.ring.jobs.any fun j => j.op == 0x20 && j.dom == k
  s.opJob src d (if !e.valid then 0x63 else if !s.memberHere e then 0x62 else 0)
    { (default : Job) with
      dom := k, st := if wait then 0 else 1, total := 4 * e.pages, last := 4 * e.pages,
      audit := auditStart k (nextId s.ring.nextJob) }

/-- MIGRATE_RANGE (R354). -/
def State.opRange (s : State) (src : Nat) (d : BitVec 1024) : State :=
  let k := descBytes d 17 16
  let e := s.entry k
  let first := descBytes d 31 24
  let n := descBytes d 35 32
  let ch := descBytes d 19 19
  let status := if !e.valid then 0x63 else if !s.memberHere e then 0x62
    else if ch != 15 && !e.channels.contains ch then 0x69
    else if first + n > e.pages then 0x63 else 0
  s.opJob src d status
    { (default : Job) with
      dom := k, kind := descBytes d 18 18, chan := if ch == 15 then 16 else ch, depth := descBytes d 20 20, st := 1,
      total := n, cur := first, last := first + n }

/-- COMPACT (R354). -/
def State.opCompact (s : State) (src : Nat) (d : BitVec 1024) : State :=
  s.opJob src d 0
    { (default : Job) with
      chan := descBytes d 17 16, bins := descBytes d 18 18, groups := d.getLsbD 152, limit := descBytes d 20 20, st := 1 }

/-- SANITIZE of a scope (R355): refused with PORTS_OPEN while a permission bit stands. -/
def State.opSanitize (s : State) (src : Nat) (d : BitVec 1024) (scope : Nat) : State :=
  let k := descBytes d 19 18
  let opened := fun (e : Entry) => e.rdPorts != 0 || e.wrPorts != 0
  let status := if scope == 0 then (if !(s.entry k).valid then 0x63 else if opened (s.entry k) then 0x86 else 0)
    else if s.domains.any fun c => opened c.2 then 0x86 else 0
  let id := nextId s.ring.nextJob
  let s := s.opJob src d status { (default : Job) with dom := k, kind := scope, st := 1 }
  match s.job id with
  | some j =>
    if j.op == 0x23 && j.phase == 0 && j.src == src then
      let (n1, n2, n3, s) := s.sanitize scope k
      s.updJob id fun j => { j with n1 := n1, n2 := n2, n3 := n3, phase := 1 }
    else s
  | none => s

/-- RESIZE (R356). -/
def State.opResize (s : State) (src : Nat) (d : BitVec 1024) : State :=
  let k := descBytes d 17 16
  let n := descBytes d 23 20
  let e := s.entry k
  let e' : Entry := Entry.withSize e n
  let status := if !e.valid then 0x63 else if e.rdPorts != 0 || e.wrPorts != 0 then 0x86
    else if s.badGeometry k e e' then 0x03 else if s.overlaps k e' then 0x02
    else if s.noCapacity k e' then 0x06 else 0
  let oldP := e.pages
  let newP := e'.pages
  s.opJob src d status
    { (default : Job) with
      dom := k, st := 1, bins := e.size, limit := n, total := if newP > oldP then (newP - oldP + 3) / 4 else oldP - newP }

/-- The job a JOB_CTL or JOB_STATUS names. -/
def State.anyJob (s : State) (id : Nat) : Option Job := (s.ring.jobs ++ s.ring.done).find? fun j => j.id == id

/-- A JOB_CTL action on a job not Done (R354). -/
def State.jobCtl (s : State) (src : Nat) (d : BitVec 1024) (f : State → Job → Nat × State) : State :=
  match s.anyJob (descBytes d 19 16) with
  | none => s.immediate src 0x83 []
  | some j =>
    if j.st == 3 then s.immediate src 0x85 []
    else
      let (st, s) := f s j
      s.immediate src st []

/-- JOB_SUSPEND: at the next unit boundary; a Queued job at once. -/
def State.opJobSuspend (s : State) (src : Nat) (d : BitVec 1024) : State :=
  s.jobCtl src d fun s j =>
    if j.op == 0x23 then (0x84, s)
    else if j.st == 2 || j.hold || j.stop then (0x85, s)
    else if j.st == 0 || j.op == 0x20 then (0, s.jobTo j.id 2)
    else (0, s.updJob j.id fun j => { j with hold := true })

/-- JOB_RESUME: a job whose conflicting job is not Done is Queued again. -/
def State.opJobResume (s : State) (src : Nat) (d : BitVec 1024) : State :=
  s.jobCtl src d fun s j =>
    if j.hold then (0, s.updJob j.id fun j => { j with hold := false })
    else if j.st != 2 then (0x85, s)
    else
      let wait := j.op == 0x20 && s.ring.jobs.any fun x => x.op == 0x20 && x.dom == j.dom && x.id != j.id && x.st != 0
      (0, s.jobTo j.id (if wait then 0 else 1))

/-- JOB_CANCEL (Table 15-10). -/
def State.opJobCancel (s : State) (src : Nat) (d : BitVec 1024) : State :=
  s.jobCtl src d fun s j =>
    if j.op == 0x23 || (j.op == 0x24 && (j.phase != 0 || j.limit < j.bins)) then (0x84, s)
    else if j.stop then (0x85, s)
    else (0, (s.updJob j.id fun j => { j with stop := true }).cancelMigs j.id)

/-- A job status record (Table 15-9). -/
def Job.record (j : Job) : List Byte :=
  leBytes 4 (BitVec.ofNat 32 j.id) ++ leBytes 2 (BitVec.ofNat 16 j.op) ++ [byteOf j.st, byteOf (if j.st == 3 then j.status else 0)] ++
    leBytes 8 (BitVec.ofNat 64 j.done) ++ leBytes 8 (BitVec.ofNat 64 j.total) ++ leBytes 8 (BitVec.ofNat 64 j.gtc)

/-- JOB_STATUS. -/
def State.opJobStatus (s : State) (src : Nat) (d : BitVec 1024) : State :=
  match s.anyJob (descBytes d 19 16) with
  | some j => s.immediate src 0 j.record
  | none => s.immediate src 0x83 []

/-- What a well-formed descriptor asks for, by opcode and action. -/
def State.runDesc (s : State) (src : Nat) (d : BitVec 1024) : State :=
  match descOp d with
  | 0x0001 => s.opCommit src d
  | 0x0002 => s.opRead src d
  | 0x0010 => s.opLoad src d
  | 0x0011 => if d.getLsbD 152 then s.opBind src d else s.opUnbind src d
  | 0x0012 =>
    match descBytes d 18 18 with
    | 0 => s.opSuspend src d
    | 1 => s.opResume src d
    | 2 => s.opCancel src d
    | 3 => s.opRestart src d
    | 4 => s.opUnload src d
    | _ => s.opSignal src d
  | 0x0013 => s.opParam src d
  | 0x0020 => s.opAudit src d
  | 0x0021 => s.opRange src d
  | 0x0022 => s.opCompact src d
  | 0x0023 => s.opSanitize src d (descBytes d 16 16)
  | 0x0024 => s.opResize src d
  | 0x0030 =>
    match descBytes d 20 20 with
    | 0 => s.opJobSuspend src d
    | 1 => s.opJobResume src d
    | _ => s.opJobCancel src d
  | _ => s.opJobStatus src d

/-! ### Rings -/

/-- Where slot i of a ring's submission or completion area lies (R347). -/
def sqSlot (k i : Nat) : Nat := 0x410000 + k * 0x10000 + 128 * i
def cqSlot (k i : Nat) : Nat := 0x418000 + k * 0x10000 + 128 * i

/-- The 128 bytes of a slot. -/
def State.slotBytes (s : State) (off : Nat) : BitVec 1024 :=
  ofLe 1024 ((List.range 32).map fun i => leBytes 4 (s.reg (off + 4 * i))).flatten

/-- A slot written. -/
def State.putSlot (s : State) (off : Nat) (x : BitVec 1024) : State :=
  (List.range 32).foldl (fun s i => s.setReg (off + 4 * i) (x.extractLsb' (32 * i) 32)) s

/-- Whether a ring's completion area is full. -/
def State.cqFull (s : State) (k : Nat) : Bool := (s.rd (R.CR_CQ_CQTAIL k) + 1) % 256 == s.rd (R.CR_CQ_CQHEAD k)

/-- `CQFULL` brought up to the ring's indices. -/
def State.cqSync (s : State) (k : Nat) : State := s.wr (R.CR_STAT_CQFULL k) (b2n (s.cqFull k))

/-- Whether the rings' block is in service: not in Banked or Cinder, and the device not lost. -/
def State.ringsOn (s : State) : Bool := s.serving && !s.lost

/-- `KIND` of a descriptor's first completion (R349): 2 for a job's, 1 for any other. -/
def descKind (d : BitVec 1024) : Nat := if [0x20, 0x21, 0x22, 0x23, 0x24].contains (descOp d) then 2 else 1

/-- The next pending descriptor taken (R347): in order, after the first completion of the one before, and with FENCE after
every earlier job of the ring. One that breaks R348 fails at once. -/
def State.takeDesc (s : State) (k : Nat) : State :=
  let h := s.rd (R.CR_SQ_SQHEAD k)
  let d := s.slotBytes (sqSlot k h)
  if !s.ringsOn || !s.flag (R.CR_CTL_EN k) || h == s.rd (R.CR_SQ_SQTAIL k) || (s.ringOf k).cur.isSome || s.cqFull k ||
      (descFence d && s.ring.jobs.any fun j => j.src == k) then s
  else
    let s := (s.wr (R.CR_SQ_SQHEAD k) ((h + 1) % 256)).set1 (R.CR_STAT_BUSY k)
    let st := descStatus d
    let s := s.updRing k fun r => { r with cur := some d, begun := st != 0 }
    if st == 0 then s
    else
      s.firstCompletion k st (descKind d) 0 []

/-- DESCRIPTOR_TAKE (R347). -/
def execDescriptorTake (ring : Fin 8) (s : State) : Answer := .next (s.takeDesc ring)

/-- The oldest completion of a ring written at CQTAIL when a slot is free (R347, R349, R352). -/
def State.writeCompletion (s : State) (k : Nat) : State :=
  match (s.ringOf k).due with
  | [] => s
  | (rec, irq) :: rest =>
    if s.cqFull k || !s.ringsOn then s
    else
      let t := s.rd (R.CR_CQ_CQTAIL k)
      let s := s.putSlot (cqSlot k t) (stamped rec s.gtc)
      let s := s.wr (R.CR_CQ_CQTAIL k) ((t + 1) % 256)
      let first := fld rec 63 56 != 3
      let s := s.updRing k fun r => if first then { cur := none, begun := false, due := rest } else { r with due := rest }
      let s := if first then s.clr (R.CR_STAT_BUSY k) else s
      let s := s.cqSync k
      let p := s.rd (R.CR_CTL_PORT k)
      if irq && s.flag (R.CR_CTL_IEN k) && (s.place p).on && (s.head p).flit != 0 && !(s.head p).l1 then
        s.send (.msix p (s.rd (R.CR_CTL_VEC k)))
      else s

/-- COMPLETION_WRITE (R347, R352). -/
def execCompletionWrite (ring : Fin 8) (s : State) : Answer := .next (s.writeCompletion ring)

/-- The descriptor in progress of a ring acted on, where it is one that `p` names and has not been acted on yet. -/
def State.onRing (s : State) (k : Nat) (p : BitVec 1024 → Bool) (f : State → BitVec 1024 → State) : State :=
  match (s.ringOf k).cur with
  | some d =>
    if p d && !(s.ringOf k).begun && s.ringsOn then (f (s.updRing k fun r => { r with begun := true }) d).finish else s
  | none => s

/-- Whether a descriptor has an opcode. -/
def isOp (op : Nat) (d : BitVec 1024) : Bool := descOp d == op
/-- Whether a descriptor has an opcode and an action in one of its bytes. -/
def isAct (op byte act : Nat) (d : BitVec 1024) : Bool := descOp d == op && descBytes d byte byte == act

/-- COMMIT_DOMAIN (R348). -/
def execCommitDomain (ring : Fin 8) (s : State) : Answer := .next (s.onRing ring (isOp 0x0001) fun s d => s.opCommit ring d)
/-- READ_DOMAIN (R348). -/
def execReadDomain (ring : Fin 8) (s : State) : Answer := .next (s.onRing ring (isOp 0x0002) fun s d => s.opRead ring d)
/-- LOAD_PROGRAM (R342). -/
def execLoadProgram (ring : Fin 8) (s : State) : Answer := .next (s.onRing ring (isOp 0x0010) fun s d => s.opLoad ring d)
/-- BIND (R344). -/
def execBind (ring : Fin 8) (s : State) : Answer := .next (s.onRing ring (isAct 0x0011 19 1) fun s d => s.opBind ring d)
/-- UNBIND (R344). -/
def execUnbind (ring : Fin 8) (s : State) : Answer := .next (s.onRing ring (isAct 0x0011 19 0) fun s d => s.opUnbind ring d)
/-- SUSPEND (R345). -/
def execSuspend (ring : Fin 8) (s : State) : Answer := .next (s.onRing ring (isAct 0x0012 18 0) fun s d => s.opSuspend ring d)
/-- RESUME (R345). -/
def execResume (ring : Fin 8) (s : State) : Answer := .next (s.onRing ring (isAct 0x0012 18 1) fun s d => s.opResume ring d)
/-- CANCEL (R345). -/
def execCancel (ring : Fin 8) (s : State) : Answer := .next (s.onRing ring (isAct 0x0012 18 2) fun s d => s.opCancel ring d)
/-- RESTART (R345). -/
def execRestart (ring : Fin 8) (s : State) : Answer := .next (s.onRing ring (isAct 0x0012 18 3) fun s d => s.opRestart ring d)
/-- UNLOAD (R345). -/
def execUnload (ring : Fin 8) (s : State) : Answer := .next (s.onRing ring (isAct 0x0012 18 4) fun s d => s.opUnload ring d)
/-- SIGNAL (R345). -/
def execSignal (ring : Fin 8) (s : State) : Answer := .next (s.onRing ring (isAct 0x0012 18 5) fun s d => s.opSignal ring d)
/-- SET_PARAM (R358). -/
def execSetParam (ring : Fin 8) (s : State) : Answer := .next (s.onRing ring (isOp 0x0013) fun s d => s.opParam ring d)
/-- AUDIT (R209). -/
def execAudit (ring : Fin 8) (s : State) : Answer := .next (s.onRing ring (isOp 0x0020) fun s d => s.opAudit ring d)
/-- MIGRATE_RANGE (R354). -/
def execMigrateRange (ring : Fin 8) (s : State) : Answer := .next (s.onRing ring (isOp 0x0021) fun s d => s.opRange ring d)
/-- COMPACT (R354). -/
def execCompact (ring : Fin 8) (s : State) : Answer := .next (s.onRing ring (isOp 0x0022) fun s d => s.opCompact ring d)
/-- SANITIZE_SCOPE_DOMAIN (R355). -/
def execSanitizeScopeDomain (ring : Fin 8) (s : State) : Answer :=
  .next (s.onRing ring (isAct 0x0023 16 0) fun s d => s.opSanitize ring d 0)
/-- SANITIZE_SCOPE_OVERWRITE (R355). -/
def execSanitizeScopeOverwrite (ring : Fin 8) (s : State) : Answer :=
  .next (s.onRing ring (isAct 0x0023 16 1) fun s d => s.opSanitize ring d 1)
/-- SANITIZE_SCOPE_CRYPTO_ERASE (R355). -/
def execSanitizeScopeCryptoErase (ring : Fin 8) (s : State) : Answer :=
  .next (s.onRing ring (isAct 0x0023 16 2) fun s d => s.opSanitize ring d 2)
/-- RESIZE (R356). -/
def execResize (ring : Fin 8) (s : State) : Answer := .next (s.onRing ring (isOp 0x0024) fun s d => s.opResize ring d)
/-- JOB_SUSPEND (R354). -/
def execJobSuspend (ring : Fin 8) (s : State) : Answer :=
  .next (s.onRing ring (isAct 0x0030 20 0) fun s d => s.opJobSuspend ring d)
/-- JOB_RESUME (R354). -/
def execJobResume (ring : Fin 8) (s : State) : Answer :=
  .next (s.onRing ring (isAct 0x0030 20 1) fun s d => s.opJobResume ring d)
/-- JOB_CANCEL (R354). -/
def execJobCancel (ring : Fin 8) (s : State) : Answer :=
  .next (s.onRing ring (isAct 0x0030 20 2) fun s d => s.opJobCancel ring d)
/-- JOB_STATUS (R353). -/
def execJobStatus (ring : Fin 8) (s : State) : Answer := .next (s.onRing ring (isOp 0x0031) fun s d => s.opJobStatus ring d)

end Sys2Proof.Machine
end

