-- ==== Sys2Proof/Machine/GriharDev.lean ====
section
/-!
DEFINITION. The device-object instructions of a Grihar core (R323 to R332) but for PSET and PLOG, and the events that end
what they began.
-/
namespace Sys2Proof.Machine

/-! ### Shared forms -/

/-- A refusal of asynchronous work (R323). -/
def gRefusal (status : Nat) : BitVec 64 := BitVec.ofNat 64 (2 ^ 63 + status)

/-- An instruction that needs the main die (R319, R323): on GA in Cinder it does what `off` says; in Banked it is a wake
source and waits. -/
def State.onMain (s : State) (k : Nat) (off : GRes) (f : State → GRes) : GRes :=
  if k = 8 && s.rd R.PS_STAT_STATE == 3 then off
  else if k = 8 && s.rd R.PS_STAT_STATE == 2 then .own (s.wake 6)
  else f s

/-- The result written and the core at the next word, after so many clocks. -/
def State.result (s : State) (k rd : Nat) (v : BitVec 64) (clk : Nat) : GRes := .go (s.setG k rd v) clk none

/-- The lowest free ticket of a core (R324). -/
def GCore.freeTicket (c : GCore) : Option Nat := (List.range 16).find? fun i => (c.tickets.get i).st == 0

/-- A ticket taken for an operation. -/
def State.takeTicket (s : State) (k tk op : Nat) : State :=
  s.updCore k fun c => { c with tickets := c.tickets.put tk { op := op, st := 1, status := 0, a := 0, b := 0 } }

/-- The ticket that a handle names, where it is one that is taken (R324). -/
def GCore.ticketOf (c : GCore) (h : BitVec 64) : Option Nat :=
  if h.toNat ≥ 16 || (c.tickets.get h.toNat).st == 0 then none else some h.toNat

/-- Asynchronous work issued (R323, R324): with no free ticket it faults with TICKET; a refusal takes no ticket. `f` is given
the ticket and answers the status and the state. -/
def State.issueWork (s : State) (k : Nat) (w : BitVec 32) (op clk : Nat) (f : State → Nat → Nat × State) : GRes :=
  match (s.gcore k).freeTicket with
  | none => .fault 0x8 0
  | some tk =>
    let (st, s') := f (s.takeTicket k tk op) tk
    if st != 0 then s.result k (gRd w) (gRefusal st) clk
    else s'.result k (gRd w) (BitVec.ofNat 64 tk) clk

/-! ### Counters -/

/-- The bank, snapshot bit and index of a counter handle (R325). -/
def ctrHandle (h : BitVec 64) : Option (Nat × Bool × Nat) :=
  let bank := fld h 18 16
  let i := fld h 6 0
  if h.toNat ≥ 2 ^ 19 || fld h 14 7 != 0 || bank > 4 then none
  else if i ≥ (if bank = 4 then 32 else 80) then none
  else some (bank, bit h 15, i)

/-- Whether a capability names a counter (R337): its bank, and for a programmable one its index. -/
def capCounter (cap : List Byte) (obj bank i : Nat) : Bool :=
  capObj cap obj && capBit cap 30 30 bank && (i ≥ 64 || (decide (capN cap 31 31 ≤ i) && decide (i ≤ capN cap 32 32)))

/-- CRD (R323, R325): the count or its snapshot copy; `CTRRD` covers a bank. -/
def execCrd (core : Fin 9) (w : BitVec 32) (upset : Bool) (s : State) : Answer :=
  s.gRun core w upset 0x28 fun s =>
    match ctrHandle (s.g core (gRa w)) with
    | none => .fault 0x9 0
    | some (bank, snap, i) =>
      if !(s.gcore core).may fun c => capObj c 0 && capBit c 30 30 bank then .fault 0x3 0
      else s.onMain core (s.result core (gRd w) 0 40) fun s =>
        let v := (if snap then s.ctr.snap else s.ctr.count).get (bank * 128 + i)
        s.result core (gRd w) (v.setWidth 64) 40

/-! ### Heat scans -/

/-- Byte `a` of a core's data SRAM. -/
def GCore.byte (c : GCore) (a : Nat) : Byte := ((c.dmem.get (a / 8)) >>> (8 * (a % 8))).setWidth 8
/-- `n` bytes of a core's data SRAM from `a`. -/
def GCore.bytes (c : GCore) (a n : Nat) : List Byte := (List.range n).map fun i => c.byte (a + i)
/-- The end of the part of data SRAM that a program reaches (Table 14-3). -/
def dataEnd : Nat := 0x7E000

/-- The status of a heat scan descriptor (R326, Table 14-9); 0 when it is taken. -/
def State.scanStatus (s : State) (x : Scan) (d : BitVec 256) : Nat :=
  let e := s.entry x.dom
  if x.dom ≥ 16384 || x.mode ≥ 3 || x.states ≥ 8 || fld d 63 40 != 0 || fld d 127 98 != 0 || x.count == 0 ||
      x.count > 2 ^ 24 || x.outptr % 8 != 0 || x.outmax == 0 || x.outmax > 8192 || fld d 255 208 != 0 ||
      x.outptr + 8 * x.outmax > dataEnd then 0x69
  else if !e.valid then 0x63
  else if !s.memberHere e then 0x62
  else if x.start ≥ e.pages then 0x63
  else 0

/-- HSCAN (R326). -/
def execHscan (core : Fin 9) (w : BitVec 32) (upset : Bool) (mem : Bool) (s : State) : Answer :=
  s.gRun core w upset 0x29 fun s =>
    let a := (s.g core (gRa w)).toNat
    if a % 8 != 0 then .fault 0x4 a
    else if a + 32 > dataEnd then .fault 0x5 a
    else if mem then .fault 0x6 a
    else
      let d := ofLe 256 ((s.gcore core).bytes a 32)
      let dom := fld d 15 0
      if !(s.gcore core).may fun c => capObj c 2 && dom < 16384 && capDomain c dom then .fault 0x3 0
      else s.onMain core (s.result core (gRd w) (gRefusal 0x71) 6) fun s =>
        s.issueWork core w 1 6 fun s tk =>
          let x : Scan := {
            core := core, tk := tk, dom := dom, mode := fld d 23 16, states := fld d 31 24, thr := fld d 39 32,
            start := fld d 97 64, count := fld d 159 128, outptr := fld d 191 160, outmax := fld d 207 192, gone := none }
          let st := s.scanStatus x d
          (st, if st == 0 then { s with core := { s.core with scans := s.core.scans ++ [x] } } else s)

/-- A scan that runs to its end (R324, R326), or that its domain's end has stopped (R340): its ticket is done. -/
def State.endScan (s : State) (x : Scan) : State :=
  let s := { s with core := { s.core with scans := s.core.scans.erase x } }
  match x.gone with
  | some (n, m) => s.ticketDone x.core x.tk 0x68 n m
  | none => let (n, m, s) := s.scanPages x x.count; s.ticketDone x.core x.tk 0 n m

/-- HSCAN_DONE (R324): the scan of a core's ticket ends; ticket 16 names one whose outcome is discarded. -/
def execHscanDone (core : Fin 9) (tk : Fin 17) (s : State) : Answer :=
  .next (match s.core.scans.find? fun x => x.core == core.val && x.tk == tk.val with
    | some x => s.endScan x
    | none => s)

/-! ### Migrations -/

/-- The refusal of a MIG before the checks of R110 (R327, R356); 0 when there is none. -/
def State.migRefusal (s : State) (ra rb : BitVec 64) : Nat :=
  let d := fld ra 61 48
  let page := fld ra 33 0
  let e := s.entry d
  let kind := fld rb 1 0
  let ch := fld rb 7 4
  if fld ra 47 34 != 0 || fld ra 63 62 != 0 || kind == 3 || fld rb 3 2 != 0 || fld rb 63 8 != 0 ||
      (e.valid && kind != 1 && ch != 15 && !e.channels.contains ch) then 0x69
  else if !e.valid then 0x63
  else if !s.memberHere e then 0x62
  else if page ≥ e.pages || s.resizeBars d page then 0x63
  else 0

/-- MIG (R327). -/
def execMig (core : Fin 9) (w : BitVec 32) (upset : Bool) (s : State) : Answer :=
  s.gRun core w upset 0x2A fun s =>
    let ra := s.g core (gRa w)
    let rb := s.g core (gRb w)
    let d := fld ra 61 48
    if !(s.gcore core).may fun c => capObj c 3 && capDomain c d then .fault 0x3 0
    else s.onMain core (s.result core (gRd w) (gRefusal 0x71) 6) fun s =>
      s.issueWork core w 2 6 fun s tk =>
        let st := s.migRefusal ra rb
        if st != 0 then (st, s)
        else
          let e := s.entry d
          let ch := fld rb 7 4
          let (st, s) := s.startMig d e (s.pageDpa e (fld ra 33 0)) (migKind (fld rb 1 0)) (if ch == 15 then 16 else ch)
            (.ticket core tk) false
          (st, s.settleAll)

/-- A ticket's result word (R324). -/
def Ticket.word (t : Ticket) : BitVec 64 :=
  BitVec.ofNat 64 (t.a % 2 ^ 24 * 2 ^ 40 + t.b % 2 ^ 24 * 2 ^ 16 + t.op * 2 ^ 12 + t.st * 2 ^ 8 + t.status)

/-- TSTAT (R324): a ticket in state done is freed. -/
def execTstat (core : Fin 9) (w : BitVec 32) (upset : Bool) (s : State) : Answer :=
  s.gRun core w upset 0x2B fun s =>
    match (s.gcore core).ticketOf (s.g core (gRa w)) with
    | none => .fault 0x8 0
    | some tk =>
      let t := (s.gcore core).tickets.get tk
      let s := if t.st == 3 then s.updCore core fun c => { c with tickets := c.tickets.put tk default } else s
      s.result core (gRd w) t.word 2

/-- A cancel of the work of a ticket: its status, and the state (R327). -/
def State.cancelTicket (s : State) (k tk : Nat) : Nat × State :=
  let t := (s.gcore k).tickets.get tk
  match t.op with
  | 1 =>
    match s.core.scans.find? fun x => x.core == k && x.tk == tk with
    | some x =>
      let (n, m, s) := (s.stopScan x).2
      (0, ({ s with core := { s.core with scans := s.core.scans.erase x } }).ticketDone k tk 0x67 n m)
    | none => (0x6A, s)
  | 2 =>
    match s.tier.migs.find? fun m => m.by_ == .ticket k tk with
    | some m => if m.phase == .held then (0x6A, s) else (0, (s.migEnd m 0x67).settleAll)
    | none => (0x6A, s)
  | _ => (0x6A, s)

/-- TCAN (R327). -/
def execTcan (core : Fin 9) (w : BitVec 32) (upset : Bool) (s : State) : Answer :=
  s.gRun core w upset 0x2F fun s =>
    match (s.gcore core).ticketOf (s.g core (gRa w)) with
    | none => .fault 0x8 0
    | some tk =>
      s.onMain core (s.result core (gRd w) 0x71 4) fun s =>
        let (st, s) := s.cancelTicket core tk
        s.result core (gRd w) (BitVec.ofNat 64 st) 4

/-! ### WAIT -/

/-- The lowest cause of a mask that holds now (Table 14-11). -/
def State.waitCause (s : State) (k mask : Nat) : Option Nat :=
  let c := s.gcore k
  match (List.range 16).find? fun i => mask.testBit i && (c.tickets.get i).st == 3 with
  | some i => some i
  | none =>
    if mask.testBit 16 && !c.mbox.isEmpty then some 16
    else if mask.testBit 17 && s.core.pend.any fun x => x.1 == c.run then some 17
    else none

/-- Whether feature 0x13 holds an always-on timer (R328). -/
def State.coreTimer (s : State) : Bool := s.claim.aot.cells.any fun c => c.2 == 0x13

/-- WAIT returned with a reason: it has been a checkpoint throughout. -/
def State.waitEnd (s : State) (k rd reason : Nat) : State :=
  let pc := (s.gcore k).pc + 4
  let s := (s.setG k rd (BitVec.ofNat 64 reason)).updCore k fun c => { c with wait := none, ckclk := 0 }
  (s.setPc k pc).setCoreSt k 1

/-- WAIT (R328, R334). -/
def execWait (core : Fin 9) (w : BitVec 32) (upset : Bool) (s : State) : Answer :=
  s.gRun core w upset 0x2C fun s =>
    let c := s.gcore core
    let m := (s.g core (gRa w)).toNat
    let t := (s.g core (gRb w)).toNat
    if m ≥ 2 ^ 18 then .fault 0x9 0
    else if (List.range 16).any fun i => m.testBit i && (c.tickets.get i).st == 0 then .fault 0x8 0
    else if !c.asked.isEmpty || c.load.isSome then .own (s.checkpoint core c.pc)
    else
      match s.waitCause core m with
      | some r => .own (s.waitEnd core (gRd w) r)
      | none =>
        if t == 0 then .own (s.waitEnd core (gRd w) 31)
        else if core == 8 && t != 2 ^ 64 - 1 && !s.coreTimer then .own (s.waitEnd core (gRd w) 30)
        else
          let lim := if t == 2 ^ 64 - 1 then none else some (s.gtc + (if core == 8 then (t + 9) / 10 * 10 else t))
          .own ((s.updCore core fun c => { c with wait := some { mask := m, rd := gRd w, limit := lim }, ckclk := 0 }).setCoreSt core 2)

/-- WAIT_RETURN (R328): the cause is evaluated before the expiry. -/
def execWaitReturn (core : Fin 9) (s : State) : Answer :=
  .next (match (s.gcore core).wait with
    | some x =>
      if s.coreSt core != 2 then s
      else
        match s.waitCause core x.mask with
        | some r => s.waitEnd core x.rd r
        | none => if x.limit.any fun t => decide (t ≤ s.gtc) then s.waitEnd core x.rd 31 else s
    | none => s)

/-! ### Mailboxes -/

/-- An entry of the host event ring (R351). -/
def ringEntry (payload : BitVec 64) (prog core gtc : Nat) : BitVec 128 :=
  BitVec.ofNat 128 (payload.toNat + prog % 2 ^ 16 * 2 ^ 64 + core * 2 ^ 80 + gtc / 2 ^ 10 % 2 ^ 32 * 2 ^ 96)

/-- A payload posted to the host event ring: its status, and the state. -/
def State.postHost (s : State) (k : Nat) (x : BitVec 64) : Nat × State :=
  let t := s.rd R.CHIP_EVRING_EVTAIL
  if (t + 1) % 1024 == s.rd R.CHIP_EVRING_EVHEAD then (0x53, s)
  else
    let r := ringEntry x (s.gcore k).run k s.gtc
    let s := (List.range 4).foldl (fun s i => s.setReg (0x490000 + 16 * t + 4 * i) (r.extractLsb' (32 * i) 32)) s
    (0, s.wr R.CHIP_EVRING_EVTAIL ((t + 1) % 1024))

/-- A payload posted to a core's mailbox of 16 entries (R329). -/
def State.postCore (s : State) (k dst : Nat) (x : BitVec 64) : Nat × State :=
  if (s.gcore dst).mbox.length ≥ 16 then (0x53, s)
  else (0, s.updCore dst fun c => { c with mbox := c.mbox ++ [(k, x)] })

/-- POST (R329). -/
def execPost (core : Fin 9) (w : BitVec 32) (upset : Bool) (s : State) : Answer :=
  s.gRun core w upset 0x2D fun s =>
    let dst := (s.g core (gRa w)).toNat
    let x := s.g core (gRb w)
    let put := fun (r : Nat × State) => r.2.result core (gRd w) (BitVec.ofNat 64 r.1) 4
    if dst ≥ 9 && dst != 0x10 then put (0x69, s)
    else if !(s.gcore core).may fun c => if dst == 0x10 then capObj c 9 else capObj c 10 && capBit c 29 28 dst then .fault 0x3 0
    else if dst == 8 then put (s.postCore core 8 x)
    else s.onMain core (put (0x71, s)) fun s => put (if dst == 0x10 then s.postHost core x else s.postCore core dst x)

/-- RECV (R329): the payload to rd, the sender to the register that ra names. -/
def execRecv (core : Fin 9) (w : BitVec 32) (upset : Bool) (s : State) : Answer :=
  s.gRun core w upset 0x37 fun s =>
    match (s.gcore core).mbox with
    | [] => ((s.setG core (gRa w) 0xFF)).result core (gRd w) 0 2
    | (src, x) :: rest =>
      let s := s.updCore core fun c => { c with mbox := rest }
      (s.setG core (gRa w) (BitVec.ofNat 64 src)).result core (gRd w) x 2

/-! ### Domain entries and commit groups -/

/-- DOMRD (R323): word w of the committed entry. -/
def execDomrd (core : Fin 9) (w : BitVec 32) (upset : Bool) (s : State) : Answer :=
  s.gRun core w upset 0x2E fun s =>
    let ra := s.g core (gRa w)
    let d := fld ra 13 0
    if ra.toNat ≥ 2 ^ 19 || fld ra 15 14 != 0 then .fault 0x9 0
    else if !(s.gcore core).may fun c => capObj c 4 && capDomain c d then .fault 0x3 0
    else s.onMain core (s.result core (gRd w) 0 30) fun s =>
      s.result core (gRd w) ((s.entry d).extractLsb' (64 * fld ra 18 16) 64) 30

/-- CGB (R330). -/
def execCgb (core : Fin 9) (w : BitVec 32) (upset : Bool) (s : State) : Answer :=
  s.gRun core w upset 0x30 fun s =>
    if (s.gcore core).group.isSome then .fault 0x7 0
    else .go (s.updCore core fun c => { c with group := some [] }) 1 none

/-- The place of a staged item in a group: the slot that has the same key. -/
def sameSlot (a b : GroupSlot) : Bool :=
  match a, b with
  | .dom d _, .dom d' _ => d == d'
  | .rgl o _, .rgl o' _ => o == o'
  | .shape o _, .shape o' _ => o == o'
  | .ctr k i _, .ctr k' i' _ => k == k' && i == i'
  | _, _ => false

/-- An item staged in the open group (R330): in its slot, or in a new one; a 65th faults with GROUP. -/
def State.stage (s : State) (k : Nat) (x : GroupSlot) : GRes :=
  match (s.gcore k).group with
  | none => .fault 0x7 0
  | some g =>
    if g.any fun y => sameSlot x y then
      .go (s.updCore k fun c => { c with group := some (g.map fun y => if sameSlot x y then x else y) }) 2 none
    else if g.length ≥ 64 then .fault 0x7 0
    else .go (s.updCore k fun c => { c with group := some (g ++ [x]) }) 2 none

/-- DOMWR (R330): word w of the slot's entry, which starts from the committed one. -/
def execDomwr (core : Fin 9) (w : BitVec 32) (upset : Bool) (s : State) : Answer :=
  s.gRun core w upset 0x31 fun s =>
    let ra := s.g core (gRa w)
    let d := fld ra 13 0
    if ra.toNat ≥ 2 ^ 19 || fld ra 15 14 != 0 then .fault 0x9 0
    else if !(s.gcore core).may fun c => capObj c 5 && capDomain c d then .fault 0x3 0
    else
      let staged := ((s.gcore core).group.getD []).findSome? fun x => match x with
        | .dom d' e => if d' == d then some e else none
        | _ => none
      let e : Entry := staged.getD (s.entry d)
      let i := fld ra 18 16
      s.stage core (.dom d (setFld e (64 * i + 63) (64 * i) (s.g core (gRb w)).toNat))

/-- Whether a capability names a regulator register (R337). -/
def capRgl (cap : List Byte) (off : Nat) : Bool :=
  match (List.range 256).find? fun m => R.RGL_MST m == off with
  | some m => capObj cap 6 && decide (capN cap 11 10 ≤ m) && decide (m ≤ capN cap 13 12)
  | none =>
    match (List.range 16).find? fun d => R.RGL_PEER d == off with
    | some d => capObj cap 6 && capBit cap 15 14 d
    | none =>
      match (List.range 64).find? fun c => R.RGL_CLS c == off with
      | some c => capObj cap 7 && capBit cap 23 16 c
      | none => false

/-- RGWR (R330): a regulator staging register by its offset in the control window. -/
def execRgwr (core : Fin 9) (w : BitVec 32) (upset : Bool) (s : State) : Answer :=
  s.gRun core w upset 0x32 fun s =>
    let off := (s.g core (gRa w)).toNat
    let v := (s.g core (gRb w)).setWidth 32
    if !stagedRgl.contains off || !legalWrite off v then .fault 0x9 0
    else if !(s.gcore core).may fun c => capRgl c off then .fault 0x3 0
    else s.stage core (.rgl off v)

/-- SHWR (R330): `SHx_CTL` or `SHx_BKTc`. -/
def execShwr (core : Fin 9) (w : BitVec 32) (upset : Bool) (s : State) : Answer :=
  s.gRun core w upset 0x33 fun s =>
    let ra := s.g core (gRa w)
    let x := fld ra 4 0
    let c := fld ra 21 16
    let ctl := bit ra 8
    let off := if ctl then R.SH_CTL x else R.SH_BKT x c
    let v := (s.g core (gRb w)).setWidth 32
    if ra.toNat ≥ 2 ^ 22 || fld ra 7 5 != 0 || fld ra 15 9 != 0 || (ctl && c != 0) || !legalWrite off v then .fault 0x9 0
    else if !(s.gcore core).may fun cap => capObj cap 8 && capBit cap 27 24 x && (ctl || capBit cap 23 16 c) then .fault 0x3 0
    else s.stage core (.shape off v)

/-- CTRW (R325, R374): `Ck_CTL` in bits 31:0 and `Ck_FILT` in bits 63:32. -/
def execCtrw (core : Fin 9) (w : BitVec 32) (upset : Bool) (s : State) : Answer :=
  s.gRun core w upset 0x34 fun s =>
    let v := s.g core (gRb w)
    match ctrHandle (s.g core (gRa w)) with
    | none => .fault 0x9 0
    | some (bank, snap, i) =>
      if snap || i ≥ 64 || !legalWrite (ctlOff bank i) (v.setWidth 32) then .fault 0x9 0
      else if !(s.gcore core).may fun c => capCounter c 1 bank i then .fault 0x3 0
      else s.stage core (.ctr bank i v)

/-- CGC (R331): the group handed to the chip arbiter. -/
def execCgc (core : Fin 9) (w : BitVec 32) (upset : Bool) (s : State) : Answer :=
  s.gRun core w upset 0x35 fun s =>
    match (s.gcore core).group with
    | none => .fault 0x7 0
    | some g =>
      s.onMain core (s.result core (gRd w) (gRefusal 0x71) 6) fun s =>
        s.issueWork core w 3 6 fun s tk =>
          let c := s.gcore core
          let s := s.updCore core fun c => { c with group := none }
          let x : GroupWait := { core := core, tk := tk, slots := g, host := c.host, cap := c.cap }
          (0, (s.takeGroup x).finish)

/-- CGA (R330). -/
def execCga (core : Fin 9) (w : BitVec 32) (upset : Bool) (s : State) : Answer :=
  s.gRun core w upset 0x36 fun s =>
    if (s.gcore core).group.isNone then .fault 0x7 0
    else .go (s.updCore core fun c => { c with group := none }) 2 none

end Sys2Proof.Machine
end

