-- ==== Sys2Proof/Machine/PortCmd.lean ====
section
/-!
DEFINITION. The commands of the CXL host ports (chapter 13): Port resets, links coming up, decoders, IDE, and the mailboxes of the
heads. Commands of the standard set carry CXL 3.1 opcodes, which the spec names without their codes (PRESUMED, assumption 31).
-/
namespace Sys2Proof.Machine

/-! ### Port reset -/

/-- A Port reset of every port of a group, and of the group itself (R241, R297, R314); an x16 port's other group with it. -/
def State.resetGroup (s : State) (g : Nat) : State :=
  let ps := (List.range 32).filter fun p => (s.place p).on && ((s.place p).group == g || ((s.place p).wide && (s.place p).group + 1 == g))
  let gs := (g :: ps.map fun p => (s.place p).group) ++ (ps.filter fun p => (s.place p).wide).map fun p => (s.place p).group + 1
  let s := ps.foldl (fun s p => s.portReset p) s
  gs.eraseDups.foldl (fun s g => s.groupStart g true) s

/-- A Port reset of one logical port by its link (R314): its lanes are trained again. -/
def State.resetPort (s : State) (p : Nat) : State :=
  let x := s.place p
  if !x.on then s
  else if s.cxlWidth x.group == 1 then
    (x.lanes true).foldl (fun s l => s.startDetect l.1 l.2 0) (s.portReset p)
  else s.resetGroup x.group

/-- PORT_RESET (R314). A hot reset where `HRSCOPE` = 1 is a Warm reset of the device instead, an orderly one (R448). -/
def execPortReset (port : Fin 32) (cause : PortResetCause) (s : State) : Answer :=
  let g := (s.place port).group
  .next (if !(s.place port).on then s
  else if cause == .hot && s.flag (R.PG_CXLCFG_HRSCOPE g) then s.askOrderly
  else s.resetPort port).finish

/-- `PGg_CXLCFG` written (R297, R314): `PRST` resets every port of the group. -/
def State.writeCxlcfg (s : State) (g : Nat) (v : BitVec 32) : State :=
  let s := s.putReg (R.PG_CXLCFG g) v
  if bit v 16 then s.resetGroup g else s

/-- PRST (R314): a write of `PGg_CXLCFG` with `PRST` = 1. -/
def execPrst (p : Path) (group : Fin 16) (val : BitVec 32) (s : State) : Answer :=
  .next (s.writing p (R.PG_CXLCFG group) (setFld val 16 16 1) fun v s => s.writeCxlcfg group v).finish

/-- FUNCTION_LEVEL_RESET (R314). -/
def execFunctionLevelReset (port : Fin 32) (s : State) : Answer :=
  .next (if (s.place port).on then
    let s := (s.updHead port Head.flr).portChanged port
    { s with ring := { s.ring with subs := (s.ring.subs.put port none).put (32 + port) none } }
  else s)

/-! ### Links -/

/-- CXL_LINK_UP (R241, R300, R314): a port's link reaches L0 at a rate; 256-byte flits run at 64 GT/s only (Table 13-1). The BISnp
outstanding are sent again. -/
def State.cxlUp (s : State) (p rate : Nat) (big biEn : Bool) : State :=
  let x := s.place p
  let gs := if x.wide then [x.group, x.group + 1] else [x.group]
  let active := (x.lanes (s.cxlWidth x.group == 1)).any fun l => s.laneSt l.1 l.2 == 3
  if !x.on || s.portCfgError x.group || !active || rate > s.rd (R.PG_SDCTL_RATE x.group) || (big && rate != 5) then s
  else
    let s := gs.foldl (fun s g => s.setRate g rate) s
    let s := s.updHead p fun h => { h with flit := if big then 2 else 1, biEn := biEn, l1 := false }
    let s := s.portSync p
    let mine := s.coh.biOut.filter fun b => b.1 == p
    let s := if s.hdmDb p then mine.foldl (fun s b => s.send (.bisnp b.1 b.2.1 b.2.2.1)) s else s
    ((s.wake 1).portChanged p).biDrain p

/-- CXL_LINK_UP (R314). -/
def execCxlLinkUp (port : Fin 32) (rate : Fin 6) (flits256 biEnabled : Bool) (s : State) : Answer :=
  .next (if s.lost then s else s.cxlUp port rate flits256 biEnabled).finish

/-- PORT_L1_ENTRY (R430). -/
def execPortL1Entry (port : Fin 32) (s : State) : Answer :=
  .next (if s.portOpen port then (s.updHead port fun h => { h with l1 := true }).portChanged port else s)

/-- LTR_SEND (R312): once on each port. -/
def execLtrSend (port : Fin 32) (s : State) : Answer :=
  .next (if s.portOpen port && !(s.head port).ltrSent then
    (s.updHead port fun h => { h with ltrSent := true }).send (.ltr port) else s)

/-- IDE_FAIL (R313): a secure stream's integrity failure. -/
def execIdeFail (port : Fin 32) (s : State) : Answer :=
  .next (if (s.head port).ide == 1 then
    (s.updHead port fun h => { h with ide := 2 }).log { type := 0x010A, sev := 2, level := 1, ukind := 9, unit := port }
  else s)

/-! ### Decoders -/

/-- The ways and granularities of CXL 3.1 (R304), over a range of whole rounds of the interleave. -/
def decoderLegal (ways gran size : Nat) : Bool :=
  [1, 2, 3, 4, 6, 8, 12, 16].contains ways && [256, 512, 1024, 2048, 4096, 8192, 16384].contains gran &&
    decide (size > 0) && size % (ways * gran) == 0

/-- Where the DPA range of a decoder begins, before its skip: after the range of the decoder below it, as CXL 3.1 stacks them
(PRESUMED, assumption 109). -/
def State.decoderBase (s : State) (p dec : Nat) : Nat :=
  match dec with
  | 0 => 0
  | j + 1 => let d := (s.head p).dec.get j; if d.committed then d.dpaBase + d.dpaSize else 0

/-- HDM_DECODER_COMMIT (R304), with the decoder's host physical base and size, its interleave and its DPA skip: lock-on-commit; a
decoder that fails carries the error bit and decodes nothing. -/
def execHdmDecoderCommit (port : Fin 32) (dec : Fin 16) (lock : Bool) (interleave : Interleave) (base size skip : BitVec 64) (s : State) :
    Answer :=
  let ways := interleave.ways
  let d := (s.head port).dec.get dec
  .next (if !s.portOpen port || (d.committed && d.lock) then s
  else
    let dpa := s.decoderBase port dec + skip.toNat
    let ok := decoderLegal ways interleave.gran size.toNat && decide (dpa + size.toNat / ways ≤ 2 ^ 46)
    let d : HdmDecoder :=
      { committed := ok, error := !ok, lock := ok && lock, ways := ways, gran := interleave.gran,
        hpaBase := base.toNat, hpaSize := size.toNat, dpaBase := dpa, dpaSize := size.toNat / ways }
    (s.hostFlit port).updHead port fun h => { h with dec := h.dec.put dec d })

/-! ### Mailboxes -/

/-- A mailbox command of a head (R307, R308): `own` for those of Table 13-4. One that finds another in progress returns Busy. -/
def State.mailbox (s : State) (p op : Nat) (own : Bool) (f : State → State) : State :=
  if !s.portOpen p || !s.flag R.CHIP_BOOTSTAT_READY || s.boot.hold then s
  else
    let s := (s.hostFlit p).updHead p fun h => { h with mbx := true }
    if own && !s.flag (R.PG_CXLCFG_MBXEN (s.place p).group) then s.send (.mailbox p op .unsupported 0 [])
    else if (s.head p).bg.isSome || (s.ring.subs.get p).isSome then s.send (.mailbox p op .busy 0 [])
    else f s

/-- A background command begun: the host is told at once, its end is the head's background status. -/
def State.background (s : State) (p op : Nat) : State :=
  (s.updHead p fun h => { h with bg := some op }).send (.mailbox p op .background 0 [])

/-- A device-specific command's answer (R308). -/
def State.answerMbx (s : State) (p op status : Nat) (out : List Byte) : State := s.send (.mailbox p op (retOf status) status out)

/-- MAILBOX_COMMIT_DOMAIN (0xC000; R53, R307). -/
def execMailboxCommitDomain (port : Fin 32) (dom : BitVec 14) (entry : BitVec 512) (s : State) : Answer :=
  .next (s.mailbox port 0xC000 true fun s => (s.background port 0xC000).askCommit dom.toNat entry none 1 port).finish
/-- MAILBOX_READ_DOMAIN (0xC001; R307). -/
def execMailboxReadDomain (port : Fin 32) (dom : BitVec 14) (s : State) : Answer :=
  .next (s.mailbox port 0xC001 true fun s => s.answerMbx port 0xC001 0 (leBytes 64 (s.entry dom.toNat)))
/-- INSTALL_DOMAIN_KEY (0xC010; R154, R307): the mailbox accepts `KEKSEL` 0 (R153). -/
def execInstallDomainKey (port : Fin 32) (dom : BitVec 14) (blob : BitVec 960) (s : State) : Answer :=
  .next (s.mailbox port 0xC010 true fun s =>
    let (st, s) := s.installKey (some 0) dom.toNat (leBytes 120 blob)
    s.answerMbx port 0xC010 st [byteOf st])
/-- DESTROY_DOMAIN_KEY (0xC011; R155, R307). -/
def execDestroyDomainKey (port : Fin 32) (dom : BitVec 14) (s : State) : Answer :=
  .next (s.mailbox port 0xC011 true fun s =>
    let (st, s) := (s.background port 0xC011).destroyKey dom.toNat none (some port.val)
    if st == 0 then s else s.bgEnd port 0xC011 st).finish
/-- GET_ERROR_RECORDS (0xC020; R307): as many as the 4 KiB payload holds. -/
def execGetErrorRecords (port : Fin 32) (first : BitVec 32) (count : BitVec 16) (s : State) : Answer :=
  .next (s.mailbox port 0xC020 true fun s =>
    let ix := (List.range (min count.toNat 64)).map fun i => (first.toNat + i) % 2 ^ 32
    s.answerMbx port 0xC020 0 ((ix.map s.recordBytes).flatten))

/-- A descriptor by mailbox (R347): its first completion is the command's output. -/
def State.submit (s : State) (p : Nat) (d : BitVec 1024) : State :=
  let s := { s with ring := { s.ring with subs := s.ring.subs.put p (some d) } }
  let st := descStatus d
  if st != 0 then s.firstCompletion (8 + p) st (descKind d) 0 [] else s.runDesc (8 + p) d

/-- SUBMIT_DESCRIPTOR (0xC030; R347). -/
def execSubmitDescriptor (port : Fin 32) (desc : BitVec 1024) (s : State) : Answer :=
  .next (s.mailbox port 0xC030 true fun s => s.submit port desc).finish
/-- GET_JOB_STATUS (0xC031; R307, R353). -/
def execGetJobStatus (port : Fin 32) (job : BitVec 32) (s : State) : Answer :=
  .next (s.mailbox port 0xC031 true fun s =>
    match s.anyJob job.toNat with
    | some j => s.answerMbx port 0xC031 0 j.record
    | none => s.answerMbx port 0xC031 0x83 [])
/-- GET_TIER_CAPACITY (0xC040; R115, R307). -/
def execGetTierCapacity (port : Fin 32) (s : State) : Answer :=
  .next (s.mailbox port 0xC040 true fun s =>
    s.answerMbx port 0xC040 0 (((List.range 4).map fun k => leBytes 4 (s.reg (R.CHIP_TMCAP k))).flatten))

/-! ### Dynamic Capacity -/

/-- Whether a port may read or write a domain. -/
def Entry.opened (e : Entry) (p : Nat) : Bool := e.valid && (e.rdPorts.testBit p || e.wrPorts.testBit p)
/-- The entry with a port's permission bits removed. -/
def Entry.closed (e : Entry) (p : Nat) : Entry := setFld (setFld e (288 + p) (288 + p) 0) (256 + p) (256 + p) 0

/-- The Dynamic Capacity region of every head (R51). -/
def dcRegion : DcRegion := { base := 0, length := 2 ^ 46, block := 2 ^ 21, static_ := 0 }
/-- A domain as an extent (R51): tag bytes 1:0 the domain number, 9:2 `SWTAG`, the rest zero. -/
def extentOf (d : Nat) (e : Entry) : DcExtent :=
  { start := e.baseAddr, length := e.bytes, tag := BitVec.ofNat 128 (d + 2 ^ 16 * e.swtag) }
/-- The extents of a port, with their domains (R51, R309). -/
def State.extentsOf (s : State) (p : Nat) : List (Nat × DcExtent) :=
  (s.domains.filter fun c => Entry.opened c.2 p).map fun c => (c.1, extentOf c.1 c.2)

/-- GET_DYNAMIC_CAPACITY_EXTENT_LIST (R309). -/
def execGetDynamicCapacityExtentList (port : Fin 32) (s : State) : Answer :=
  .next (s.mailbox port 0x4801 false fun s => s.send (.dcExtents port dcRegion ((s.extentsOf port).map (·.2))))

/-- ADD_CAPACITY_RESPONSE (R309): an empty list declines. -/
def execAddCapacityResponse (port : Fin 32) (dom : BitVec 14) (accepted : Bool) (s : State) : Answer :=
  .next (s.mailbox port 0x4802 false fun s =>
    let s := if accepted then s else s.logPort 0x0406 port (some dom.toNat) 0
    s.send (.mailbox port 0x4802 .success 0 []))

/-- A head has answered the releases asked of it for a domain (R122). -/
def State.releaseAnswered (s : State) (p d : Nat) : State :=
  { s with dom := { s.dom with release := s.dom.release.map fun x =>
    if x.2.1 == d then (x.1, x.2.1, x.2.2.1, x.2.2.2.filter (· != p)) else x } }

/-- The releases that every head has answered ended (R122). -/
def State.settleReleases (s : State) : State :=
  (s.dom.release.filter fun x => x.2.2.2.isEmpty).foldl (fun s x => s.endRelease x.1 x.2.1 x.2.2.1) s

/-- RELEASE_DYNAMIC_CAPACITY (R309, R122): a whole extent is committed as the removal of the port's bits; part of one is refused. -/
def execReleaseDynamicCapacity (port : Fin 32) (base len : BitVec 64) (s : State) : Answer :=
  .next (s.mailbox port 0x4803 false fun s =>
    match (s.extentsOf port).find? fun x => x.2.start == base.toNat && x.2.length == len.toNat with
    | none => s.send (.mailbox port 0x4803 .invalidExtentList 0 [])
    | some x =>
      let s := s.send (.mailbox port 0x4803 .success 0 [])
      if s.dom.release.any fun r => r.2.1 == x.1 && r.2.2.2.contains port.val then (s.releaseAnswered port x.1).settleReleases
      else s.askCommit x.1 (Entry.closed (s.entry x.1) port) none 4 0).finish

/-! ### Poison -/

/-- GET_POISON_LIST (R310): the entries in domains that the port may read. -/
def execGetPoisonList (port : Fin 32) (s : State) : Answer :=
  .next (s.mailbox port 0x4300 false fun s =>
    let mine := s.dram.media.filter fun m => (Entry.valid (s.entry m.1)) && (Entry.rdPorts (s.entry m.1)).testBit port
    s.send (.poisonList port (mine.map (·.2)) s.dram.mediaFull))

/-- A full-line write that a mailbox command makes to a line homed here of a domain its port may write; others are refused. -/
def State.poisonWrite (s : State) (p op : Nat) (dpa : Dpa) (poison : Bool) (x : Line) : State :=
  let r := { hostReq (.hostWr .invalid) p 0 (dpa.setWidth 64) with tag := 2 ^ 16, data := x, poison := poison }
  match s.servedDomain r.addr with
  | some (d, e) =>
    if s.homedHere e r.addr && e.wrPorts.testBit p && !s.keyAbsent d e then
      let s := if poison then s.listPoison d r.addr 2 else s
      (s.arrive { r with dom := d, entry := e }).send (.mailbox p op .success 0 [])
    else s.send (.mailbox p op .invalidInput 0 [])
  | none => s.send (.mailbox p op .invalidInput 0 [])

/-- INJECT_POISON (R310). -/
def execInjectPoison (port : Fin 32) (dpa : Dpa) (s : State) : Answer :=
  .next (s.mailbox port 0x4301 false fun s => s.poisonWrite port 0x4301 dpa true 0).finish
/-- CLEAR_POISON (R310). -/
def execClearPoison (port : Fin 32) (dpa : Dpa) (data : Line) (s : State) : Answer :=
  .next (s.mailbox port 0x4302 false fun s => s.poisonWrite port 0x4302 dpa false data).finish

/-! ### Sanitize -/

/-- A CXL Sanitize (scope 1) or Secure Erase (scope 2) run as the long operation of R355. -/
def State.cxlErase (s : State) (p op scope : Nat) : State :=
  let d : BitVec 1024 := setFld (setFld 0 15 0 0x0023) 135 128 scope
  let s := s.updHead p fun h => { h with bg := some op }
  let s := { s with ring := { s.ring with subs := s.ring.subs.put (32 + p) (some d) } }
  s.runDesc (40 + p) d

/-- SANITIZE (R355): the device overwrite. -/
def execSanitize (port : Fin 32) (s : State) : Answer :=
  .next (s.mailbox port 0x4400 false fun s => s.cxlErase port 0x4400 1).finish
/-- SECURE_ERASE (R355): the crypto erase. -/
def execSecureErase (port : Fin 32) (s : State) : Answer :=
  .next (s.mailbox port 0x4401 false fun s => s.cxlErase port 0x4401 2).finish

end Sys2Proof.Machine
end

