-- ==== Sys2Proof/Machine/Power.lean ====
section
/-!
DEFINITION. Power states (chapter 20): the quiet device, PSET, entries and exits, wake sources and DOZE's timer; and PLOG, the other
instruction of ROM programs alone.
-/
namespace Sys2Proof.Machine

/-! ### Quiet -/

/-- Whether the device is quiet now (R431). -/
def State.quiet (s : State) : Bool :=
  s.coh.txs.isEmpty && s.coh.ordq.cells.isEmpty && s.coh.reqs.isEmpty && s.rgl.admq.cells.isEmpty && s.mesh.msgs.isEmpty &&
    (s.tier.waitq.cells.all fun c => c.2.isEmpty) && (s.tier.overq.cells.all fun c => c.2.isEmpty) &&
    (s.dram.subs.cells.all fun c => c.2.rq.isEmpty && c.2.prq.isEmpty && c.2.wq.isEmpty && c.2.inflight.isEmpty) &&
    (s.dram.chans.cells.all fun c => c.2.merges.isEmpty) && (s.ring.jobs.all fun j => j.st != 1) && s.tier.migs.isEmpty &&
    ((List.range 8).all fun k => s.coreSt k != 1 && (List.range 16).all fun i => ((s.gcore k).tickets.get i).st != 1) &&
    ((List.range 8).all fun k => (s.ringOf k).cur.isNone)

/-- Whether it has been quiet for `DWELL` × 100 µs without a break. -/
def State.dwelt (s : State) : Bool := s.quiet && decide (s.gtc ≥ s.pow.quietSince + s.param 4 1 * 100000)

/-! ### Requests -/

/-- A state granted (R432): Cinder first cleans and invalidates every slice. -/
def State.grantPower (s : State) (t : Nat) : State :=
  let s := ({ s with pow := { s.pow with target := some t } }).set1 R.PS_STAT_BUSY
  if t == 3 then s.cleanAll else s

/-- A request of DOZE (R431): its status, and the state. A shallower state is a wake source; a deeper one waits for the limit
and the quiet. -/
def State.askPower (s : State) (t : Nat) : Nat × State :=
  let now := s.rd R.PS_STAT_STATE
  if t < now then (0, s.wake 5)
  else if t == now then (0, if s.pow.target.isSome then s.wake 5 else s)
  else if decide (t ≤ s.powerLimit) && s.dwelt && !s.pow.exiting && !s.boot.hold && s.boot.drain.isNone then (0, s.grantPower t)
  else (0x70, s)

/-- PSET (R323, R431). -/
def execPset (core : Fin 9) (w : BitVec 32) (upset : Bool) (s : State) : Answer :=
  s.gRun core w upset 0x38 fun s =>
    if (s.gcore core).host then .fault 0x2 0
    else
      let (st, s) := s.askPower ((s.g core (gRa w)).toNat % 4)
      s.result core (gRd w) (BitVec.ofNat 64 st) 10

/-- PLOG (R323, R394): the record waits for the log to write it. -/
def execPlog (core : Fin 9) (w : BitVec 32) (upset : Bool) (mem : Bool) (s : State) : Answer :=
  s.gRun core w upset 0x39 fun s =>
    let a := (s.g core (gRa w)).toNat
    let n := (s.g core (gRb w)).toNat
    if (s.gcore core).host then .fault 0x2 0
    else if n < 1 || n > 512 then s.result core (gRd w) (gRefusal 0x69) 10
    else if a + n > dataEnd then .fault 0x5 a
    else if mem then .fault 0x6 a
    else s.issueWork core w 4 10 fun s tk =>
      let r : PrgRecord := { prog := (s.gcore core).run, bytes := (s.gcore core).bytes a n, core := core, tk := tk }
      (0, { s with peat := { s.peat with prgPend := s.peat.prgPend ++ [r] } })

/-! ### Entry -/

/-- Pennant groups whose link is neither in L0 nor Failed. -/
def State.downLinks (s : State) : List Nat :=
  (List.range 16).filter fun g => s.pgMode g == 2 && s.lt g != 6 && s.lt g != 7

/-- What Cinder loses (R369, Table 20-2): counters, snapshot copies, trace buffers, Kindling. -/
def State.loseInCinder (s : State) : State :=
  { s with
    ctr := { s.ctr with count := Tab.empty, snap := Tab.empty, trace := Tab.empty, latched := Tab.empty }
    kind := { s.kind with lines := Tab.empty } }

/-- Patrol paused in every channel, or going on with its pass as late as it was paused (R208). -/
def State.pausePatrol (s : State) (on : Bool) : State :=
  (List.range 16).foldl (fun s n => s.updChan n fun c =>
    let p := c.patrol
    { c with patrol :=
        if on then { p with paused := some s.gtc }
        else { p with due := p.due + p.visits * (s.gtc - p.paused.getD s.gtc), paused := none } }) s

/-- A state taken into force at its commit point. -/
def State.enterPower (s : State) (t : Nat) : State :=
  let s : State := { s with pow := { s.pow with target := none } }
  let s := (s.wr R.PS_STAT_STATE t).clr R.PS_STAT_BUSY
  if t < 2 then s
  else
    let s := s.downLinks.foldl (fun s g => s.lanesOff g) s.stopCores
    ((if t == 3 then s.loseInCinder else s).pausePatrol true).wakeTxSync

/-- Whether what a granted state does first has been done: for Cinder, every slice is clean and empty, and its data and the map cache's
are in DRAM. -/
def State.entryReady (s : State) (t : Nat) : Bool := t != 3 || (s.slicesIdle && s.written && s.quiet)

/-- POWER_STATE_ENTRY (R432): a granted state that no wake source has abandoned. For Cinder the dirty entries of the map cache are
written first. -/
def execPowerStateEntry (s : State) : Answer :=
  .next (match s.pow.target with
  | some t =>
    let s := if t == 3 && s.slicesIdle then s.storeMaps else s
    if s.entryReady t then s.enterPower t else s
  | none => s)

/-! ### Wake and exit -/

/-- WAKE (R434): a source of Table 20-5. -/
def execWake (source : Fin 7) (s : State) : Answer := .next (if source.val == 0 then s else s.wake source)

/-- The exit ended (R433): Blaze, the cores powered, `LOST` in each bank after Cinder, and what waited goes on. -/
def State.exitDone (s : State) : State :=
  let was := s.rd R.PS_STAT_STATE
  let s : State := { s with pow := { s.pow with exiting := false, quietSince := s.gtc } }
  let s := (s.wr R.PS_STAT_STATE 0).clr R.PS_STAT_BUSY
  let s := if was < 2 then s
    else
      let s := (List.range 8).foldl (fun s k =>
        let c := s.pow.cores.get k
        if c != 0 && s.coreSt k == 5 then s.setCoreSt k (c - 1) else s) s
      let s := ({ s with pow := { s.pow with cores := Tab.empty } } : State).pausePatrol false
      let s := if was == 3 then
          (List.range 4).foldl (fun s r => s.set1 (R.RC_BSTAT_LOST r)) (s.set1 R.CHIP_CBSTAT_LOST)
        else s
      s.downLinks.foldl (fun s g => s.fullReset g) s.lateTarget
  s.retryCommits.wakeTxSync

/-- EXIT_COMPLETE (R433). -/
def execExitComplete (s : State) : Answer := .next (if s.pow.exiting then s.exitDone.finish else s)

/-- DOZE_TIMER (R431): AOT4, held by DOZE, expires, and DOZE chooses anew. -/
def execDozeTimer (s : State) : Answer :=
  .next (if s.claim.aot.get 4 == 0x11 && s.hears 4 then
    { s with core := { s.core with pend := pendPut s.core.pend 4 0x02 (s.param 4 1 * 100) } }
  else s)

end Sys2Proof.Machine
end

