-- ==== Sys2Proof/Machine/Boot.lean ====
section
/-!
DEFINITION. Start-up and reset (chapter 21): supplies, Cold reset, the start of the main die, the replay of the image or the
default configuration, READY, the resets a register asks for, and the GTC's agreement between pool devices.
-/
namespace Sys2Proof.Machine

/-! ### Supplies and the reference -/

/-- A register after a Cold reset: classes N and F keep theirs (Table 23-1). -/
def coldRegs (t : Tab (BitVec 32)) : Tab (BitVec 32) :=
  ⟨t.cells.filter fun c => decide (c.1 < 2 ^ 28) && (regRow c.1).any fun r => r.cls == .n || r.cls == .f⟩

/-- Extents that no allocation takes (R386) stay closed; every other is free. -/
def TierState.closed (t : TierState) : Tab Extent :=
  ⟨(t.extents.cells.filter fun c => c.2.noAlloc).map fun c => (c.1, { (default : Extent) with noAlloc := true })⟩

/-- The block after a Cold reset (Table 21-4): the Peat log, the feed die and the management ports stay; repairs come back from
the training records, the modules have the spare rows they had left, and a retired channel stays retired (R187). -/
def State.coldReset (s : State) : State :=
  let chans := (List.range 16).foldl (fun (t : Tab Chan) n =>
    let c := s.dram.chans.get n
    let repairs := match s.peat.trn.get n with
      | some r => r.repairs
      | none => []
    t.put n { (default : Chan) with repairs := repairs, spares := c.spares, spareOf := c.spareOf, retired := c.retired }) Tab.empty
  let t : State :=
    { State.reset with
      regs := coldRegs s.regs, freeCtr := s.freeCtr, out := s.out, pending := s.pending, feed := s.feed
      peat := { s.peat with prgPend := [], hlt := 0, cntAt := 0, flush := none, flushDone := false, cur := none }
      tier := { (default : TierState) with lostBack := s.tier.lostBack, extents := s.tier.closed }
      dram := { (default : DramState) with chans := chans }
      mgmt := { s.mgmt with acked := 0, opening := [], secured := [] }
      boot := { (({}) : BootState) with supplies := true } }
  t.life 1

/-- SUPPLIES_VALID (R439): F_PG is among the conditions. -/
def execSuppliesValid (s : State) : Answer :=
  .next (if s.boot.supplies || !s.flag R.FD_STAT_PG then s else s.coldReset)

/-- SUPPLIES_LOST (R439). -/
def execSuppliesLost (s : State) : Answer :=
  .next (if s.boot.supplies then
    ({ s with boot := { s.boot with supplies := false, hold := true, drain := none } } : State).clr R.CHIP_BOOTSTAT_READY
  else s)

/-- REFERENCE_CHECK (R440): whether the reference is absent or off, and whether the untrimmed oscillator is. -/
def execReferenceCheck (refBad oscBad : Bool) (s : State) : Answer :=
  .next ((s.wr R.CHIP_BOOTSTAT_REFBAD (b2n refBad)).wr R.CHIP_BOOTSTAT_OSCBAD (b2n oscBad))

/-- REFERENCE_LOSS (R452): the control ring stalls, and the device is lost with cause 0x05. -/
def execReferenceLoss (s : State) : Answer :=
  let s := s.set1 R.CHIP_BOOTSTAT_REFBAD
  .next (if s.boot.hold then s else (s.loseDevice 5).finish)

/-! ### The start -/

/-- The straps of a Blank log (Table 21-3): modes, rates, x16 pairs, and ports numbered from 0 by ascending group (R297). -/
def State.fromStraps (s : State) (pgmode x16 : Nat) : State :=
  let pennant := fun (g : Nat) => pgmode.testBit g
  let wide := fun (g : Nat) => x16.testBit (g / 2) && !pennant (g / 2 * 2) && !pennant (g / 2 * 2 + 1)
  ((List.range 16).foldl (fun (a : Nat × State) g =>
    let s := (a.2.wr (R.PG_SDCTL_MODE g) (if pennant g then 2 else 1)).wr (R.PG_SDCTL_RATE g) (if pennant g then 7 else 5)
    if pennant g then (a.1, s.clr (R.PG_LKCTL_VC8 g))
    else
      let s := (s.wr (R.PG_CXLCFG_WIDTH g) (if wide g then 2 else 0)).wr (R.PG_CXLCFG_PNUM0 g) a.1
      (if wide g && g % 2 == 0 then a.1 else a.1 + 1, s)) (0, s)).2

/-- What a start takes from the image before its channels and lanes train: RWS fields and channel marks, claims, retirements, and
the metadata placement. -/
def State.fromImage (s : State) (i : Image) : State :=
  let s := i.regs.cells.foldl (fun s c =>
    if (regRow c.1).any fun r => r.cls != .i then s.setReg c.1 c.2 else s) s
  let s := i.retired.foldl (fun s n => s.updChan n fun c => { c with retired := true }) s
  let s := s.claimImage i.claim
  { s with
    tier := { s.tier with region := i.region, metaChans := i.metaChans, place := i.place } }

/-- Memory discarded (R444): no page is backed, every extent is free, every redirect is gone. -/
def State.discard (s : State) : State :=
  let s : State := { s with
    tier := { s.tier with
      pmap := Tab.empty, mcache := Tab.empty, inDram := Tab.empty, extents := s.tier.closed, frames := Tab.empty, slots := Tab.empty, tagHeld := [] }
    dram := { s.dram with
      lines := Tab.empty, media := [], mediaFull := none
      chans := (List.range 16).foldl (fun t n => t.upd n fun c => { c with redirect := Tab.empty, poisonList := [] }) s.dram.chans } }
  (s.set1 R.CHIP_BOOTSTAT_DISCARD).headLogAll 2 0x0100 0xFFFF 0

/-- Whether a pin-driving instruction of the TAP is loaded (R464). -/
def State.tapDrives (s : State) : Bool :=
  match s.mgmt.tap with
  | .extest | .extestPulse | .extestTrain | .clamp | .highz => true
  | .bypass | .idcode | .sample | .krovvan => false

/-- Whether a region's sensor has read below 0 °C (R490). A register that no poll has written yet shows no reading. -/
def State.tooCold (s : State) : Bool :=
  let t := s.reg R.MG_THERM
  t != 0 && (List.range 4).any fun r => decide (fld t (8 * r + 7) (8 * r) < 40)

/-- Whether the main die can be released: supplies valid, the reference good, no TAP instruction on the pins, no PFW, and no region
below 0 °C. -/
def State.mayStart (s : State) : Bool :=
  s.boot.supplies && s.boot.hold && s.rd R.CHIP_BOOTSTAT_PHASE == 0 && !s.flag R.CHIP_BOOTSTAT_REFBAD && !s.tapDrives &&
    !s.flag R.FD_STAT_PFW && !s.tooCold

/-- Steps 2 to 5 (Tables 21-1 and 21-2): the main die released, a boot epoch drawn (R287), the groups started, and each channel
in Training but those that stay Failed. A log that is Blank returns the retired ones to service (R187). -/
def State.release (s : State) (discards : Bool) : State :=
  let (n, s) := s.fresh
  let s : State := { s with
    link := { s.link with epoch := some (Config.nonce n) }
    boot := { s.boot with hold := false, startAt := s.gtc, image := s.peat.image.isSome } }
  let s := (List.range 16).foldl (fun s g => s.groupStart g true) s
  let s := if s.boot.image then s
    else (List.range 16).foldl (fun s n => s.updChan n fun c => { c with retired := false }) s
  let s := (List.range 16).foldl (fun s n => (s.wr (R.CH_CFG_STATE n) (if s.boot.failed.contains n then 6 else 1)).eccSync n) s
  let s := if discards then s.discard else s
  s.wr R.CHIP_BOOTSTAT_PHASE 5

/-- DK1 to DK3 new (Table 07-5). -/
def State.drawDeviceKeys (s : State) : State :=
  let n := s.freeCtr
  { s with
    freeCtr := n + 3
    eng := { s.eng with
      dk := ((s.eng.dk.put 1 (some (Config.drbg n))).put 2 (some (Config.drbg (n + 1)))).put 3 (some (Config.drbg (n + 2))) } }

/-- A Cold start: straps sampled, the log recovered, and configuration taken from it or from the straps (R441, R442, R446). -/
def State.coldStart (s : State) (pgmode x16 devnum : Nat) (newest older : Bool) : State :=
  let s := ((s.wr R.CHIP_STRAP_PGMODE pgmode).wr R.CHIP_STRAP_X16 x16).wr R.CHIP_STRAP_DEVNUM devnum
  let s := s.drawDeviceKeys.recoverLog newest older
  let s := match s.peat.image with
    | some i => s.fromImage i
    | none => s.fromStraps pgmode x16
  s.release true

/-- COLD_START (R441, R442): `newest` and `older` say which image sets of the log prove valid. -/
def execColdStart (pgmode : BitVec 16) (x16 : BitVec 8) (devnum : Fin 16) (newest older : Bool) (s : State) : Answer :=
  .next (if s.mayStart && s.rd R.CHIP_BOOTSTAT_RSTCAUSE == 0 then s.coldStart pgmode.toNat x16.toNat devnum newest older else s)

/-- WARM_HOLD_END (R448): the start of Table 21-2; only an orderly reset keeps memory. -/
def execWarmHoldEnd (newest older : Bool) (s : State) : Answer :=
  .next (if s.mayStart && s.rd R.CHIP_BOOTSTAT_RSTCAUSE != 0 then
    (s.recoverLog newest older).release (s.rd R.CHIP_BOOTSTAT_RSTCAUSE != 1)
  else s)

/-! ### Step 7 -/

/-- The replay of the image (R35): class I registers but for those written since the start (R477), the regulator's committed
settings, and every domain as a new one with the generation it had. -/
def State.replayImage (s : State) (i : Image) : State :=
  let kept := fun (off : Nat) => s.boot.early.contains off
  let s := i.regs.cells.foldl (fun s c =>
    if stagedRgl.contains c.1 || kept c.1 || !(regRow c.1).any (fun r => r.cls == .i) then s else s.setReg c.1 c.2) s
  let val := fun (o : Nat) => ((i.regs.cells.find? fun c => c.1 == o).map (·.2)).getD (regReset o)
  let s := stagedRgl.foldl (fun s o =>
    [Path.bar, .sideband, .rom].foldl (fun s p => if kept (pathOff p o) then s else s.setReg (pathOff p o) (val o))
      (s.setReg (3 * 2 ^ 28 + o) (val o))) s
  let s : State := { s with core := { s.core with params := i.params }, rgl := { s.rgl with fresh := true } }
  let s := s.wr R.RGL_STAT_WINDOW s.window
  i.entries.cells.foldl (fun s c =>
    if Entry.valid c.2 then
      let s := s.commitPoint c.1 c.2
      s.setEntry c.1 (setFld (s.entry c.1) 399 384 (Entry.gen c.2))
    else s.setEntry c.1 c.2) s

/-- The aligned channel sets of the default configuration, as base and size (R447). -/
def defaultSets (ok : Nat → Bool) : List (Nat × Nat) :=
  let all := fun (b n : Nat) => (List.range n).all fun i => ok (b + i)
  if all 0 16 then [(0, 16)]
  else (([0, 8].map fun b =>
    if all b 8 then [(b, 8)] else ([b, b + 4].filter fun c => all c 4).map fun c => (c, 4)).flatten)

/-- The entry of one set of the default configuration. -/
def State.defaultEntry (s : State) (base n size dpaBase mapBase ports : Nat) : Entry :=
  let e : Entry := setFld (setFld entryReset 114 89 size) 88 64 dpaBase
  let e := setFld (setFld (setFld e 345 320 mapBase) 287 256 ports) 319 288 ports
  setFld (setFld (setFld (setFld (setFld e 195 192 s.devNum) 63 63 1) 61 61 1) 43 42 (if n == 16 then 2 else n / 8)) 41 38 base

/-- The default configuration (R447), committed as one step. -/
def State.defaultConfig (s : State) : State :=
  let chans := (List.range 16).filter s.chanTakes
  let s : State := { s with tier := { s.tier with
    region := chans.foldl (fun a n => a + s.reserveExtents n) 0, metaChans := chans, place := Tab.empty, lostBack := 0
    extents := Tab.empty } }
  let ports := (List.range 32).foldl (fun a p => if (s.place p).on then a + 2 ^ p else a) 0
  let s := ((defaultSets s.chanTakes).foldl (fun (a : Nat × Nat × Nat × State) x =>
    let (k, b, m, s) := a
    let size := (List.range x.2).foldl (fun t i => t + s.dataExtents (x.1 + i)) 0
    let e := s.defaultEntry x.1 x.2 size b m ports
    (k + 1, b + size, m + Entry.mapUnits e, s.commitPoint k e)) (0, 0, 0, s)).2.2.2
  let s : State := { s with peat := { s.peat with wantFull := true } }
  s.set1 R.CHIP_BOOTSTAT_DEFBUILT

/-- Whether every condition of R443 but the configuration holds: channels in a final state, and no link that has trained out of
L0. -/
def State.startOver (s : State) : Bool :=
  s.rd R.CHIP_BOOTSTAT_PHASE == 5 && !s.boot.hold && ((List.range 16).all fun n => s.chanState n != 1 && s.chanState n != 4) &&
    (List.range 16).all fun g => s.pgMode g != 2 || s.lt g == 6 || s.lt g == 7 ||
      ((s.lt g == 0 || s.lt g == 1) && (s.linkEnd g).downAt.isNone)

/-- Steps 7 to 9: configuration, default programs, `READY`, and the commits that waited. -/
def State.becomeReady (s : State) : State :=
  let s := match s.boot.image, s.peat.image with
    | true, some i => s.replayImage i
    | _, _ => s.defaultConfig
  let s := ((s.set1 R.CHIP_BOOTSTAT_READY).wr R.CHIP_BOOTSTAT_PHASE 0xF).wr R.CHIP_BOOTTIME_MS ((s.gtc - s.boot.startAt) / 1000000)
  let s := [0, 1, 2, 8].foldl (fun s k => s.romBinds k) s
  let s := [1, 2, 3].foldl (fun s p => s.start p) s
  let s : State := { s with boot := { s.boot with early := [] } }
  let s : State := if s.flag R.CHIP_BOOTSTAT_DISCARD then
      { s with boot := { s.boot with initNext := 0, initTotal := s.tier.region, initAhead := [], initDone := [] } }
    else s
  (s.floorSync.limitSync.retryCommits.rglTakeQueued).finish

/-- READY (R443). -/
def execReady (s : State) : Answer := .next (if s.startOver then s.becomeReady else s)

/-- EXTENT_INIT_DONE (R445): the next extent of the background writer is done. -/
def execExtentInitDone (s : State) : Answer :=
  .next (match s.nextInit with
  | some x => (s.initExtent x).finish
  | none => s)

/-! ### Resets -/

/-- `CHIP_RSTCTL` written (R448). -/
def State.writeRstctl (s : State) (v : BitVec 32) : State :=
  let s := s.putReg R.CHIP_RSTCTL v
  if !bit v 31 then s else if bit v 30 then s.askOrderly else s.askImmediate

/-- ORDERLY_WARM_RESET (R448). -/
def execOrderlyWarmReset (p : Path) (val : BitVec 32) (s : State) : Answer :=
  .next (s.writing p R.CHIP_RSTCTL (setFld (setFld val 31 31 1) 30 30 1) fun v s => s.writeRstctl v)
/-- IMMEDIATE_WARM_RESET (R448). -/
def execImmediateWarmReset (p : Path) (val : BitVec 32) (s : State) : Answer :=
  .next (s.writing p R.CHIP_RSTCTL (setFld (setFld val 31 31 1) 30 30 0) fun v s => s.writeRstctl v)

/-- The end of a drain: pending deltas journalled, then the reset. It waits for a LASTGASP flush (R391). -/
def State.endDrain (s : State) : State := if s.peat.flush.isSome then s else s.journalNow.warmReset 1

/-- DRAIN_COMPLETE (R448). -/
def execDrainComplete (s : State) : Answer :=
  let s := s.settleDrain
  .next (if s.drainOver then s.endDrain else s)

/-- DRAIN_TIMEOUT (R448): a drain that ends in the clock of its limit still counts (R456). -/
def execDrainTimeout (s : State) : Answer :=
  let s := s.settleDrain
  .next (if s.drainOver then s.endDrain
    else if s.boot.drain.isSome && s.peat.flush.isNone then s.warmReset 3
    else s)

/-! ### GTC_SYNC (R454) -/

/-- Whether GTC_SYNC holds MFP3. -/
def State.syncPin (s : State) : Bool := s.claim.mfp.get 3 == 0x23

/-- GTC_SYNC_PULSE: the leader's pulse. -/
def execGtcSyncPulse (s : State) : Answer :=
  .next (if s.rd R.CHIP_GTCCTL_SYNCMODE == 1 && s.syncPin && s.gtc % 2 ^ 20 == 0 then s.send (.pulse 3) else s)

/-- A load that is armed: bits 63:20 taken, unless the GTC would go back. -/
def State.loadGtc (s : State) : State :=
  let t := (s.rd R.CHIP_GTCLOAD1_LOADHI * 2 ^ 32 + s.rd R.CHIP_GTCLOAD0_LOADLO) * 2 ^ 20 + s.gtc % 2 ^ 20
  let s := s.clr R.CHIP_GTCLOAD1_ARM
  if t < s.gtc then s.set1 R.CHIP_GTCCTL_LOADREJ else { s with gtc := t }

/-- The error at an edge: the GTC plus `SYNCOFS` minus the nearest multiple of 2^20. -/
def State.syncError (s : State) : Int :=
  let x : Int := (s.gtc : Int) + (BitVec.ofNat 8 (s.rd R.CHIP_GTCCTL_SYNCOFS)).toInt
  (x + 2 ^ 19) % 2 ^ 20 - 2 ^ 19

/-- A follower at an edge: it slews, steps forward, or counts at half rate. -/
def State.syncEdge (s : State) : State :=
  let s := if s.flag R.CHIP_GTCLOAD1_ARM then s.loadGtc else s
  let e := s.syncError
  let n := e.natAbs
  let shown : Int := max (-128) (min 127 e)
  let s := (s.wr R.CHIP_GTCCTL_LOCKED (b2n (decide (n ≤ 4)))).wr R.CHIP_GTCCTL_ERR ((shown + 256) % 256).toNat
  if n ≤ 1024 then
    { s with boot := { s.boot with sync := { ticks := n, ahead := decide (0 < e), half := false, clocks := 0 } } }
  else if e < 0 then { s with gtc := s.gtc + n, boot := { s.boot with sync := default } }
  else { s with boot := { s.boot with sync := { ticks := n, ahead := true, half := true, clocks := 0 } } }

/-- GTC_SYNC_EDGE. -/
def execGtcSyncEdge (s : State) : Answer :=
  .next (if s.rd R.CHIP_GTCCTL_SYNCMODE == 2 && s.syncPin && !s.boot.hold then s.syncEdge else s)

end Sys2Proof.Machine
end

