-- ==== Sys2Proof/Machine/ChannelCmd.lean ====
section
/-!
DEFINITION. The commands and events of the DRAM channels (chapters 08 and 09), each followed by what the device does at once.
-/
namespace Sys2Proof.Machine

/-- The end of a channel event: an injection and a retirement go on if they can, and the device goes on. -/
def State.chanDone (s : State) (n : Nat) : State := ((s.settleInject n).endRetire n).finish

/-- COMMAND_ISSUE (R166). -/
def execCommandIssue (chan : Fin 16) (sub : Fin 2) (fault : PipeFault) (s : State) : Answer :=
  .next ((s.issue chan sub fault).chanDone chan)

/-- A rank's refresh interval elapsed: one pulled in covers it, else it is due (R172). -/
def State.refreshDue (s : State) (n sub rank : Nat) : State :=
  let k := rankKey n sub rank
  if !s.chanServes n || rank ≥ s.ranks n then s
  else if s.dram.refAhead.get k > 0 then { s with dram := { s.dram with refAhead := s.dram.refAhead.upd k (· - 1) } }
  else { s with dram := { s.dram with refDue := s.dram.refDue.upd k (· + 1) } }

/-- REFRESH_DUE (R172). -/
def execRefreshDue (chan : Fin 16) (sub : Fin 2) (rank : Fin 16) (s : State) : Answer := .next (s.refreshDue chan sub rank)

/-- A refresh window's boundary (R173): the activate counts and floors cleared, and the threshold as now written in force. -/
def State.refreshBoundary (s : State) (n : Nat) : State :=
  let mine := fun (k : Nat) => k / 1024 == n
  let clear := fun (b : Bank) => { b with act := [], floor := 0, flagged := false }
  let cells := s.dram.banks.cells.map fun c => if mine c.1 then (c.1, clear c.2) else c
  let s := { s with dram := { s.dram with banks := ⟨cells.filter fun c => c.2 != default⟩ } }
  let s := s.updChan n fun c => { c with threshNow := s.rd (R.CH_RHTHRESH_THRESH n) }
  s.clr (R.CH_RHSTAT_MAXF n)

/-- REFRESH_WINDOW_BOUNDARY (R173). -/
def execRefreshWindowBoundary (chan : Fin 16) (s : State) : Answer := .next (s.refreshBoundary chan)

/-- MR4_POLL (R170). -/
def execMr4Poll (chan : Fin 16) (rate : RefreshReport) (s : State) : Answer := .next ((s.mr4 chan rate).finish)
/-- THERMAL_POLL (R171). -/
def execThermalPoll (chan : Fin 16) (reading : Option (BitVec 8)) (s : State) : Answer := .next ((s.thermal chan reading).finish)

/-- The oldest command of a retry buffer retired, unless the buffer is frozen (R177, R178); a write's entry is released. -/
def State.retireCmd (s : State) (n sub : Nat) : State :=
  let b := s.sub n sub
  if b.alert != .none then s
  else
    match b.retry with
    | [] => s
    | .write id :: rest => s.updSub n sub fun b => { b with retry := rest, wq := b.wq.filter fun w => w.id != id }
    | _ :: rest => s.updSub n sub fun b => { b with retry := rest }

/-- COMMAND_RETIRE (R177). -/
def execCommandRetire (chan : Fin 16) (sub : Fin 2) (s : State) : Answer := .next ((s.retireCmd chan sub).chanDone chan)
/-- ALERT_N (R178). -/
def execAlertN (chan : Fin 16) (sub : Fin 2) (crc : Bool) (s : State) : Answer := .next ((s.alert chan sub crc).chanDone chan)
/-- ALERT_DEASSERT (R178). -/
def execAlertDeassert (chan : Fin 16) (sub : Fin 2) (s : State) : Answer := .next ((s.alertOver chan sub).chanDone chan)
/-- REPLAY_RETIRE (R178). -/
def execReplayRetire (chan : Fin 16) (sub : Fin 2) (s : State) : Answer := .next ((s.replayOver chan sub).chanDone chan)
/-- TRAINING_RESTORE_DONE (R179). -/
def execTrainingRestoreDone (chan : Fin 16) (sub : Fin 2) (pass : Bool) (s : State) : Answer :=
  .next ((s.restoreOver chan sub pass).chanDone chan)
/-- LOWER_RATE_TRAINING_DONE (R179). -/
def execLowerRateTrainingDone (chan : Fin 16) (sub : Fin 2) (pass : Bool) (s : State) : Answer :=
  .next ((s.lowerOver chan sub pass).chanDone chan)
/-- CHANNEL_SHARE_EXPIRY (R232). -/
def execChannelShareExpiry (chan : Fin 16) (sub : Fin 2) (s : State) : Answer := .next ((s.shareEnd chan sub).chanDone chan)

/-- DRAM_READ_DATA (R195): the data of the oldest read issued, but for merges, which have a command of their own. -/
def execDramReadData (chan : Fin 16) (sub : Fin 2) (err : CodeWord) (fault : PipeFault) (s : State) : Answer :=
  let t := match s.popInflight chan sub fun e => !e.use.isMerge && !s.deadRead chan sub e with
    | some (e, s) => s.firstRead chan sub e err fault
    | none => s
  .next (t.chanDone chan)

/-- REREAD_DONE (R202). -/
def execRereadDone (chan : Fin 16) (sub : Fin 2) (err : CodeWord) (fault : PipeFault) (s : State) : Answer :=
  .next ((s.secondRead chan sub err fault).chanDone chan)
/-- NARROW_WRITE_MERGE (R204). -/
def execNarrowWriteMerge (chan : Fin 16) (sub : Fin 2) (met : ReadMet) (s : State) : Answer :=
  .next ((s.mergeRead chan sub met.err met.fault).chanDone chan)
/-- PATROL_READ (R206). -/
def execPatrolRead (chan : Fin 16) (err : CodeWord) (again : CodeWord) (s : State) : Answer :=
  .next ((s.patrol chan err again).chanDone chan)

/-- A write of `CHn_MARKk` (R199): a mask that is not legal is discarded and recorded. -/
def State.writeMark (s : State) (n k : Nat) (v : BitVec 32) : State :=
  if maskLegal (s.flag (R.CH_CFG_WIDTH n)) (fld v 9 0) then s.setMark n k (fld v 9 0) 0 else s.badValue (R.CH_MARK n k)

/-- MARK_WRITE (R199). -/
def execMarkWrite (p : Path) (chan : Fin 16) (k : Fin 32) (val : BitVec 32) (s : State) : Answer :=
  .next ((s.viaPath p (R.CH_MARK chan k) fun s => s.writeMark chan k val).chanDone chan)

/-- A write of `CHn_INJCTL`'s enable and reservation (R211). `INJLK` keeps them as they are (R16). -/
def State.writeInjEnable (s : State) (n ent : Nat) (on : Bool) : State :=
  if s.flag R.MG_LOCK_INJLK && (ent != s.rd (R.CH_INJCTL_ENT n) || on != s.flag (R.CH_INJCTL_INJEN n)) then
    s.lockViolation (R.CH_INJCTL n)
  else if on == s.flag (R.CH_INJCTL_INJEN n) && !on then s.wr (R.CH_INJCTL_ENT n) ent
  else s.setInjEnable n ent on

/-- INJECTION_ENABLE (R211): `INJEN` = 1. -/
def execInjectionEnable (p : Path) (chan : Fin 16) (entries : Fin 4) (s : State) : Answer :=
  .next (s.viaPath p (R.CH_INJCTL chan) fun s => s.writeInjEnable chan entries true)

/-- RAW_WRITE (R211). -/
def execRawWrite (p : Path) (chan : Fin 16) (s : State) : Answer :=
  .next ((s.viaPath p (R.CH_INJCTL chan) fun s => s.startInject chan 0).chanDone chan)
/-- RAW_READ (R211). -/
def execRawRead (p : Path) (chan : Fin 16) (s : State) : Answer :=
  .next ((s.viaPath p (R.CH_INJCTL chan) fun s => s.startInject chan 1).chanDone chan)
/-- FLIP (R211). -/
def execFlip (p : Path) (chan : Fin 16) (s : State) : Answer :=
  .next ((s.viaPath p (R.CH_INJCTL chan) fun s => s.startInject chan 2).chanDone chan)

/-- The row that `CHn_MAINTADDR` names. -/
def State.maintCoord (s : State) (n : Nat) : Coord :=
  { sub := s.rd (R.CH_MAINTADDR_SUB n), rank := s.rd (R.CH_MAINTADDR_RANK n),
    bank := s.rd (R.CH_MAINTADDR_BG n) * 4 + s.rd (R.CH_MAINTADDR_BANK n), row := s.rd (R.CH_MAINTADDR_ROW n) }

/-- A maintenance operation, discarded while one is in progress; its status is kept (Table 08-18). -/
def State.maintain (s : State) (n : Nat) (f : State → Nat × State) : State :=
  if s.flag (R.CH_MAINT_BUSY n) then s
  else
    let (st, s) := f s
    s.wr (R.CH_MAINT_STATUS n) st

/-- `OP` 00: a soft repair. -/
def State.maintSoft (s : State) (n : Nat) : State :=
  s.maintain n fun s =>
    let c := s.maintCoord n
    let s := if !s.chanServes n || s.claim.retry.get ((n * 2 + c.sub) * 256 + 0x42) != 0 then s
      else (s.claimOne (repairHold n c.sub)).2
    s.softRepair n c
/-- `OP` 01: a retirement, which waits for the end of an escalation in progress (R189). -/
def State.maintRetire (s : State) (n : Nat) : State :=
  s.maintain n fun s => if s.escalating n then (0, s.updChan n fun c => { c with retireWait := some 0 }) else s.retire n
/-- `OP` 10: a row listed for hard repair; one without a spare row fails with PPR_EXHAUSTED. -/
def State.maintList (s : State) (n : Nat) : State :=
  s.maintain n fun s =>
    let c := s.maintCoord n
    if !s.chanServes n then (0x23, s)
    else if !s.hasSpare n c then (0x20, s.exhausted n c)
    else (0, s.listRow n c)

/-- SOFT_REPAIR (R184). -/
def execSoftRepair (p : Path) (chan : Fin 16) (s : State) : Answer :=
  .next ((s.viaPath p (R.CH_MAINT chan) fun s => s.maintSoft chan).chanDone chan)
/-- RETIRE_CHANNEL (R186). -/
def execRetireChannel (p : Path) (chan : Fin 16) (s : State) : Answer :=
  .next ((s.viaPath p (R.CH_MAINT chan) fun s => s.maintRetire chan).chanDone chan)
/-- LIST_HARD_REPAIR (R183). -/
def execListHardRepair (p : Path) (chan : Fin 16) (s : State) : Answer :=
  .next ((s.viaPath p (R.CH_MAINT chan) fun s => s.maintList chan).chanDone chan)

/-- The end of a soft repair (Table 08-7), which waits for the end of an alert sequence (R178): its lines are back, the row is listed for hard repair where the sequence was
made. With no spare row it fails with PPR_EXHAUSTED; a sequence that fails after its replays is abandoned, and the spec gives
no status for it. -/
def State.endSoft (s : State) (n : Nat) (pass : Bool) : State :=
  match (s.dram.chans.get n).save with
  | none => s
  | some x =>
    let c := x.coord
    if (s.sub n c.sub).alert != .none || s.escalating n then s
    else
    let s := (s.emptySave n x).clr (R.CH_MAINT_BUSY n)
    if !s.hasSpare n c then (s.wr (R.CH_MAINT_STATUS n) 0x20).exhausted n c
    else if pass then
      let on := fun (h : Chan) => { h with softRows := if h.softRows.contains c.rowKey then h.softRows else h.softRows ++ [c.rowKey] }
      ((s.updChan n on).listRow n c).wr (R.CH_MAINT_STATUS n) 0
    else
      let (i, s) := s.fresh
      (s.listRow n c).wr (R.CH_MAINT_STATUS n) ((Config.free i).toNat % 256)

/-- SOFT_REPAIR_COMPLETE (R184). -/
def execSoftRepairComplete (chan : Fin 16) (pass : Bool) (s : State) : Answer := .next ((s.endSoft chan pass).chanDone chan)
/-- EXTENT_TARGET (R186). -/
def execExtentTarget (chan : Fin 16) (s : State) : Answer := .next ((s.nextExtent chan).chanDone chan)
/-- EXTENT_FLIP (R186). -/
def execExtentFlip (chan : Fin 16) (s : State) : Answer := .next ((s.flipExtent chan).chanDone chan)
/-- CHANNEL_TRAINING_DONE (R181). -/
def execChannelTrainingDone (chan : Fin 16) (spd : Spd) (pass : Bool) (s : State) : Answer :=
  .next ((s.trained chan spd pass).chanDone chan)
/-- CHANNEL_RESTORE_DONE (R182). -/
def execChannelRestoreDone (chan : Fin 16) (spd : Spd) (pass : Bool) (s : State) : Answer :=
  .next ((s.restored chan spd pass).chanDone chan)

end Sys2Proof.Machine
end

