-- ==== Sys2Proof/Machine/Coherence.lean ====
section
/-!
DEFINITION. The messages of the pool coherence protocol and of the paced classes as commands (Tables 04-5 to 04-9, R57, R234): each
builds its message and hands it to the operation of `Protocol`.
-/
namespace Sys2Proof.Machine

/-- A message with its common fields. -/
def mkMsg (opc : Nat) (src : Fin 16) (txn : BitVec 12) (addr : BitVec 44) : Msg :=
  { (default : Msg) with opc := opc, src := src, txn := txn.toNat, addr := addr.toNat }

/-- A message taken, and what it lets go: it ends what counts toward a limit of its sender's ingress stores (Table 12-7). A
device that has been declared lost takes none (R379, R387). -/
def State.take (s : State) (m : Msg) (f : State → Msg → State) : State :=
  if s.lost || s.peerLost m.src then s else (f ((s.wake 2).endsLimit m) m).settleAll

/-- RDS (R85). -/
def execRds (src : Fin 16) (txn : BitVec 12) (addr : BitVec 44) (upset : Upset) (s : State) : Answer :=
  .next (s.take (mkMsg 0x01 src txn addr) fun s m => s.onRequest .rdS m upset)
/-- RDOWN (R85). -/
def execRdown (src : Fin 16) (txn : BitVec 12) (addr : BitVec 44) (upset : Upset) (s : State) : Answer :=
  .next (s.take (mkMsg 0x02 src txn addr) fun s m => s.onRequest .rdOwn m upset)
/-- RDCUR (R85). -/
def execRdcur (src : Fin 16) (txn : BitVec 12) (addr : BitVec 44) (upset : Upset) (s : State) : Answer :=
  .next (s.take (mkMsg 0x03 src txn addr) fun s m => s.onRequest .rdCur m upset)
/-- WRCUR (R85). -/
def execWrcur (src : Fin 16) (txn : BitVec 12) (addr : BitVec 44) (data : Line) (upset : Upset) (s : State) : Answer :=
  .next (s.take { mkMsg 0x04 src txn addr with data := data, be := BitVec.allOnes 64 } fun s m => s.onRequest .wrCur m upset)
/-- WRPTL (R85). -/
def execWrptl (src : Fin 16) (txn : BitVec 12) (addr : BitVec 44) (be : BitVec 64) (data : Line) (upset : Upset) (s : State) :
    Answer :=
  .next (s.take { mkMsg 0x05 src txn addr with data := data, be := be } fun s m => s.onRequest .wrPtl m upset)

/-- SNPINV (R84). -/
def execSnpinv (src : Fin 16) (txn : BitVec 12) (addr : BitVec 44) (ord : Bool) (s : State) : Answer :=
  .next (s.take { mkMsg 0x20 src txn addr with ord := ord } fun s m => s.onSnoop m)
/-- SNPS (R84). -/
def execSnps (src : Fin 16) (txn : BitVec 12) (addr : BitVec 44) (ord : Bool) (s : State) : Answer :=
  .next (s.take { mkMsg 0x21 src txn addr with ord := ord } fun s m => s.onSnoop m)
/-- SNPFWDS (R84). -/
def execSnpfwds (src : Fin 16) (txn : BitVec 12) (addr : BitVec 44) (ord : Bool) (reqDev : Fin 16) (reqTxn : BitVec 12)
    (s : State) : Answer :=
  .next (s.take { mkMsg 0x22 src txn addr with ord := ord, reqDev := reqDev, reqTxn := reqTxn.toNat } fun s m => s.onSnoop m)
/-- SNPFWDCUR (R84). -/
def execSnpfwdcur (src : Fin 16) (txn : BitVec 12) (addr : BitVec 44) (ord : Bool) (reqDev : Fin 16) (reqTxn : BitVec 12)
    (s : State) : Answer :=
  .next (s.take { mkMsg 0x23 src txn addr with ord := ord, reqDev := reqDev, reqTxn := reqTxn.toNat } fun s m => s.onSnoop m)

/-- RSPI (R86). -/
def execRspi (src : Fin 16) (txn : BitVec 12) (wbp : Bool) (s : State) : Answer :=
  .next (s.take { mkMsg 0x40 src txn 0 with wbp := wbp } fun s m => s.onResponse m false)
/-- RSPS (R89). -/
def execRsps (src : Fin 16) (txn : BitVec 12) (s : State) : Answer :=
  .next (s.take (mkMsg 0x41 src txn 0) fun s m => s.onResponse m false)
/-- RSPFWDS (R85). -/
def execRspfwds (src : Fin 16) (txn : BitVec 12) (s : State) : Answer :=
  .next (s.take (mkMsg 0x42 src txn 0) fun s m => s.onResponse m true)
/-- RSPFWDCUR (R85). -/
def execRspfwdcur (src : Fin 16) (txn : BitVec 12) (s : State) : Answer :=
  .next (s.take (mkMsg 0x43 src txn 0) fun s m => s.onResponse m true)
/-- RSPIDATA (R85). -/
def execRspidata (src : Fin 16) (txn : BitVec 12) (addr : BitVec 44) (poison : Bool) (data : Line) (s : State) : Answer :=
  .next (s.take { mkMsg 0x62 src txn addr with poison := poison, data := data } fun s m => s.onResponseData m false)
/-- RSPSDATA (R85). -/
def execRspsdata (src : Fin 16) (txn : BitVec 12) (addr : BitVec 44) (poison : Bool) (data : Line) (s : State) : Answer :=
  .next (s.take { mkMsg 0x63 src txn addr with poison := poison, data := data } fun s m => s.onResponseData m false)
/-- RSPFWDSDATA (R85). -/
def execRspfwdsdata (src : Fin 16) (txn : BitVec 12) (addr : BitVec 44) (poison : Bool) (data : Line) (s : State) : Answer :=
  .next (s.take { mkMsg 0x64 src txn addr with poison := poison, data := data } fun s m => s.onResponseData m true)

/-- CMP (R83). -/
def execCmp (src : Fin 16) (txn : BitVec 12) (s : State) : Answer :=
  .next (s.take (mkMsg 0x44 src txn 0) fun s m => s.onCmp m)
/-- ERR (R83). -/
def execErr (src : Fin 16) (txn : BitVec 12) (err : BitVec 8) (s : State) : Answer :=
  .next (s.take { mkMsg 0x45 src txn 0 with err := err.toNat } fun s m => s.onErr m)
/-- DATA (R83). -/
def execData (src : Fin 16) (txn : BitVec 12) (grant : BitVec 3) (poison : Bool) (data : Line) (s : State) : Answer :=
  .next (s.take { mkMsg 0x60 src txn 0 with grant := grant.toNat, poison := poison, data := data } fun s m => s.onData m)
/-- DATAFWD (R83). -/
def execDatafwd (src : Fin 16) (txn : BitVec 12) (grant : BitVec 3) (poison : Bool) (data : Line) (s : State) : Answer :=
  .next (s.take { mkMsg 0x61 src txn 0 with grant := grant.toNat, poison := poison, data := data } fun s m => s.onData m)
/-- WBDATA (R86). -/
def execWbdata (src : Fin 16) (txn : BitVec 12) (addr : BitVec 44) (held : BitVec 4) (poison : Bool) (data : Line)
    (upset : Upset) (s : State) : Answer :=
  .next (s.take { mkMsg 0x80 src txn addr with held := held.toNat, poison := poison, data := data } fun s m => s.onWbData m upset)
/-- EVICTNOTICE (R85). -/
def execEvictnotice (src : Fin 16) (txn : BitVec 12) (addr : BitVec 44) (held : BitVec 4) (upset : Upset) (s : State) :
    Answer :=
  .next (s.take { mkMsg 0x81 src txn addr with held := held.toNat } fun s m => s.onEvictNotice m upset)

/-- MIRWR (R57). -/
def execMirwr (src : Fin 16) (txn : BitVec 12) (addr : BitVec 44) (poison : Bool) (data : Line) (s : State) : Answer :=
  .next (s.take { mkMsg 0x82 src txn addr with poison := poison, data := data } fun s m => s.onMirWr m)
/-- MIRRD (R57). -/
def execMirrd (src : Fin 16) (txn : BitVec 12) (addr : BitVec 44) (s : State) : Answer :=
  .next (s.take (mkMsg 0xA2 src txn addr) fun s m => s.onMirRd m)
/-- MIRDATA (R57). -/
def execMirdata (src : Fin 16) (txn : BitVec 12) (poison : Bool) (data : Line) (s : State) : Answer :=
  .next (s.take { mkMsg 0x65 src txn 0 with poison := poison, data := data } fun s m => s.onMirData m)

/-- PRD (R229). -/
def execPrd (src : Fin 16) (txn : BitVec 12) (addr : BitVec 44) (s : State) : Answer :=
  .next (s.take (mkMsg 0xC0 src txn addr) fun s m => s.onRequest .pRd m .none)
/-- PWR (R231). -/
def execPwr (src : Fin 16) (txn : BitVec 12) (addr : BitVec 44) (be : BitVec 64) (data : Line) (s : State) : Answer :=
  .next (s.take { mkMsg 0xC1 src txn addr with be := be, data := data } fun s m => s.onRequest .pWr m .none)
/-- PDATA (R234). -/
def execPdata (src : Fin 16) (txn : BitVec 12) (poison : Bool) (data : Line) (s : State) : Answer :=
  .next (s.take { mkMsg 0xE0 src txn 0 with poison := poison, data := data } fun s m => s.onPaced m)
/-- PCMP (R234). -/
def execPcmp (src : Fin 16) (txn : BitVec 12) (s : State) : Answer :=
  .next (s.take (mkMsg 0xE1 src txn 0) fun s m => s.onPaced m)

end Sys2Proof.Machine
end

