-- ==== Sys2Proof/Machine/Reg.lean ====
section
/-!
DEFINITION. The control window as its paths see it (chapter 23): which write of which register does what, what a read returns, and
the widths of R471.
-/
namespace Sys2Proof.Machine

/-! ### Offsets -/

/-- Whether each path has a copy of its own of a register (R474). -/
def perPath (off : Nat) : Bool :=
  (decide (R.CHIP_DOMSTAGE 0 ≤ off) && decide (off ≤ R.CHIP_DOMSTAT)) ||
    (decide (R.SEC_KEYSTAGE 0 ≤ off) && decide (off ≤ R.SEC_KEYSTAT)) || stagedRgl.contains off

/-- Where a path's copy of a register stands; shared registers have one. -/
def copyOff (p : Path) (off : Nat) : Nat := if perPath off then pathOff p off else off

/-- Whether an offset lies in the feed die's block and is not `FD_LINK`, which the main die holds. -/
def onFeedDie (off : Nat) : Bool := decide (R.FD_STAT ≤ off) && decide (off < R.FD_LINK)

/-! ### Writes -/

/-- `MG_LOCK` written (R467): a set bit stays set, and a write that would clear one is recorded. -/
def State.writeLock (s : State) (v : BitVec 32) : State :=
  let old := fld (s.reg R.MG_LOCK) 31 24
  let s := if old &&& fld v 31 24 == old then s else s.lockViolation R.MG_LOCK
  s.setReg R.MG_LOCK (setFld (0 : BitVec 32) 31 24 (old ||| fld v 31 24))

/-- A W1C write of a cause of SMB_ALERT_N: cleared, it may assert the pin anew (R461). -/
def State.writeCause (s : State) (off : Nat) (v : BitVec 32) (cause i : Nat) : State :=
  let s := s.putReg off v
  if bit v i then { s with mgmt := { s.mgmt with acked := setFld s.mgmt.acked cause cause 0 } } else s

/-- `CHIP_DOMCOMMIT` written (Table 02-6). -/
def State.writeDomcommit (s : State) (p : Path) (v : BitVec 32) : State :=
  if !bit v 31 then s else if fld v 15 14 == 0 then s.pathCommit p (fld v 13 0) else s.pathCopy p (fld v 13 0)

/-- `SEC_KEYOP` written (Table 07-10). -/
def State.writeKeyop (s : State) (p : Path) (v : BitVec 32) : State :=
  let d := fld v 13 0
  if !bit v 31 then s
  else s.keyOp p d fun s =>
    match fld v 30 28 with
    | 0 => s.installKey (kekOf p) d (s.stagedBlob p)
    | 1 => s.destroyKey d (some p) none
    | 2 => s.activateKek 0
    | _ => s.activateKek 4

/-- `RGL_COMMIT` written (Table 10-6). -/
def State.writeRglCommit (s : State) (p : Path) (v : BitVec 32) : State :=
  if !bit v 31 then s else if bit v 30 then s.rglCopy p else s.rglCommitFrom p

/-- `CHn_INJCTL` written (Table 09-9): the enable first, then `GO`. -/
def State.writeInjctl (s : State) (n : Nat) (v : BitVec 32) : State :=
  let s := s.writeInjEnable n (fld v 26 25) (bit v 27)
  if !bit v 31 || fld v 30 29 == 3 then s else s.startInject n (fld v 30 29)

/-- `CHn_MAINT` written (Table 08-18). -/
def State.writeMaint (s : State) (n : Nat) (v : BitVec 32) : State :=
  if !bit v 31 then s
  else
    match fld v 30 29 with
    | 0 => s.maintSoft n
    | 1 => s.maintRetire n
    | 2 => s.maintList n
    | _ => s

/-- `CHn_SCHED` written: `LOWM` is at most `HIWM` − 8 (Table 08-11). -/
def State.writeSched (s : State) (n : Nat) (v : BitVec 32) : State :=
  if fld v 25 20 + 8 > fld v 31 26 then s.badValue (R.CH_SCHED n) else s.putReg (R.CH_SCHED n) v

/-- A register of a port group or lane written. -/
def State.writeGroupReg (s : State) (base off g l k : Nat) (v : BitVec 32) : State :=
  if base == R.PG_SDCTL 0 then s.writeSdctl g v
  else if base == R.PG_LN_TXEQ 0 0 then s.writeTxeq g l v
  else if base == R.PG_LN_RXEQ 0 0 then s.writeRxeq g l v
  else if base == R.PG_LN_DFE 0 0 0 then s.writeDfe g l k v
  else if base == R.PG_LN_PRBSCTL 0 0 then s.writePrbsctl g l v false
  else if base == R.PG_LN_MARGCTL 0 0 then s.writeMargctl g l v
  else if base == R.PG_LN_DETECT 0 0 then s.writeDetect g l v
  else if base == R.PG_LKCTL 0 then s.writeLkctl g v
  else if base == R.PG_CXLCFG 0 then s.writeCxlcfg g v
  else s.putReg off v

/-- A register of a region's other units written: channels, slices, egress slots, counter banks. `u` is the unit's number among
four a region, `i` the region. -/
def State.writeUnitReg (s : State) (base off i u k : Nat) (v : BitVec 32) : State :=
  if base == R.CH_SCHED 0 then s.writeSched u v
  else if base == R.CH_REFCTL 0 then (s.putReg off v).rateSync u
  else if base == R.CH_MAINT 0 then (s.writeMaint u v).endRetire u
  else if base == R.CH_INJCTL 0 then s.writeInjctl u v
  else if base == R.CH_MARK 0 0 then (s.writeMark u k v).endRetire u
  else if base == R.KS_OPCTL 0 then (if bit v 31 then s.startClean u (fld v 30 29) (bit v 28) (fld v 13 0) else s)
  else if base == R.KS_WAYDIS 0 then s.writeWays u (fld v 15 0)
  else if base == R.SH_CTL 0 || base == R.SH_BKT 0 0 then s.writeShaper off v
  else if base == R.TR_CTL 0 then s.writeTrctl i v
  else if base == R.TR_SEED 0 then s.writeSeed i v
  else s.putReg off v

/-- A counter's control registers written; a fixed counter's are read-only (R364). -/
def State.writeCtrReg (s : State) (off bank k : Nat) (filt : Bool) (v : BitVec 32) : State :=
  if k ≥ bankOpen bank then s else if filt then s.putReg off v else s.writeCtl bank k v

/-- A register of the chip's own blocks written. -/
def State.writeChipReg (s : State) (p : Path) (base off k : Nat) (v : BitVec 32) : State :=
  if base == R.CHIP_CLAIMSTAT then (if bit v 31 then s.clr R.CHIP_CLAIMSTAT_COUNT else s).putReg off v
  else if base == R.CHIP_DOMCOMMIT then s.writeDomcommit p v
  else if base == R.SEC_KEYOP then s.writeKeyop p v
  else if base == R.RGL_COMMIT then s.writeRglCommit p v
  else if base == R.CHIP_TMCTL then s.writeTmctl v
  else if base == R.CHIP_TMREL 0 then s.writeTmrel k v
  else if base == R.CHIP_PEERLIM 0 then s.writePeerlim k v
  else if base == R.CHIP_RSTCTL then s.writeRstctl v
  else if base == R.PS_CTL then (s.putReg off v).limitSync
  else if base == R.CF_CTL then s.writeCfctl v
  else if base == R.CF_STAT then s.writeCause off v 0 29
  else if base == R.MG_THSTAT then s.writeCause off v 1 31
  else if base == R.MG_LOCK then s.writeLock v
  else if base == R.PL_CTL then s.writePlctl v
  else if base == R.CHIP_HALCTL then s.writeHalctl v
  else if base == R.CR_CQ 0 then (s.putReg off v).cqSync k
  else if base == R.FD_CMD then s.writeFdcmd v
  else if base == R.FD_COMMIT then s.writeFdcommit v
  else if base == R.FD_OTPCTL then s.writeOtp v
  else if onFeedDie off then s.feedWrite fun s => s.putReg off v
  else s.putReg (copyOff p off) v

/-- What a whole write of a register does, its value legal and its locked fields kept. -/
def State.regAct (s : State) (p : Path) (off : Nat) (v : BitVec 32) : State :=
  match regRow off with
  | none => s.badValue off
  | some r =>
    let ix := dimIndices r.dims (off - r.base)
    let i := ix.getD 0 0
    let u := 4 * i + ix.getD 1 0
    if r.base == R.CHIP_C_CTL 0 then s.writeCtrReg off 4 i false v
    else if r.base == R.CHIP_C_FILT 0 then s.writeCtrReg off 4 i true v
    else if r.base == R.RC_C_CTL 0 0 then s.writeCtrReg off i (ix.getD 1 0) false v
    else if r.base == R.RC_C_FILT 0 0 then s.writeCtrReg off i (ix.getD 1 0) true v
    else if r.base < 0x1000000 then s.writeChipReg p r.base off i v
    else if r.base < 0x1100000 then s.writeGroupReg r.base off u (ix.getD 2 0) (ix.getD 3 0) v
    else s.writeUnitReg r.base off i u (ix.getD 2 0) v

/-- Whether a register's own write decides what it refuses: its value is checked there. -/
def ownCheck (off : Nat) : Bool :=
  off == R.CHIP_TMCTL || (decide (R.CHIP_TMREL 0 ≤ off) && decide (off ≤ R.CHIP_TMREL 15)) || off == R.MG_LOCK ||
    (decide (R.CHIP_PEERLIM 0 ≤ off) && decide (off ≤ R.CHIP_PEERLIM 15))

/-- A 4 B write of the control window through a path (R472, R494). An offset that no table assigns records BAD_VALUE, and so does
the domain table's window (R40). -/
def State.regWrite (s : State) (p : Path) (off : Nat) (v : BitVec 32) : State :=
  if (regRow off).isNone || ownCheck off then s.viaPath p off fun s => s.regAct p off v
  else s.writing p off v fun v s => s.regAct p off v

/-! ### Reads -/

/-- Bytes of the identity fuses as a word. -/
def fuseWord (i : Nat) : BitVec 32 := ofLe 32 ((List.range 4).map fun k => Config.identity (4 * i + k))

/-- `SEC_KEYMAPk`: the states of sixteen slots (Table 07-13). -/
def State.keyMap (s : State) (k : Nat) : BitVec 32 :=
  (List.range 16).foldl (fun (v : BitVec 32) i => setFld v (2 * i + 1) (2 * i) (s.slot (16 * k + i)).st) 0

/-- The read of a counter's word: the low word latches the high one (R365). -/
def State.ctrWord (s : State) (off bank k : Nat) (low snap : Bool) : BitVec 32 × State :=
  if low then s.readCounter bank k snap else (s.reg off, s)

/-- What a read of an assigned register returns, and what it leaves. -/
def State.regValue (s : State) (p : Path) (r : RegRow) (off : Nat) : BitVec 32 × State :=
  let ix := dimIndices r.dims (off - r.base)
  let i := ix.getD 0 0
  let j := ix.getD 1 0
  let b := r.base
  if b == R.CHIP_GTCLO then
    (BitVec.ofNat 32 s.gtc, s.setReg R.CHIP_GTCHI (BitVec.ofNat 32 (s.gtc / 2 ^ 32)))
  else if b == R.MG_SERIALLO then (fuseWord 0, s)
  else if b == R.MG_SERIALHI then (fuseWord 1, s)
  else if b == R.SEC_KEYSTAGE 0 then (0, s)
  else if b == R.SEC_KEYMAP 0 then (s.keyMap i, s)
  else if b == R.CHIP_C_LO 0 then s.ctrWord off 4 i true false
  else if b == R.CHIP_C_SLO 0 then s.ctrWord off 4 i true true
  else if b == R.RC_C_LO 0 0 then s.ctrWord off i j true false
  else if b == R.RC_C_SLO 0 0 then s.ctrWord off i j true true
  else if b == R.TR_DATA 0 0 then
    if j == 0 then s.readTrace i else ((s.ctr.latched.get i).extractLsb' (32 * j) 32, s)
  else if b == R.CF_REC 0 then if i == 0 then s.readRecord else (s.flt.latched.extractLsb' (32 * i) 32, s)
  else if b == R.PG_LN_PRBSERR 0 0 then
    let s := s.latchPrbs (4 * i + j) (ix.getD 2 0)
    (s.reg off, s)
  else if b == R.CH_REFSTAT 0 then (setFld (s.reg off) 30 30 (b2n (s.sameBank (4 * i + j))), s)
  else if b == R.CH_PATROLSTAT 0 then (setFld (s.reg off) 30 30 (b2n (s.patrolPaused (4 * i + j))), s)
  else if b == R.PL_STAT then
    let f := R.PL_STAT_PEND
    (setFld (s.reg off) f.hi f.lo (b2n s.peatPending), s)
  else if b == R.RGL_STAT then
    (setFld (setFld (s.reg off) 31 31 (s.rd (R.RGL_STAT_BUSY.on p))) 23 16 (s.rd (R.RGL_STAT_STATUS.on p)), s)
  else (s.reg (copyOff p off), s)

/-- A 4 B read of the control window (R40, R419, R472). -/
def State.regRead (s : State) (p : Path) (off : Nat) : BitVec 32 × State :=
  if onFeedDie off && s.flag R.FD_LINK_LOST then (0, s)
  else
    match regRow off with
    | some r => s.regValue p r off
    | none =>
      if off / 2 ^ 20 == 1 && off % 4 == 0 then ((s.entry (off % 2 ^ 20 / 64)).extractLsb' (off % 64 * 8) 32, s) else (0, s)

/-! ### REGISTER_WRITE -/

/-- A write of the control window of some width (R471): 8 B as two words, the lower first; a narrow or misaligned one discarded. -/
def State.winWrite (s : State) (p : Path) (off : Nat) (size : AccSize) (v : BitVec 64) : State :=
  match size with
  | .b1 | .b2 => s.viaPath p off fun s => s.badValue off
  | .b4 =>
    if off % 4 == 0 then s.regWrite p off (v.setWidth 32) else s.viaPath p off fun s => s.badValue off
  | .b8 =>
    if off % 8 == 0 then (s.regWrite p off (v.setWidth 32)).regWrite p (off + 4) ((v >>> 32).setWidth 32)
    else s.viaPath p off fun s => s.badValue off

/-- The fields of a head's port DVSEC, offsets +0x0C, +0x10 and +0x14 (Table 13-3): numbers, tolerance, and committed paced credits. -/
def State.dvsec (s : State) (p : Nat) : List (BitVec 32) :=
  [setFld (setFld (setFld 0 31 27 p) 26 23 s.devNum) 22 22 (b2n (s.hdmDb p)),
    setFld (setFld 0 12 10 (s.head p).tolScale) 9 0 (s.head p).tolVal,
    setFld (setFld 0 7 4 (s.rd (R.RGL_PACE_PQW p).com)) 3 0 (s.rd (R.RGL_PACE_PQR p).com)]

/-- The tolerance register of a head's port DVSEC written (Table 13-3); it applies from the next decision (R312). -/
def State.writeTolerance (s : State) (port : Nat) (v : BitVec 32) : State :=
  if s.boot.hold || !(s.place port).on || (s.head port).flit == 0 then s
  else if fld v 12 10 > 5 then s.badValue 0x10
  else (s.updHead port fun h => { h with tolScale := fld v 12 10, tolVal := fld v 9 0 }).limitSync

/-- REGISTER_WRITE (R494). -/
def execRegisterWrite (p : Path) (target : RegTarget) (size : AccSize) (val : BitVec 64) (s : State) : Answer :=
  .next (match target with
  | .window off => s.winWrite p off.toNat size val
  | .tolerance port => if size == AccSize.b4 then s.writeTolerance port (val.setWidth 32) else s).finish

end Sys2Proof.Machine
end

