-- ==== Sys2Proof/Machine/GriharMem.lean ====
section
/-!
DEFINITION. Loads, stores and atomics of a Grihar core (R318, R319): data SRAM, policy scratch, and the control window for ROM
programs.
-/
namespace Sys2Proof.Machine

/-! ### Where an address lies -/

/-- The spaces of Table 14-3 as a program of some privilege finds them. -/
inductive GSpace where
  | own (a : Nat)
  | scratch (a : Nat)
  | window (off : Nat)
  | bad (cause : Nat)
deriving DecidableEq, Repr

/-- Whether a program may use a byte of the scratch: a host program within its window only (Table 14-12). -/
def GCore.mayScratch (c : GCore) (a : Nat) : Bool :=
  c.may fun cap => decide (4096 * capN cap 39 36 ≤ a) && decide (a < 4096 * (capN cap 39 36 + capN cap 43 40))

/-- The space of an aligned address: ADDR where there is none, CAP outside the scratch window, PRIV for the control window
under host privilege. -/
def GCore.space (c : GCore) (a : Nat) : GSpace :=
  if a < dataEnd then .own a
  else if 0x10000000 ≤ a && a < 0x10800000 then
    if c.mayScratch (a - 0x10000000) then .scratch (a - 0x10000000) else .bad 0x3
  else if 0x20000000 ≤ a && a < 0x30000000 then (if c.host then .bad 0x2 else .window (a - 0x20000000))
  else .bad 0x5

/-- The effective address. -/
def State.gAddr (s : State) (k : Nat) (w : BitVec 32) : Nat := (s.g k (gRa w) + gImm12 w).toNat

/-! ### Bytes of a word -/

/-- `n` bytes at an address of a memory of 8-byte words. -/
def wordPart (t : Tab (BitVec 64)) (a n : Nat) : BitVec 64 :=
  let x := t.get (a / 8) >>> (8 * (a % 8))
  BitVec.ofNat 64 (x.toNat % 2 ^ (8 * n))

/-- The memory with `n` bytes at an address taken from a value. -/
def setPart (t : Tab (BitVec 64)) (a n : Nat) (v : BitVec 64) : Tab (BitVec 64) :=
  t.put (a / 8) (setFld (t.get (a / 8)) (8 * (a % 8) + 8 * n - 1) (8 * (a % 8)) (v.toNat % 2 ^ (8 * n)))

/-- The scratch with a word changed. -/
def State.setScratch (s : State) (t : Tab (BitVec 64)) : State := { s with core := { s.core with scratch := t } }

/-! ### Loads -/

/-- A load of `n` bytes; `mem` marks an uncorrectable SRAM word. -/
def State.gLoad (s : State) (k : Nat) (w : BitVec 32) (n : Nat) (mem : Bool) : GRes :=
  let a := s.gAddr k w
  if a % n != 0 then .fault 0x4 a
  else
    match (s.gcore k).space a with
    | .bad cause => .fault cause a
    | .own a => if mem then .fault 0x6 a else s.result k (gRd w) (wordPart (s.gcore k).dmem a n) 3
    | .scratch i => s.onMain k (.fault 0xA a) fun s =>
        if mem then .fault 0x6 a else s.result k (gRd w) (wordPart s.core.scratch i n) 30
    | .window off =>
      if n != 4 then .fault 0x4 a
      else s.onMain k (.fault 0xA a) fun s =>
        let (v, s) := s.regRead .rom off
        s.result k (gRd w) (v.setWidth 64) 300

/-- LDD (R318). -/
def execLdd (core : Fin 9) (w : BitVec 32) (upset : Bool) (mem : Bool) (s : State) : Answer :=
  s.gRun core w upset 0x10 fun s => s.gLoad core w 8 mem
/-- LDW (R318). -/
def execLdw (core : Fin 9) (w : BitVec 32) (upset : Bool) (mem : Bool) (s : State) : Answer :=
  s.gRun core w upset 0x11 fun s => s.gLoad core w 4 mem
/-- LDB (R318). -/
def execLdb (core : Fin 9) (w : BitVec 32) (upset : Bool) (mem : Bool) (s : State) : Answer :=
  s.gRun core w upset 0x12 fun s => s.gLoad core w 1 mem

/-! ### Stores -/

/-- A store of a control-window register by a ROM program. One that resets the main die leaves the core as the reset does. -/
def State.gStoreReg (s : State) (k off : Nat) (v : BitVec 32) : GRes :=
  let s := (s.regWrite .rom off v).finish
  if s.coreSt k == 1 && !s.boot.hold then .go s 1 none else .own s

/-- A store of `n` bytes. -/
def State.gStore (s : State) (k : Nat) (w : BitVec 32) (n : Nat) (mem : Bool) : GRes :=
  let a := s.gAddr k w
  let v := s.g k (gRd w)
  if a % n != 0 then .fault 0x4 a
  else
    match (s.gcore k).space a with
    | .bad cause => .fault cause a
    | .own a => if mem then .fault 0x6 a else .go (s.updCore k fun c => { c with dmem := setPart c.dmem a n v }) 1 none
    | .scratch i => s.onMain k (.fault 0xA a) fun s =>
        if mem then .fault 0x6 a else .go (s.setScratch (setPart s.core.scratch i n v)) 1 none
    | .window off =>
      if n != 4 then .fault 0x4 a
      else s.onMain k (.fault 0xA a) fun s => s.gStoreReg k off (v.setWidth 32)

/-- STD (R318). -/
def execStd (core : Fin 9) (w : BitVec 32) (upset : Bool) (mem : Bool) (s : State) : Answer :=
  s.gRun core w upset 0x13 fun s => s.gStore core w 8 mem
/-- STW (R318). -/
def execStw (core : Fin 9) (w : BitVec 32) (upset : Bool) (mem : Bool) (s : State) : Answer :=
  s.gRun core w upset 0x14 fun s => s.gStore core w 4 mem
/-- STB (R318). -/
def execStb (core : Fin 9) (w : BitVec 32) (upset : Bool) (mem : Bool) (s : State) : Answer :=
  s.gRun core w upset 0x15 fun s => s.gStore core w 1 mem

/-! ### Atomics -/

/-- An atomic on the scratch word at ra (R319): `f` gives the new word from the old. -/
def State.gAtomic (s : State) (k : Nat) (w : BitVec 32) (mem : Bool) (f : BitVec 64 → BitVec 64) : GRes :=
  let a := (s.g k (gRa w)).toNat
  if a % 8 != 0 then .fault 0x4 a
  else if a < 0x10000000 || a ≥ 0x10800000 then .fault 0x5 a
  else if !(s.gcore k).mayScratch (a - 0x10000000) then .fault 0x3 a
  else s.onMain k (.fault 0xA a) fun s =>
    if mem then .fault 0x6 a
    else
      let i := (a - 0x10000000) / 8
      let old := s.core.scratch.get i
      (s.setScratch (s.core.scratch.put i (f old))).result k (gRd w) old 40

/-- AADD (R319): the word grows by rb. -/
def execAadd (core : Fin 9) (w : BitVec 32) (upset : Bool) (mem : Bool) (s : State) : Answer :=
  s.gRun core w upset 0x16 fun s => let b := s.g core (gRb w); s.gAtomic core w mem fun old => old + b
/-- CAS (R319): the word becomes rb where it equals rd. -/
def execCas (core : Fin 9) (w : BitVec 32) (upset : Bool) (mem : Bool) (s : State) : Answer :=
  s.gRun core w upset 0x17 fun s =>
    let b := s.g core (gRb w)
    let d := s.g core (gRd w)
    s.gAtomic core w mem fun old => if old = d then b else old

end Sys2Proof.Machine
end

