-- ==== Sys2Proof/Machine/Mgmt.lean ====
section
/-!
DEFINITION. Sideband management and security (chapter 22): the commands of Table 22-1, SMB_ALERT_N, the junction sensors, the TAP,
SPDM with its key deliveries, IDE_KM and the locks.
-/
namespace Sys2Proof.Machine

/-! ### The sideband targets -/

/-- The 7-bit address of the targets (R457). -/
def State.sbAddr (s : State) : Nat := if s.rd R.MG_SBCTL_SMBADDR == 0 then 0x60 + s.devNum else s.rd R.MG_SBCTL_SMBADDR

/-- Whether a command is taken at all: its target enabled, and its PEC valid where one is required (R457, R458). -/
def State.sbTakes (s : State) (f : SbFrom) : Bool :=
  if f.i3c then s.flag R.MG_SBCTL_I3CEN else s.flag R.MG_SBCTL_SMBEN && (f.pec || !s.flag R.MG_SBCTL_PECREQ)

/-- A sideband command: one that is not taken gets no response. -/
def State.sb (s : State) (f : SbFrom) (g : State → Nat × List Byte × State) : State :=
  if s.sbTakes f then
    let (st, out, s) := g s
    s.send (.sideband st out)
  else s

/-- Status codes of Table 22-2. -/
def sbBadCmd : Nat := 1
def sbBadLen : Nat := 2
def sbNotDelivered : Nat := 3
def sbRetry : Nat := 4
def sbStale : Nat := 5

/-- A command without input. -/
def State.sbPlain (s : State) (f : SbFrom) (args : List Byte) (out : State → List Byte) : State :=
  s.sb f fun s => if args.isEmpty then (0, out s, s) else (sbBadLen, [], s)

/-- Registers as the sideband returns them. -/
def State.sbWords (s : State) (offs : List Nat) : List Byte := (offs.map fun o => leBytes 4 (s.reg o)).flatten

/-- The feed die's copy of a register: 0 while its link is lost (R419). -/
def State.feedCopyOf (s : State) (off : Nat) : List Byte := leBytes 4 (if s.flag R.FD_LINK_LOST then 0 else s.reg off)

/-- GET_ID (R458). -/
def execGetId (f : SbFrom) (args : List Byte) (s : State) : Answer :=
  .next (s.sbPlain f args fun s =>
    [0x8E, 0x1F, 0x28, 0x01, byteOf (s.rd R.MG_ID_REV), byteOf s.devNum] ++ leBytes 4 (fuseWord 0) ++ leBytes 4 (fuseWord 1) ++
      leBytes 4 (fuseWord 2) ++ List.replicate 6 0)

/-- GET_STATUS (R458). -/
def execGetStatus (f : SbFrom) (args : List Byte) (s : State) : Answer :=
  .next (s.sbPlain f args fun s => s.sbWords [R.CF_STAT, R.CHIP_BOOTSTAT, R.PS_STAT] ++ s.feedCopyOf R.FD_STAT)

/-- GET_TELEM (R458). -/
def execGetTelem (f : SbFrom) (args : List Byte) (s : State) : Answer :=
  .next (s.sbPlain f args fun s =>
    s.sbWords [R.MG_THSTAT, R.MG_THERM, R.MG_PWR 0, R.MG_PWR 1, R.MG_PWR 2, R.MG_PWR 3] ++ s.feedCopyOf R.FD_TELA ++
      s.feedCopyOf R.FD_TELB)

/-! ### The bridge (R459, R460) -/

/-- Whether the device is in Banked or Cinder. -/
def State.asleep (s : State) : Bool := decide (s.rd R.PS_STAT_STATE ≥ 2)

/-- Whether the chip control ring answers: not while the main die is held in reset or its loss was the ring's (Table 17-2). -/
def State.ringUp (s : State) : Bool := !s.boot.hold && !(s.lost && s.rd R.CF_STAT_CAUSE == 5)

/-- The record of an index from the always-on store, which is a stale copy (R459). -/
def State.storeRecord (s : State) (idx : Nat) : Nat × List Byte :=
  let i := if idx == 2 ^ 32 - 1 then (s.flt.store.head?.map (·.index)).getD (2 ^ 32) else idx
  match s.flt.store.find? fun r => r.index == i with
  | some r => (sbStale, r.bytes)
  | none => (sbNotDelivered, [])

/-- The record of an index from the chip ring, or from the store where the ring does not answer. -/
def State.sbRecord (s : State) (idx : Nat) : Nat × List Byte :=
  if s.ringUp && !s.asleep then
    (0, s.recordBytes (if idx == 2 ^ 32 - 1 then s.rd R.CF_NEXT_NEXT - 1 else idx))
  else s.storeRecord idx

/-- GET_RECORD (R459): a 4-byte index; all ones names the newest. -/
def execGetRecord (f : SbFrom) (args : List Byte) (s : State) : Answer :=
  .next (s.sb f fun s =>
    if args.length != 4 then (sbBadLen, [], s)
    else let (st, out) := s.sbRecord (ofLe 32 args).toNat; (st, out, s))

/-- The words of a bridge access. -/
def bridgeOffs (off n : Nat) : List Nat := (List.range n).map fun i => off + 4 * i

/-- Whether the bridge passes an access of some words: 0, or the status that answers it; with whether it wakes the device. -/
def State.bridgeStatus (s : State) (offs : List Nat) : Nat :=
  if offs.all servedAsleep then 0
  else if !s.ringUp then sbNotDelivered
  else if s.asleep then sbRetry
  else 0

/-- The words of a READ, in ascending order. -/
def State.bridgeRead (s : State) (offs : List Nat) : List Byte × State :=
  offs.foldl (fun (a : List Byte × State) o =>
    let (v, s) := (a.2.wakeFor .sideband o).regRead .sideband o
    (a.1 ++ leBytes 4 v, s)) ([], s)

/-- READ (R460). -/
def execRead (f : SbFrom) (args : List Byte) (s : State) : Answer :=
  let off := (ofLe 32 (args.take 4)).toNat
  let n := (args.getD 4 0).toNat
  let offs := bridgeOffs off n
  .next (s.sb f fun s =>
    if args.length != 5 || n == 0 || n > 32 || off % 4 != 0 || off + 4 * n > 2 ^ 28 then (sbBadLen, [], s)
    else
      let st := s.bridgeStatus offs
      if st == sbRetry then (st, [], s.wake 4)
      else if st != 0 then (st, [], s)
      else let (out, s) := s.bridgeRead offs; (0, out, s))

/-- One word of a WRITE; what the island serves acts while the main die is held in reset too. -/
def State.bridgeWrite (s : State) (off : Nat) (v : BitVec 32) : State :=
  if !s.boot.hold then s.regWrite .sideband off v
  else if s.pathShut .sideband then s.lockViolation off
  else s.regAct .sideband off v

/-- WRITE (R460). -/
def execWrite (f : SbFrom) (args : List Byte) (s : State) : Answer :=
  let off := (ofLe 32 (args.take 4)).toNat
  let n := (args.length - 4) / 4
  let offs := bridgeOffs off n
  .next (s.sb f fun s =>
    if args.length % 4 != 0 || n == 0 || n > 32 || off % 4 != 0 || off + 4 * n > 2 ^ 28 then (sbBadLen, [], s)
    else
      let st := s.bridgeStatus offs
      if st == sbRetry then (st, [], s.wake 4)
      else if st != 0 then (st, [], s)
      else
        let s := (List.range n).foldl (fun s i => s.bridgeWrite (off + 4 * i) (ofLe 32 ((args.drop (4 + 4 * i)).take 4))) s
        (0, [], s.finish))

/-- RING_ANSWER_TIMEOUT (R459, R460). -/
def execRingAnswerTimeout (f : SbFrom) (acc : SbAccess) (s : State) : Answer :=
  .next (s.sb f fun s =>
    match acc with
    | .record i => let (st, out) := s.storeRecord i.toNat; (st, out, s)
    | .read | .write => (sbNotDelivered, [], s))

/-! ### Resets and the bus -/

/-- RESET, with what follows its kind: the confirmation byte. -/
def State.sbReset (s : State) (f : SbFrom) (rest : List Byte) (act : State → State) : State :=
  s.sb f fun s =>
    if rest.length > 1 then (sbBadLen, [], s)
    else if rest == [0xA5] then (0, [], act s)
    else (sbBadCmd, [], s)

/-- SIDEBAND_RESET_ORDERLY (R459). -/
def execSidebandResetOrderly (f : SbFrom) (rest : List Byte) (s : State) : Answer := .next (s.sbReset f rest State.askOrderly)
/-- SIDEBAND_RESET_IMMEDIATE (R389). -/
def execSidebandResetImmediate (f : SbFrom) (rest : List Byte) (s : State) : Answer := .next (s.sbReset f rest State.askImmediate)

/-- SMBUS_TIMEOUT (R457): the command on the bus is given up; none has acted before its end. -/
def execSmbusTimeout (s : State) : Answer := .next s

/-- I3C_ADDRESS_ASSIGNMENT (R457): SETDASA names the static address, ENTDAA does not. -/
def execI3cAddressAssignment (setdasa : Option (BitVec 7)) (addr : BitVec 7) (s : State) : Answer :=
  .next (if s.flag R.MG_SBCTL_I3CEN && setdasa.all fun a => a.toNat == s.sbAddr then
    { s with mgmt := { s.mgmt with i3c := some addr.toNat } }
  else s)

/-! ### SMB_ALERT_N (R461) -/

/-- The causes pending: `NEWREC`, the thermal warning, PFW. -/
def State.alertCauses (s : State) : BitVec 3 :=
  BitVec.ofNat 3 (s.rd R.CF_STAT_NEWREC + 2 * s.rd R.MG_THSTAT_WARN + 4 * s.rd R.FD_STAT_PFW)

/-- Whether SMB_ALERT_N is asserted: MFP2 is its, and an enabled cause has not been released. -/
def State.smbAlert (s : State) : Bool :=
  s.claim.mfp.get 2 == 0x22 && (BitVec.ofNat 3 (s.rd R.MG_SBCTL_ALERTMASK) &&& s.alertCauses &&& ~~~s.mgmt.acked) != 0

/-- The output released until a new cause arises. -/
def State.releaseAlert (s : State) : State := { s with mgmt := { s.mgmt with acked := s.alertCauses } }

/-- CLEAR_ALERT (R461). -/
def execClearAlert (f : SbFrom) (args : List Byte) (s : State) : Answer :=
  .next (s.sb f fun s => if args.isEmpty then (0, [], s.releaseAlert) else (sbBadLen, [], s))

/-- ALERT_RESPONSE (R461): the target that asserts the output answers with its address. -/
def execAlertResponse (s : State) : Answer :=
  .next (if s.flag R.MG_SBCTL_SMBEN && s.smbAlert then s.releaseAlert.send (.sideband 0 [byteOf s.sbAddr]) else s)

/-! ### Sensors (R462) -/

/-- SENSOR_POLL: the regions' temperatures, °C + 40 in bytes, and the rails' powers. -/
def execSensorPoll (temps : BitVec 32) (pwr : BitVec 64) (s : State) : Answer :=
  let t := (List.range 4).map fun r => fld temps (8 * r + 7) (8 * r)
  let top := t.foldl max 0
  let s := (s.setReg R.MG_THERM temps).wr R.MG_THSTAT_TMAX top
  let s := (List.range 4).foldl (fun s k => s.wr (R.MG_PWR_PWR k) (fld pwr (16 * k + 15) (16 * k))) s
  .next (if top > s.rd R.MG_THCTL_THWARN + 40 then s.set1 R.MG_THSTAT_WARN else s)

/-! ### The TAP (R463, R464) -/

/-- TAP_INSTRUCTION. -/
def execTapInstruction (ins : TapInstr) (s : State) : Answer :=
  let s' : State := { s with mgmt := { s.mgmt with tap := ins } }
  .next (if (s'.tapDrives && s.flag R.CHIP_BOOTSTAT_READY) || (ins == .krovvan && s.flag R.MG_LOCK_TAPLK) then
    ({ s with mgmt := { s.mgmt with tap := .bypass } } : State).lockViolation 0
  else s')

/-! ### SPDM (R465, R466) -/

/-- What a head's DOE does: nothing before `READY` or without a link. -/
def State.doe (s : State) (p : Nat) (f : State → Bool × List Byte × State) : State :=
  if !s.portOpen p || !s.flag R.CHIP_BOOTSTAT_READY || s.boot.hold then s
  else
    let (ok, out, s) := f (s.hostFlit p)
    s.send (.spdm p ok out)

/-- A request of a secured session; outside one it is answered ERROR. -/
def State.inSession (s : State) (p : Nat) (f : State → Bool × List Byte × State) : Bool × List Byte × State :=
  if s.mgmt.secured.contains p then f s else (false, [], s)

/-- A response that the device's fuses, its entropy source and the SPDM standard determine, and this model leaves free. -/
def State.spdmFree (s : State) : Bool × List Byte × State :=
  let (n, s) := s.fresh
  (true, leBytes 64 (Config.free n), s)

/-- The answer to an SPDM request. -/
def State.spdm (s : State) (p : Nat) (r : SpdmReq) : Bool × List Byte × State :=
  match r with
  | .version | .capabilities | .algorithms | .digests | .challenge _ => s.spdmFree
  | .certificate k =>
    if k.val == 0 then s.spdmFree
    else if (s.mgmt.certs.get k).isEmpty then (false, [], s) else (true, s.mgmt.certs.get k, s)
  | .measurements i => if i.val == 4 then (true, leBytes 4 (s.reg R.MG_LOCK), s) else s.spdmFree
  | .keyExchange => ({ s with mgmt := { s.mgmt with opening := p :: s.mgmt.opening.filter (· != p) } } : State).spdmFree
  | .finish good =>
    if !s.mgmt.opening.contains p then (false, [], s)
    else
      let m := { s.mgmt with opening := s.mgmt.opening.filter (· != p) }
      (good, [], { s with mgmt := if good then { m with secured := p :: m.secured.filter (· != p) } else m })
  | .heartbeat => s.inSession p fun s => (true, [], s)
  | .endSession =>
    s.inSession p fun s => (true, [], { s with mgmt := { s.mgmt with secured := s.mgmt.secured.filter (· != p) } })

/-- SPDM_REQUEST (R465). -/
def execSpdmRequest (port : Fin 32) (req : SpdmReq) (s : State) : Answer := .next (s.doe port fun s => s.spdm port req)

/-- SET_KEK (R466): the pending DK6 or DK7. -/
def execSetKek (port : Fin 32) (selector : BitVec 16) (key : BitVec 256) (s : State) : Answer :=
  .next (s.doe port fun s => s.inSession port fun s =>
    if selector.toNat > 1 then (false, [], s)
    else (true, [], { s with eng := { s.eng with dk := s.eng.dk.put (6 + selector.toNat) (some key) } }))

/-- SET_CERTIFICATE (R465): slots 1 to 7, unless `SECLK` is set. -/
def execSetCertificate (port : Fin 32) (slot : Fin 8) (chain : List Byte) (s : State) : Answer :=
  .next (s.doe port fun s => s.inSession port fun s =>
    if slot.val == 0 || s.flag R.MG_LOCK_SECLK then (false, [], s)
    else (true, [], { s with mgmt := { s.mgmt with certs := s.mgmt.certs.put slot chain } }))

/-- SPDM_KEY_DELIVERY (R153): the answer carries the install's status. This path has neither `SEC_KEYOP.DOMAIN` nor a mailbox domain for
check 3 of Table 07-8: the blob, its first byte lowest, names its own domain, and the check fails for a number that is no domain's
(DESIGN CHOICE, assumption 124). -/
def execSpdmKeyDelivery (port : Fin 32) (blob : BitVec 960) (s : State) : Answer :=
  .next (s.doe port fun s => s.inSession port fun s =>
    let b := leBytes 120 blob
    let (st, s) := s.installKey (some 0xFF) ((ofLe 16 ((b.drop 8).take 2)).toNat % 16384) b
    (st == 0, [byteOf st], s)).finish

/-- IDE_KM (R313): the key of a head's CXL.cachemem stream, or of its selective stream for CXL.io. -/
def execIdeKm (port : Fin 32) (io : Bool) (key : BitVec 256) (s : State) : Answer :=
  .next (s.doe port fun s => s.inSession port fun s =>
    (true, [], s.updHead port fun h =>
      if io then { h with ide := 1, ideIo := some key } else { h with ide := 1, ideKey := some key }))

/-! ### Locks -/

/-- LOCK_WRITE (R467). -/
def execLockWrite (p : Path) (val : BitVec 32) (s : State) : Answer := .next (s.viaPath p R.MG_LOCK fun s => s.writeLock val)

end Sys2Proof.Machine
end

