-- ==== Sys2Proof/Machine/Dispatch.lean ====
section
/-!
DEFINITION. What each command does: one arm per constructor, each a call of its meaning (R494 and the rule each names).
-/
namespace Sys2Proof.Machine

/-- The effect of a command on the state but for its queue. -/
def exec (i : Instr) (s : State) : Host.Outcome State Fault Refusal :=
  match i with
  | .hostRead port tag hpa mv extended offered upset => Sys2Proof.Machine.execHostRead port tag hpa mv extended offered upset s
  | .hostWrite port tag hpa mv offered poison data upset => Sys2Proof.Machine.execHostWrite port tag hpa mv offered poison data upset s
  | .hostNarrowWrite port tag hpa mv offered be poison data upset => Sys2Proof.Machine.execHostNarrowWrite port tag hpa mv offered be poison data upset s
  | .memspecrd port hpa offered => Sys2Proof.Machine.execMemspecrd port hpa offered s
  | .backingGrant => Sys2Proof.Machine.execBackingGrant s
  | .admissionGrant point => Sys2Proof.Machine.execAdmissionGrant point s
  | .windowStart => Sys2Proof.Machine.execWindowStart s
  | .poolRebalance => Sys2Proof.Machine.execPoolRebalance s
  | .egressSend slot => Sys2Proof.Machine.execEgressSend slot s
  | .sample slot => Sys2Proof.Machine.execSample slot s
  | .registerWrite p target size val => Sys2Proof.Machine.execRegisterWrite p target size val s
  | .domainTableWrite p off val => Sys2Proof.Machine.execDomainTableWrite p off val s
  | .domainCommit p dom => Sys2Proof.Machine.execDomainCommit p dom s
  | .domainCopyToStaging p dom => Sys2Proof.Machine.execDomainCopyToStaging p dom s
  | .domainCommitComplete dom => Sys2Proof.Machine.execDomainCommitComplete dom s
  | .addCapacityEventSend port dom => Sys2Proof.Machine.execAddCapacityEventSend port dom s
  | .releaseCandidate => Sys2Proof.Machine.execReleaseCandidate s
  | .tmrelWrite p k val => Sys2Proof.Machine.execTmrelWrite p k val s
  | .tmctlEpochWrite p val => Sys2Proof.Machine.execTmctlEpochWrite p val s
  | .heatEpochTick => Sys2Proof.Machine.execHeatEpochTick s
  | .heatSweep owner => Sys2Proof.Machine.execHeatSweep owner s
  | .resyncPass owner => Sys2Proof.Machine.execResyncPass owner s
  | .tierCompaction => Sys2Proof.Machine.execTierCompaction s
  | .migrationCopyComplete mig => Sys2Proof.Machine.execMigrationCopyComplete mig s
  | .migrationFlip mig => Sys2Proof.Machine.execMigrationFlip mig s
  | .blockFill fill => Sys2Proof.Machine.execBlockFill fill s
  | .clean p slice scope dom => Sys2Proof.Machine.execClean p slice scope dom s
  | .cleanAndInvalidate p slice scope dom => Sys2Proof.Machine.execCleanAndInvalidate p slice scope dom s
  | .kindlingSetVisit slice => Sys2Proof.Machine.execKindlingSetVisit slice s
  | .wayDisable p slice ways => Sys2Proof.Machine.execWayDisable p slice ways s
  | .rds src txn addr upset => Sys2Proof.Machine.execRds src txn addr upset s
  | .rdown src txn addr upset => Sys2Proof.Machine.execRdown src txn addr upset s
  | .rdcur src txn addr upset => Sys2Proof.Machine.execRdcur src txn addr upset s
  | .wrcur src txn addr data upset => Sys2Proof.Machine.execWrcur src txn addr data upset s
  | .wrptl src txn addr be data upset => Sys2Proof.Machine.execWrptl src txn addr be data upset s
  | .snpinv src txn addr ord => Sys2Proof.Machine.execSnpinv src txn addr ord s
  | .snps src txn addr ord => Sys2Proof.Machine.execSnps src txn addr ord s
  | .snpfwds src txn addr ord reqDev reqTxn => Sys2Proof.Machine.execSnpfwds src txn addr ord reqDev reqTxn s
  | .snpfwdcur src txn addr ord reqDev reqTxn => Sys2Proof.Machine.execSnpfwdcur src txn addr ord reqDev reqTxn s
  | .rspi src txn wbp => Sys2Proof.Machine.execRspi src txn wbp s
  | .rsps src txn => Sys2Proof.Machine.execRsps src txn s
  | .rspfwds src txn => Sys2Proof.Machine.execRspfwds src txn s
  | .rspfwdcur src txn => Sys2Proof.Machine.execRspfwdcur src txn s
  | .rspidata src txn addr poison data => Sys2Proof.Machine.execRspidata src txn addr poison data s
  | .rspsdata src txn addr poison data => Sys2Proof.Machine.execRspsdata src txn addr poison data s
  | .rspfwdsdata src txn addr poison data => Sys2Proof.Machine.execRspfwdsdata src txn addr poison data s
  | .cmp src txn => Sys2Proof.Machine.execCmp src txn s
  | .err src txn err => Sys2Proof.Machine.execErr src txn err s
  | .data src txn grant poison data => Sys2Proof.Machine.execData src txn grant poison data s
  | .datafwd src txn grant poison data => Sys2Proof.Machine.execDatafwd src txn grant poison data s
  | .wbdata src txn addr held poison data upset => Sys2Proof.Machine.execWbdata src txn addr held poison data upset s
  | .evictnotice src txn addr held upset => Sys2Proof.Machine.execEvictnotice src txn addr held upset s
  | .mirwr src txn addr poison data => Sys2Proof.Machine.execMirwr src txn addr poison data s
  | .mirrd src txn addr => Sys2Proof.Machine.execMirrd src txn addr s
  | .mirdata src txn poison data => Sys2Proof.Machine.execMirdata src txn poison data s
  | .prd src txn addr => Sys2Proof.Machine.execPrd src txn addr s
  | .pwr src txn addr be data => Sys2Proof.Machine.execPwr src txn addr be data s
  | .pdata src txn poison data => Sys2Proof.Machine.execPdata src txn poison data s
  | .pcmp src txn => Sys2Proof.Machine.execPcmp src txn s
  | .birspi port dpa upset => Sys2Proof.Machine.execBirspi port dpa upset s
  | .birsps port dpa => Sys2Proof.Machine.execBirsps port dpa s
  | .biconflict port dpa => Sys2Proof.Machine.execBiconflict port dpa s
  | .bistallExpiry port dpa => Sys2Proof.Machine.execBistallExpiry port dpa s
  | .compressionDone engine fault => Sys2Proof.Machine.execCompressionDone engine fault s
  | .decompressionDone engine fault => Sys2Proof.Machine.execDecompressionDone engine fault s
  | .keyCacheLoad pipe slot => Sys2Proof.Machine.execKeyCacheLoad pipe slot s
  | .keyInstall p dom => Sys2Proof.Machine.execKeyInstall p dom s
  | .keyDestroy p dom => Sys2Proof.Machine.execKeyDestroy p dom s
  | .keyActivateDk6 p dom => Sys2Proof.Machine.execKeyActivateDk6 p dom s
  | .keyActivateDk7 p dom => Sys2Proof.Machine.execKeyActivateDk7 p dom s
  | .eraseWalkDone dom => Sys2Proof.Machine.execEraseWalkDone dom s
  | .commandIssue chan sub fault => Sys2Proof.Machine.execCommandIssue chan sub fault s
  | .refreshDue chan sub rank => Sys2Proof.Machine.execRefreshDue chan sub rank s
  | .refreshWindowBoundary chan => Sys2Proof.Machine.execRefreshWindowBoundary chan s
  | .mr4Poll chan rate => Sys2Proof.Machine.execMr4Poll chan rate s
  | .thermalPoll chan reading => Sys2Proof.Machine.execThermalPoll chan reading s
  | .commandRetire chan sub => Sys2Proof.Machine.execCommandRetire chan sub s
  | .alertN chan sub crc => Sys2Proof.Machine.execAlertN chan sub crc s
  | .alertDeassert chan sub => Sys2Proof.Machine.execAlertDeassert chan sub s
  | .replayRetire chan sub => Sys2Proof.Machine.execReplayRetire chan sub s
  | .trainingRestoreDone chan sub pass => Sys2Proof.Machine.execTrainingRestoreDone chan sub pass s
  | .lowerRateTrainingDone chan sub pass => Sys2Proof.Machine.execLowerRateTrainingDone chan sub pass s
  | .channelShareExpiry chan sub => Sys2Proof.Machine.execChannelShareExpiry chan sub s
  | .dramReadData chan sub err fault => Sys2Proof.Machine.execDramReadData chan sub err fault s
  | .rereadDone chan sub err fault => Sys2Proof.Machine.execRereadDone chan sub err fault s
  | .narrowWriteMerge chan sub met => Sys2Proof.Machine.execNarrowWriteMerge chan sub met s
  | .patrolRead chan err again => Sys2Proof.Machine.execPatrolRead chan err again s
  | .markWrite p chan k val => Sys2Proof.Machine.execMarkWrite p chan k val s
  | .injectionEnable p chan entries => Sys2Proof.Machine.execInjectionEnable p chan entries s
  | .rawWrite p chan => Sys2Proof.Machine.execRawWrite p chan s
  | .rawRead p chan => Sys2Proof.Machine.execRawRead p chan s
  | .flip p chan => Sys2Proof.Machine.execFlip p chan s
  | .softRepair p chan => Sys2Proof.Machine.execSoftRepair p chan s
  | .softRepairComplete chan pass => Sys2Proof.Machine.execSoftRepairComplete chan pass s
  | .retireChannel p chan => Sys2Proof.Machine.execRetireChannel p chan s
  | .listHardRepair p chan => Sys2Proof.Machine.execListHardRepair p chan s
  | .extentTarget chan => Sys2Proof.Machine.execExtentTarget chan s
  | .extentFlip chan => Sys2Proof.Machine.execExtentFlip chan s
  | .channelTrainingDone chan spd pass => Sys2Proof.Machine.execChannelTrainingDone chan spd pass s
  | .channelRestoreDone chan spd pass => Sys2Proof.Machine.execChannelRestoreDone chan spd pass s
  | .serdesTestMode p group val => Sys2Proof.Machine.execSerdesTestMode p group val s
  | .symbolInterval group lane count => Sys2Proof.Machine.execSymbolInterval group lane count s
  | .laneFault group lane => Sys2Proof.Machine.execLaneFault group lane s
  | .laneClassified group lane => Sys2Proof.Machine.execLaneClassified group lane s
  | .adaptReeval group lane ctle vga => Sys2Proof.Machine.execAdaptReeval group lane ctle vga s
  | .prbsGen p group lane val => Sys2Proof.Machine.execPrbsGen p group lane val s
  | .prbsClear p group lane val err => Sys2Proof.Machine.execPrbsClear p group lane val err s
  | .prbsLockLoss group lane bits errs => Sys2Proof.Machine.execPrbsLockLoss group lane bits errs s
  | .prbsSnapshotRead p group lane bits errs => Sys2Proof.Machine.execPrbsSnapshotRead p group lane bits errs s
  | .marginRun p group lane val => Sys2Proof.Machine.execMarginRun p group lane val s
  | .marginRunDone group lane errs => Sys2Proof.Machine.execMarginRunDone group lane errs s
  | .laneMarginCommand group lane start => Sys2Proof.Machine.execLaneMarginCommand group lane start s
  | .detection p group lane val => Sys2Proof.Machine.execDetection p group lane val s
  | .detectionDone group lane tx rx => Sys2Proof.Machine.execDetectionDone group lane tx rx s
  | .detectionRepeat group => Sys2Proof.Machine.execDetectionRepeat group s
  | .pennantPatternDetect group lanes => Sys2Proof.Machine.execPennantPatternDetect group lanes s
  | .flitSend group => Sys2Proof.Machine.execFlitSend group s
  | .skipFlit group => Sys2Proof.Machine.execSkipFlit group s
  | .alignmentMarker group => Sys2Proof.Machine.execAlignmentMarker group s
  | .markerReceive group lane block skewed => Sys2Proof.Machine.execMarkerReceive group lane block skewed s
  | .flitReceive group raw full => Sys2Proof.Machine.execFlitReceive group raw full s
  | .replayTimerExpiry group => Sys2Proof.Machine.execReplayTimerExpiry group s
  | .trainingBlockReceive group lane block => Sys2Proof.Machine.execTrainingBlockReceive group lane block s
  | .linkStateTimeout group => Sys2Proof.Machine.execLinkStateTimeout group s
  | .retrain p group val => Sys2Proof.Machine.execRetrain p group val s
  | .linkFullReset p group val => Sys2Proof.Machine.execLinkFullReset p group val s
  | .linkDownTimeout group => Sys2Proof.Machine.execLinkDownTimeout group s
  | .linkrecover src sender receiver e ev => Sys2Proof.Machine.execLinkrecover src sender receiver e ev s
  | .pcrinit src pqr pqw => Sys2Proof.Machine.execPcrinit src pqr pqw s
  | .peerlimWrite p dev val => Sys2Proof.Machine.execPeerlimWrite p dev val s
  | .portReset port cause => Sys2Proof.Machine.execPortReset port cause s
  | .prst p group val => Sys2Proof.Machine.execPrst p group val s
  | .functionLevelReset port => Sys2Proof.Machine.execFunctionLevelReset port s
  | .hdmDecoderCommit port dec lock interleave base size skip => Sys2Proof.Machine.execHdmDecoderCommit port dec lock interleave base size skip s
  | .ltrSend port => Sys2Proof.Machine.execLtrSend port s
  | .ideFail port => Sys2Proof.Machine.execIdeFail port s
  | .counterPageRead port dom word => Sys2Proof.Machine.execCounterPageRead port dom word s
  | .mailboxCommitDomain port dom entry => Sys2Proof.Machine.execMailboxCommitDomain port dom entry s
  | .mailboxReadDomain port dom => Sys2Proof.Machine.execMailboxReadDomain port dom s
  | .installDomainKey port dom blob => Sys2Proof.Machine.execInstallDomainKey port dom blob s
  | .destroyDomainKey port dom => Sys2Proof.Machine.execDestroyDomainKey port dom s
  | .getErrorRecords port first count => Sys2Proof.Machine.execGetErrorRecords port first count s
  | .submitDescriptor port desc => Sys2Proof.Machine.execSubmitDescriptor port desc s
  | .getJobStatus port job => Sys2Proof.Machine.execGetJobStatus port job s
  | .getTierCapacity port => Sys2Proof.Machine.execGetTierCapacity port s
  | .getDynamicCapacityExtentList port => Sys2Proof.Machine.execGetDynamicCapacityExtentList port s
  | .addCapacityResponse port dom accepted => Sys2Proof.Machine.execAddCapacityResponse port dom accepted s
  | .releaseDynamicCapacity port base len => Sys2Proof.Machine.execReleaseDynamicCapacity port base len s
  | .getPoisonList port => Sys2Proof.Machine.execGetPoisonList port s
  | .injectPoison port dpa => Sys2Proof.Machine.execInjectPoison port dpa s
  | .clearPoison port dpa data => Sys2Proof.Machine.execClearPoison port dpa data s
  | .sanitize port => Sys2Proof.Machine.execSanitize port s
  | .secureErase port => Sys2Proof.Machine.execSecureErase port s
  | .add core w upset => Sys2Proof.Machine.execAdd core w upset s
  | .sub core w upset => Sys2Proof.Machine.execSub core w upset s
  | .and_ core w upset => Sys2Proof.Machine.execAnd core w upset s
  | .or_ core w upset => Sys2Proof.Machine.execOr core w upset s
  | .xor_ core w upset => Sys2Proof.Machine.execXor core w upset s
  | .sll core w upset => Sys2Proof.Machine.execSll core w upset s
  | .srl core w upset => Sys2Proof.Machine.execSrl core w upset s
  | .sra core w upset => Sys2Proof.Machine.execSra core w upset s
  | .mul core w upset => Sys2Proof.Machine.execMul core w upset s
  | .mulhu core w upset => Sys2Proof.Machine.execMulhu core w upset s
  | .divu core w upset => Sys2Proof.Machine.execDivu core w upset s
  | .remu core w upset => Sys2Proof.Machine.execRemu core w upset s
  | .minu core w upset => Sys2Proof.Machine.execMinu core w upset s
  | .maxu core w upset => Sys2Proof.Machine.execMaxu core w upset s
  | .min core w upset => Sys2Proof.Machine.execMin core w upset s
  | .max core w upset => Sys2Proof.Machine.execMax core w upset s
  | .popc core w upset => Sys2Proof.Machine.execPopc core w upset s
  | .clz core w upset => Sys2Proof.Machine.execClz core w upset s
  | .satadd core w upset => Sys2Proof.Machine.execSatadd core w upset s
  | .satsub core w upset => Sys2Proof.Machine.execSatsub core w upset s
  | .addi core w upset => Sys2Proof.Machine.execAddi core w upset s
  | .andi core w upset => Sys2Proof.Machine.execAndi core w upset s
  | .ori core w upset => Sys2Proof.Machine.execOri core w upset s
  | .xori core w upset => Sys2Proof.Machine.execXori core w upset s
  | .shi core w upset => Sys2Proof.Machine.execShi core w upset s
  | .movi core w upset => Sys2Proof.Machine.execMovi core w upset s
  | .movk core w upset => Sys2Proof.Machine.execMovk core w upset s
  | .cmpi core w upset => Sys2Proof.Machine.execCmpi core w upset s
  | .fop core w upset => Sys2Proof.Machine.execFop core w upset s
  | .sel core w upset => Sys2Proof.Machine.execSel core w upset s
  | .ldd core w upset mem => Sys2Proof.Machine.execLdd core w upset mem s
  | .ldw core w upset mem => Sys2Proof.Machine.execLdw core w upset mem s
  | .ldb core w upset mem => Sys2Proof.Machine.execLdb core w upset mem s
  | .std core w upset mem => Sys2Proof.Machine.execStd core w upset mem s
  | .stw core w upset mem => Sys2Proof.Machine.execStw core w upset mem s
  | .stb core w upset mem => Sys2Proof.Machine.execStb core w upset mem s
  | .aadd core w upset mem => Sys2Proof.Machine.execAadd core w upset mem s
  | .cas core w upset mem => Sys2Proof.Machine.execCas core w upset mem s
  | .fence core w upset => Sys2Proof.Machine.execFence core w upset s
  | .br core w upset => Sys2Proof.Machine.execBr core w upset s
  | .call core w upset => Sys2Proof.Machine.execCall core w upset s
  | .jr core w upset => Sys2Proof.Machine.execJr core w upset s
  | .mfs core w upset => Sys2Proof.Machine.execMfs core w upset s
  | .ckpt core w upset => Sys2Proof.Machine.execCkpt core w upset s
  | .halt core w upset => Sys2Proof.Machine.execHalt core w upset s
  | .trap core w upset => Sys2Proof.Machine.execTrap core w upset s
  | .ckptLate core => Sys2Proof.Machine.execCkptLate core s
  | .crd core w upset => Sys2Proof.Machine.execCrd core w upset s
  | .hscan core w upset mem => Sys2Proof.Machine.execHscan core w upset mem s
  | .hscanDone core tk => Sys2Proof.Machine.execHscanDone core tk s
  | .mig core w upset => Sys2Proof.Machine.execMig core w upset s
  | .tstat core w upset => Sys2Proof.Machine.execTstat core w upset s
  | .wait core w upset => Sys2Proof.Machine.execWait core w upset s
  | .waitReturn core => Sys2Proof.Machine.execWaitReturn core s
  | .post core w upset => Sys2Proof.Machine.execPost core w upset s
  | .recv core w upset => Sys2Proof.Machine.execRecv core w upset s
  | .domrd core w upset => Sys2Proof.Machine.execDomrd core w upset s
  | .tcan core w upset => Sys2Proof.Machine.execTcan core w upset s
  | .cgb core w upset => Sys2Proof.Machine.execCgb core w upset s
  | .domwr core w upset => Sys2Proof.Machine.execDomwr core w upset s
  | .rgwr core w upset => Sys2Proof.Machine.execRgwr core w upset s
  | .shwr core w upset => Sys2Proof.Machine.execShwr core w upset s
  | .ctrw core w upset => Sys2Proof.Machine.execCtrw core w upset s
  | .cgc core w upset => Sys2Proof.Machine.execCgc core w upset s
  | .cga core w upset => Sys2Proof.Machine.execCga core w upset s
  | .pset core w upset => Sys2Proof.Machine.execPset core w upset s
  | .plog core w upset mem => Sys2Proof.Machine.execPlog core w upset mem s
  | .programRunStart core => Sys2Proof.Machine.execProgramRunStart core s
  | .timer prog => Sys2Proof.Machine.execTimer prog s
  | .descriptorTake ring => Sys2Proof.Machine.execDescriptorTake ring s
  | .completionWrite ring => Sys2Proof.Machine.execCompletionWrite ring s
  | .commitDomain ring => Sys2Proof.Machine.execCommitDomain ring s
  | .readDomain ring => Sys2Proof.Machine.execReadDomain ring s
  | .loadProgram ring => Sys2Proof.Machine.execLoadProgram ring s
  | .bind ring => Sys2Proof.Machine.execBind ring s
  | .unbind ring => Sys2Proof.Machine.execUnbind ring s
  | .suspend ring => Sys2Proof.Machine.execSuspend ring s
  | .resume ring => Sys2Proof.Machine.execResume ring s
  | .cancel ring => Sys2Proof.Machine.execCancel ring s
  | .restart ring => Sys2Proof.Machine.execRestart ring s
  | .unload ring => Sys2Proof.Machine.execUnload ring s
  | .signal ring => Sys2Proof.Machine.execSignal ring s
  | .setParam ring => Sys2Proof.Machine.execSetParam ring s
  | .audit ring => Sys2Proof.Machine.execAudit ring s
  | .auditGranule job errs => Sys2Proof.Machine.execAuditGranule job errs s
  | .migrateRange ring => Sys2Proof.Machine.execMigrateRange ring s
  | .compact ring => Sys2Proof.Machine.execCompact ring s
  | .sanitizeScopeDomain ring => Sys2Proof.Machine.execSanitizeScopeDomain ring s
  | .sanitizeScopeOverwrite ring => Sys2Proof.Machine.execSanitizeScopeOverwrite ring s
  | .sanitizeScopeCryptoErase ring => Sys2Proof.Machine.execSanitizeScopeCryptoErase ring s
  | .resize ring => Sys2Proof.Machine.execResize ring s
  | .jobSuspend ring => Sys2Proof.Machine.execJobSuspend ring s
  | .jobResume ring => Sys2Proof.Machine.execJobResume ring s
  | .jobCancel ring => Sys2Proof.Machine.execJobCancel ring s
  | .jobStatus ring => Sys2Proof.Machine.execJobStatus ring s
  | .jobStart job => Sys2Proof.Machine.execJobStart job s
  | .counterClear p bank k val => Sys2Proof.Machine.execCounterClear p bank k val s
  | .counterRead p bank k snap => Sys2Proof.Machine.execCounterRead p bank k snap s
  | .halyardArmTarget p val => Sys2Proof.Machine.execHalyardArmTarget p val s
  | .halyardArmRelative p val => Sys2Proof.Machine.execHalyardArmRelative p val s
  | .halyardArmExternal p val => Sys2Proof.Machine.execHalyardArmExternal p val s
  | .halyardDisarm p val => Sys2Proof.Machine.execHalyardDisarm p val s
  | .halyardRelease p val => Sys2Proof.Machine.execHalyardRelease p val s
  | .halyardInEdge => Sys2Proof.Machine.execHalyardInEdge s
  | .halyardSnapshot bank => Sys2Proof.Machine.execHalyardSnapshot bank s
  | .traceEnable p region val => Sys2Proof.Machine.execTraceEnable p region val s
  | .traceSeedWrite p region val => Sys2Proof.Machine.execTraceSeedWrite p region val s
  | .traceDataRead p region => Sys2Proof.Machine.execTraceDataRead p region s
  | .traceTrigEdge high => Sys2Proof.Machine.execTraceTrigEdge high s
  | .faultRecordRead p => Sys2Proof.Machine.execFaultRecordRead p s
  | .sramFault unit bank ue lasting => Sys2Proof.Machine.execSramFault unit bank ue lasting s
  | .meshLink region again => Sys2Proof.Machine.execMeshLink region again s
  | .kill p val => Sys2Proof.Machine.execKill p val s
  | .declare p val => Sys2Proof.Machine.execDeclare p val s
  | .watchdogExpiry => Sys2Proof.Machine.execWatchdogExpiry s
  | .thermalTrip region => Sys2Proof.Machine.execThermalTrip region s
  | .peatPageWrite fails => Sys2Proof.Machine.execPeatPageWrite fails s
  | .cntWrite => Sys2Proof.Machine.execCntWrite s
  | .fullImageWrite p val => Sys2Proof.Machine.execFullImageWrite p val s
  | .logClear p val => Sys2Proof.Machine.execLogClear p val s
  | .lastgaspFlush pages bad => Sys2Proof.Machine.execLastgaspFlush pages bad s
  | .lastgaspDeadline => Sys2Proof.Machine.execLastgaspDeadline s
  | .feedDiePowerOn => Sys2Proof.Machine.execFeedDiePowerOn s
  | .feedInRange feed v => Sys2Proof.Machine.execFeedInRange feed v s
  | .windowLeft feed above => Sys2Proof.Machine.execWindowLeft feed above s
  | .insertionDelayExpiry feed => Sys2Proof.Machine.execInsertionDelayExpiry feed s
  | .rampComplete feed v bulk => Sys2Proof.Machine.execRampComplete feed v bulk s
  | .startshort feed start v rise => Sys2Proof.Machine.execStartshort feed start v rise s
  | .startTimeout feed => Sys2Proof.Machine.execStartTimeout feed s
  | .breaker feed samples => Sys2Proof.Machine.execBreaker feed samples s
  | .fastTrip feed current => Sys2Proof.Machine.execFastTrip feed current s
  | .retryDelayExpiry feed => Sys2Proof.Machine.execRetryDelayExpiry feed s
  | .tripCountClear feed => Sys2Proof.Machine.execTripCountClear feed s
  | .feedRemoval feed => Sys2Proof.Machine.execFeedRemoval feed s
  | .oringTurnOff feed => Sys2Proof.Machine.execOringTurnOff feed s
  | .oringTurnOn feed => Sys2Proof.Machine.execOringTurnOn feed s
  | .reversed feed => Sys2Proof.Machine.execReversed feed s
  | .reversedClear feed => Sys2Proof.Machine.execReversedClear feed s
  | .pgRise => Sys2Proof.Machine.execPgRise s
  | .pgFall => Sys2Proof.Machine.execPgFall s
  | .pfw va vb => Sys2Proof.Machine.execPfw va vb s
  | .flushDone => Sys2Proof.Machine.execFlushDone s
  | .releaseTimeout => Sys2Proof.Machine.execReleaseTimeout s
  | .clra p val => Sys2Proof.Machine.execClra p val s
  | .clrb p val => Sys2Proof.Machine.execClrb p val s
  | .clrt p val => Sys2Proof.Machine.execClrt p val s
  | .feedCommit p => Sys2Proof.Machine.execFeedCommit p s
  | .feedCopy p => Sys2Proof.Machine.execFeedCopy p s
  | .otpBurn p key => Sys2Proof.Machine.execOtpBurn p key s
  | .heartbeat answered r => Sys2Proof.Machine.execHeartbeat answered r s
  | .powerStateEntry => Sys2Proof.Machine.execPowerStateEntry s
  | .wake source => Sys2Proof.Machine.execWake source s
  | .exitComplete => Sys2Proof.Machine.execExitComplete s
  | .dozeTimer => Sys2Proof.Machine.execDozeTimer s
  | .suppliesValid => Sys2Proof.Machine.execSuppliesValid s
  | .suppliesLost => Sys2Proof.Machine.execSuppliesLost s
  | .referenceCheck refBad oscBad => Sys2Proof.Machine.execReferenceCheck refBad oscBad s
  | .referenceLoss => Sys2Proof.Machine.execReferenceLoss s
  | .coldStart pgmode x16 devnum newest older => Sys2Proof.Machine.execColdStart pgmode x16 devnum newest older s
  | .ready => Sys2Proof.Machine.execReady s
  | .extentInitDone => Sys2Proof.Machine.execExtentInitDone s
  | .orderlyWarmReset p val => Sys2Proof.Machine.execOrderlyWarmReset p val s
  | .immediateWarmReset p val => Sys2Proof.Machine.execImmediateWarmReset p val s
  | .drainComplete => Sys2Proof.Machine.execDrainComplete s
  | .drainTimeout => Sys2Proof.Machine.execDrainTimeout s
  | .warmHoldEnd newest older => Sys2Proof.Machine.execWarmHoldEnd newest older s
  | .gtcSyncPulse => Sys2Proof.Machine.execGtcSyncPulse s
  | .gtcSyncEdge => Sys2Proof.Machine.execGtcSyncEdge s
  | .getId f args => Sys2Proof.Machine.execGetId f args s
  | .getStatus f args => Sys2Proof.Machine.execGetStatus f args s
  | .getRecord f args => Sys2Proof.Machine.execGetRecord f args s
  | .getTelem f args => Sys2Proof.Machine.execGetTelem f args s
  | .readWords f args => Sys2Proof.Machine.execRead f args s
  | .writeWords f args => Sys2Proof.Machine.execWrite f args s
  | .sidebandResetOrderly f rest => Sys2Proof.Machine.execSidebandResetOrderly f rest s
  | .sidebandResetImmediate f rest => Sys2Proof.Machine.execSidebandResetImmediate f rest s
  | .clearAlert f args => Sys2Proof.Machine.execClearAlert f args s
  | .alertResponse => Sys2Proof.Machine.execAlertResponse s
  | .smbusTimeout => Sys2Proof.Machine.execSmbusTimeout s
  | .i3cAddressAssignment setdasa addr => Sys2Proof.Machine.execI3cAddressAssignment setdasa addr s
  | .sensorPoll temps pwr => Sys2Proof.Machine.execSensorPoll temps pwr s
  | .tapInstruction ins => Sys2Proof.Machine.execTapInstruction ins s
  | .spdmRequest port req => Sys2Proof.Machine.execSpdmRequest port req s
  | .setKek port selector key => Sys2Proof.Machine.execSetKek port selector key s
  | .setCertificate port slot chain => Sys2Proof.Machine.execSetCertificate port slot chain s
  | .spdmKeyDelivery port blob => Sys2Proof.Machine.execSpdmKeyDelivery port blob s
  | .ideKm port io key => Sys2Proof.Machine.execIdeKm port io key s
  | .lockWrite p val => Sys2Proof.Machine.execLockWrite p val s
  | .regulatorCommit p => Sys2Proof.Machine.execRegulatorCommit p s
  | .regulatorCopyToStaging p => Sys2Proof.Machine.execRegulatorCopyToStaging p s
  | .cxlLinkUp port rate flits256 biEnabled => Sys2Proof.Machine.execCxlLinkUp port rate flits256 biEnabled s
  | .portL1Entry port => Sys2Proof.Machine.execPortL1Entry port s
  | .bisnpCredit port => Sys2Proof.Machine.execBisnpCredit port s
  | .prbsLock group lane => Sys2Proof.Machine.execPrbsLock group lane s
  | .laneActive group lane pol ctle vga taps => Sys2Proof.Machine.execLaneActive group lane pol ctle vga taps s
  | .ringAnswerTimeout f acc => Sys2Proof.Machine.execRingAnswerTimeout f acc s
  | .feedDieSupplyLoss => Sys2Proof.Machine.execFeedDieSupplyLoss s

end Sys2Proof.Machine
end

