-- ==== Sys2Proof/Machine/Tick.lean ====
section
/-!
DEFINITION. What one nanosecond does when no command waits: the GTC counts (R453, R454), so do the counters of mesh clocks and of
occupancy (R362, R363) and the times of Tables 19-12 and 20-8, and an orderly drain goes on (R448).
-/
namespace Sys2Proof.Machine

/-! ### The GTC -/

/-- A follower's tick (R454): one skipped or added in every 1,024, or every second one skipped, until the error is made up. -/
def GtcSync.tick (y : GtcSync) : Nat × GtcSync :=
  if y.ticks == 0 then (1, default)
  else
    let c := y.clocks + 1
    if c < (if y.half then 2 else 1024) then (1, { y with clocks := c })
    else (if y.ahead then 0 else 2, { y with clocks := 0, ticks := y.ticks - 1 })

/-- The GTC advanced by one clock; it does not run before a Cold start releases the main die. -/
def State.tickGtc (s : State) : State :=
  let cold := s.boot.hold && s.rd R.CHIP_BOOTSTAT_RSTCAUSE == 0 && s.rd R.CHIP_BOOTSTAT_PHASE == 0
  if !s.boot.supplies || cold then s
  else
    let (n, y) := s.boot.sync.tick
    { s with gtc := s.gtc + n, boot := { s.boot with sync := y } }

/-! ### Counters -/

/-- Whether something of a domain and class passes a counter's filters. -/
def occPasses (filt : BitVec 32) (dom cls : Nat) : Bool := ctrPasses filt (some dom) (some cls)

/-- The occupancy of an event of kind O at a unit (Table 16-1), of what passes the filters; `plain` is whether none is on, for the
events that have none. -/
def State.occupancy (s : State) (filt : BitVec 32) (code u : Nat) : Nat :=
  let plain := !bit filt 31 && !bit filt 30
  let only := fun (n : Nat) => if plain then n else 0
  match code with
  | 0x07 => ((s.rgl.admq.get u).filter fun w => occPasses filt w.req.dom w.cls).length
  | 0x0C => ((s.rgl.egress.get (2 * u) ++ s.rgl.egress.get (2 * u + 1)).filter fun e => occPasses filt e.req.dom e.cls).length
  | 0x11 => only (s.coh.ordq.get u).length
  | 0x12 => only (s.coh.txs.filter fun t => t.slice == u && t.busy).length
  | 0x1B => only (s.tier.waitq.get u).length
  | 0x27 => only (s.eng.cq.get u).length
  | 0x36 => only (((s.sub u 0).rq ++ (s.sub u 0).prq ++ (s.sub u 1).rq ++ (s.sub u 1).prq).length)
  | 0x37 => only (((s.sub u 0).wq ++ (s.sub u 1).wq).length)
  | _ => 0

/-- The occupancy that a programmable counter of a bank samples (R362). -/
def State.ctrOccupancy (s : State) (bank : Nat) (ctl filt : BitVec 32) : Nat :=
  let code := fld ctl 23 16
  let plain := !bit filt 31 && !bit filt 30
  if bank == 4 then
    if !plain then 0
    else if code == 0x82 then s.waitingAll
    else if code == 0x85 then (List.range 16).foldl (fun a d => a + (s.link.outq.get d).length) 0
    else 0
  else if fld ctl 26 24 == 4 then (List.range 4).foldl (fun a i => a + s.occupancy filt code (4 * bank + i)) 0
  else s.occupancy filt code (4 * bank + fld ctl 26 24)

/-- The two mesh clocks of a nanosecond as a counter that samples occupancy counts them. -/
def State.sampleCtr (s : State) (bank i : Nat) : State :=
  let ctl := s.reg (ctlOff bank i)
  let n := s.ctrOccupancy bank ctl (s.reg (filtOff bank i))
  if !bit ctl 31 then s
  else
    match fld ctl 28 27 with
    | 1 => s.bump bank i (2 * n) (bit ctl 29)
    | 2 => if n > fld ctl 11 0 then s.bump bank i 2 (bit ctl 29) else s
    | _ => s

/-- The counters of one bank. -/
def State.tickBank (s : State) (bank : Nat) : State :=
  let s := (s.enabledCtrs bank).foldl (fun s i => s.sampleCtr bank i) s
  s.count bank 0 (if bank == 4 then 0x86 else 0x42) 2 none none

/-- Counters count in Blaze and Smoulder (R369). -/
def State.tickCounters (s : State) : State :=
  if s.boot.hold || s.asleep then s else (List.range 5).foldl (fun s b => s.tickBank b) s

/-! ### Times -/

/-- The time spent in the state in force (Table 20-8), in ms. -/
def State.tickPower (s : State) : State :=
  let k := s.rd R.PS_STAT_STATE
  let n := s.pow.ns.get k + 1
  let s : State := { s with pow := { s.pow with
    ns := s.pow.ns.put k (n % 1000000)
    quietSince := if s.quiet then s.pow.quietSince else s.gtc } }
  if n == 1000000 then s.satAdd (R.PS_RES_MS k) 1 else s

/-- The feed die's clock. -/
def State.tickFeed (s : State) : State := if s.feed.on then { s with feed := { s.feed with ns := s.feed.ns + 1 } } else s

/-- One nanosecond. -/
def State.tick (s : State) : State :=
  let s := s.tickGtc.tickFeed
  (if s.boot.hold then s else s.tickCounters.tickPower).settleDrain

end Sys2Proof.Machine
end

