-- ==== Sys2Proof/Machine/Pads.lean ====
section
/-!
DEFINITION. What the block's state sets at its pins and wells: the gates of the feeds (Table 19-3), bias and SRAM assist (Table 20-3),
the open-drain pins, and the outputs that float (Table 20-6).
-/
namespace Sys2Proof.Machine

/-! ### Feeds -/

/-- How a gate of a feed stands (Table 19-3): off, clamped to its source, ramped, an ideal diode under R413, or fully on. -/
inductive Gate where
  | off
  | clamped
  | ramp
  | diode
  | on
deriving DecidableEq, Repr

/-- The ORing and pass gates of a feed; a reverse current has turned the ORing FET off (R413). -/
def State.feedGates (s : State) (x : Feed) : Gate × Gate :=
  let oring := if s.feed.reverse.get (feedIx x) then Gate.off else .diode
  match s.feedSt x with
  | 2 => (oring, .ramp)
  | 3 => (oring, .on)
  | 6 => (.clamped, .clamped)
  | _ => (.off, .off)

/-! ### Bias and assist -/

/-- A row of Table 20-3, in mV: the logic rail, the reverse bias of gated and of other blocks (NMOS and PMOS alike), the SRAM array
rail, the wordline underdrive and the magnitude of the negative bitline. None is off, or without a value. -/
structure Bias where
  logic : Option Nat
  gated : Option Nat
  other : Option Nat
  sram : Nat
  wordline : Option Nat
  bitline : Option Nat
deriving DecidableEq, Repr

/-- The settings that the state in force applies (R427). -/
def State.bias (s : State) : Bias :=
  match s.rd R.PS_STAT_STATE with
  | 0 => { logic := some 750, gated := some 0, other := some 0, sram := 800, wordline := some 40, bitline := some 80 }
  | 1 => { logic := some 750, gated := some 150, other := some 0, sram := 800, wordline := some 40, bitline := some 80 }
  | 2 => { logic := some 750, gated := some 300, other := some 300, sram := 550, wordline := none, bitline := none }
  | _ => { logic := none, gated := none, other := none, sram := 500, wordline := none, bitline := none }

/-! ### Pins -/

/-- The outputs of Table 20-6 that the block's state decides. -/
inductive Pad where
  | alert (k : Fin 3)          -- MFP0 to MFP2, open drain
  | mfp (k : Fin 5)            -- MFP3 to MFP7
  | dimmReset (n : Fin 16)
  | ddr (n : Fin 16)
  | laneTx (g : Fin 16) (l : Fin 9)
deriving DecidableEq, Repr

/-- Whether an open-drain pin is driven low by the function that holds it: PFW_OUT_N, FAULT_N, SMB_ALERT_N. -/
def State.drivenLow (s : State) : Fin 3 → Bool
  | 0 => s.claim.mfp.get 0 == 0x20 && s.flag R.FD_STAT_PFW
  | 1 => s.claim.mfp.get 1 == 0x21 && s.faultN
  | 2 => s.smbAlert

/-- Whether an output floats (R436), with the auxiliary rail valid. The spec gives a GPIO pin no direction, and the model takes each
as an input (DESIGN CHOICE, assumption 129). -/
def State.floats (s : State) : Pad → Bool
  | .alert k => !s.drivenLow k
  | .mfp k => s.claim.mfp.get (3 + k.val) == 0x2F
  | .dimmReset n | .ddr n => !s.boot.supplies || s.chanState n == 0 || s.chanState n == 5 || s.chanState n == 7
  | .laneTx g l => s.laneSt g l == 0 || s.laneSt g l == 5

end Sys2Proof.Machine
end

