-- ==== Sys2Proof/Machine/Symbols.lean ====
section
/-!
DEFINITION. What goes over the wires: PAM4 symbols (R242), a flit's bytes over its lanes (R269), and the patterns of a lane's PRBS
generator (R253).
-/
namespace Sys2Proof.Machine

/-! ### PAM4 -/

/-- The level of a pair of bits, the first in time first (R242): Gray-coded. -/
def pam4Level (first second : Bool) : Fin 4 :=
  match first, second with
  | false, false => 0
  | false, true => 1
  | true, true => 2
  | true, false => 3

/-- The bits of a level. -/
def pam4Pair (l : Fin 4) : Bool × Bool :=
  match l with
  | 0 => (false, false)
  | 1 => (false, true)
  | 2 => (true, true)
  | 3 => (true, false)

/-- A stream of bits as symbols, two bits each. -/
def pam4 : List Bool → List (Fin 4)
  | a :: b :: t => pam4Level a b :: pam4 t
  | _ => []

/-- The bits of a stream of symbols. -/
def pam4Bits (ls : List (Fin 4)) : List Bool := (ls.map fun l => [(pam4Pair l).1, (pam4Pair l).2]).flatten

/-! ### Flits on lanes -/

/-- A byte in the order sent, bit 7 first (R269). -/
def byteBits (b : Byte) : List Bool := (List.range 8).map fun i => b.getLsbD (7 - i)

/-- The bytes of a flit that logical lane `l` of `w` carries, in increasing order (R269). -/
def laneBytes (w l : Nat) (bits : BitVec 2048) : List Byte :=
  ((leBytes 256 bits).zipIdx.filter fun x => x.2 % w == l).map (·.1)

/-- The symbols of a flit on logical lane `l` of `w`. -/
def laneSymbols (w l : Nat) (bits : BitVec 2048) : List (Fin 4) := pam4 (((laneBytes w l bits).map byteBits).flatten)

/-- What an output puts on the wires of its group: for each logical lane of a flit, or the lane of a marker or training block, its
symbols in order. -/
def Output.symbols : Output → List (List (Fin 4))
  | .flit _ w bits => (List.range w).map fun l => laneSymbols w l bits
  | .marker _ _ b => [pam4 (((leBytes 32 b).map byteBits).flatten)]
  | .train _ _ b => [pam4 (((leBytes 32 b).map byteBits).flatten)]
  | _ => []

/-! ### PRBS -/

/-- The two taps of a pattern's polynomial, by its code (Table 11-5). -/
def prbsTaps (code : Nat) : Option (Nat × Nat) :=
  match code with
  | 1 => some (7, 6)
  | 2 => some (9, 5)
  | 3 => some (15, 14)
  | 4 => some (23, 18)
  | 5 => some (31, 28)
  | _ => none

/-- One bit of a generator: the sum of its taps, which it sends and takes in; bit i of its state was sent i + 1 bits ago. -/
def prbsNext (taps : Nat × Nat) (x : BitVec 31) : Bool × BitVec 31 :=
  let b := x.getLsbD (taps.1 - 1) != x.getLsbD (taps.2 - 1)
  (b, x <<< 1 ||| BitVec.ofNat 31 (b2n b))

/-- The next bits of a generator. -/
def prbsBits (taps : Nat × Nat) : Nat → BitVec 31 → List Bool
  | 0, _ => []
  | n + 1, x => let y := prbsNext taps x; y.1 :: prbsBits taps n y.2

/-- The first `n` bits a lane's generator sends after `GEN` is written, inverted under `GINV`; none while it is off (R253). -/
def State.lanePattern (s : State) (g l n : Nat) : List Bool :=
  match prbsTaps (s.rd (R.PG_LN_PRBSCTL_GEN g l)) with
  | none => []
  | some t => (prbsBits t n (s.laneOf g l).gen).map fun b => b != s.flag (R.PG_LN_PRBSCTL_GINV g l)

/-- The symbols they make on a lane that runs PAM4 (R242, R253): `RATE` codes 101 to 111 do (Table 11-1). -/
def State.laneLevels (s : State) (g l n : Nat) : List (Fin 4) :=
  if s.rd (R.PG_SDSTAT_RATECUR g) ≥ 5 then pam4 (s.lanePattern g l (2 * n)) else []

/-! ### The pennant pattern -/

/-- The level of the pennant pattern `t` ns after it begins (R260): 10 ns at each level in bursts of 2 µs, and none in the 2 µs of
electrical idle after each. -/
def pennantLevel (t : Nat) : Option Bool := if t % 4000 < 2000 then some (t % 20 < 10) else none

end Sys2Proof.Machine
end

