-- ==== Sys2Proof/WellFormed.lean ====
section
/-!
DEFINITION. Which commands are well formed: a Grihar word belongs to its row, and what arrives as bytes fits what carries it.
-/
namespace Sys2Proof

open Sys2Proof.Machine

/-- Whether a command can be carried by the interface it comes by: the word of a Grihar instruction is one of its row (R320, R321), a
sideband command has at most 253 input bytes (R458), a certificate chain fits the 16-bit length of its SPDM message, and a flush
meets no more failed pages than it can write (R399). -/
def Instr.wf (i : Instr) : Bool :=
  match i with
  | .hostRead .. => true
  | .hostWrite .. => true
  | .hostNarrowWrite .. => true
  | .memspecrd .. => true
  | .backingGrant => true
  | .admissionGrant .. => true
  | .windowStart => true
  | .poolRebalance => true
  | .egressSend .. => true
  | .sample .. => true
  | .registerWrite .. => true
  | .domainTableWrite .. => true
  | .domainCommit .. => true
  | .domainCopyToStaging .. => true
  | .domainCommitComplete .. => true
  | .addCapacityEventSend .. => true
  | .releaseCandidate => true
  | .tmrelWrite .. => true
  | .tmctlEpochWrite .. => true
  | .heatEpochTick => true
  | .heatSweep .. => true
  | .resyncPass .. => true
  | .tierCompaction => true
  | .migrationCopyComplete .. => true
  | .migrationFlip .. => true
  | .blockFill .. => true
  | .clean .. => true
  | .cleanAndInvalidate .. => true
  | .kindlingSetVisit .. => true
  | .wayDisable .. => true
  | .rds .. => true
  | .rdown .. => true
  | .rdcur .. => true
  | .wrcur .. => true
  | .wrptl .. => true
  | .snpinv .. => true
  | .snps .. => true
  | .snpfwds .. => true
  | .snpfwdcur .. => true
  | .rspi .. => true
  | .rsps .. => true
  | .rspfwds .. => true
  | .rspfwdcur .. => true
  | .rspidata .. => true
  | .rspsdata .. => true
  | .rspfwdsdata .. => true
  | .cmp .. => true
  | .err .. => true
  | .data .. => true
  | .datafwd .. => true
  | .wbdata .. => true
  | .evictnotice .. => true
  | .mirwr .. => true
  | .mirrd .. => true
  | .mirdata .. => true
  | .prd .. => true
  | .pwr .. => true
  | .pdata .. => true
  | .pcmp .. => true
  | .birspi .. => true
  | .birsps .. => true
  | .biconflict .. => true
  | .bistallExpiry .. => true
  | .compressionDone .. => true
  | .decompressionDone .. => true
  | .keyCacheLoad .. => true
  | .keyInstall .. => true
  | .keyDestroy .. => true
  | .keyActivateDk6 .. => true
  | .keyActivateDk7 .. => true
  | .eraseWalkDone .. => true
  | .commandIssue .. => true
  | .refreshDue .. => true
  | .refreshWindowBoundary .. => true
  | .mr4Poll .. => true
  | .thermalPoll .. => true
  | .commandRetire .. => true
  | .alertN .. => true
  | .alertDeassert .. => true
  | .replayRetire .. => true
  | .trainingRestoreDone .. => true
  | .lowerRateTrainingDone .. => true
  | .channelShareExpiry .. => true
  | .dramReadData .. => true
  | .rereadDone .. => true
  | .narrowWriteMerge .. => true
  | .patrolRead .. => true
  | .markWrite .. => true
  | .injectionEnable .. => true
  | .rawWrite .. => true
  | .rawRead .. => true
  | .flip .. => true
  | .softRepair .. => true
  | .softRepairComplete .. => true
  | .retireChannel .. => true
  | .listHardRepair .. => true
  | .extentTarget .. => true
  | .extentFlip .. => true
  | .channelTrainingDone .. => true
  | .channelRestoreDone .. => true
  | .serdesTestMode .. => true
  | .symbolInterval .. => true
  | .laneFault .. => true
  | .laneClassified .. => true
  | .adaptReeval .. => true
  | .prbsGen .. => true
  | .prbsClear .. => true
  | .prbsLockLoss .. => true
  | .prbsSnapshotRead .. => true
  | .marginRun .. => true
  | .marginRunDone .. => true
  | .laneMarginCommand .. => true
  | .detection .. => true
  | .detectionDone .. => true
  | .detectionRepeat .. => true
  | .pennantPatternDetect .. => true
  | .flitSend .. => true
  | .skipFlit .. => true
  | .alignmentMarker .. => true
  | .markerReceive .. => true
  | .flitReceive .. => true
  | .replayTimerExpiry .. => true
  | .trainingBlockReceive .. => true
  | .linkStateTimeout .. => true
  | .retrain .. => true
  | .linkFullReset .. => true
  | .linkDownTimeout .. => true
  | .linkrecover .. => true
  | .pcrinit .. => true
  | .peerlimWrite .. => true
  | .portReset .. => true
  | .prst .. => true
  | .functionLevelReset .. => true
  | .hdmDecoderCommit .. => true
  | .ltrSend .. => true
  | .ideFail .. => true
  | .counterPageRead .. => true
  | .mailboxCommitDomain .. => true
  | .mailboxReadDomain .. => true
  | .installDomainKey .. => true
  | .destroyDomainKey .. => true
  | .getErrorRecords .. => true
  | .submitDescriptor .. => true
  | .getJobStatus .. => true
  | .getTierCapacity .. => true
  | .getDynamicCapacityExtentList .. => true
  | .addCapacityResponse .. => true
  | .releaseDynamicCapacity .. => true
  | .getPoisonList .. => true
  | .injectPoison .. => true
  | .clearPoison .. => true
  | .sanitize .. => true
  | .secureErase .. => true
  | .add _ w _ => gBelongs 0x100 w
  | .sub _ w _ => gBelongs 0x101 w
  | .and_ _ w _ => gBelongs 0x102 w
  | .or_ _ w _ => gBelongs 0x103 w
  | .xor_ _ w _ => gBelongs 0x104 w
  | .sll _ w _ => gBelongs 0x105 w
  | .srl _ w _ => gBelongs 0x106 w
  | .sra _ w _ => gBelongs 0x107 w
  | .mul _ w _ => gBelongs 0x108 w
  | .mulhu _ w _ => gBelongs 0x109 w
  | .divu _ w _ => gBelongs 0x10A w
  | .remu _ w _ => gBelongs 0x10B w
  | .minu _ w _ => gBelongs 0x10C w
  | .maxu _ w _ => gBelongs 0x10D w
  | .min _ w _ => gBelongs 0x10E w
  | .max _ w _ => gBelongs 0x10F w
  | .popc _ w _ => gBelongs 0x110 w
  | .clz _ w _ => gBelongs 0x111 w
  | .satadd _ w _ => gBelongs 0x112 w
  | .satsub _ w _ => gBelongs 0x113 w
  | .addi _ w _ => gBelongs 0x01 w
  | .andi _ w _ => gBelongs 0x02 w
  | .ori _ w _ => gBelongs 0x03 w
  | .xori _ w _ => gBelongs 0x04 w
  | .shi _ w _ => gBelongs 0x05 w
  | .movi _ w _ => gBelongs 0x06 w
  | .movk _ w _ => gBelongs 0x07 w
  | .cmpi _ w _ => gBelongs 0x0C w
  | .fop _ w _ => gBelongs 0x0D w
  | .sel _ w _ => gBelongs 0x0E w
  | .ldd _ w _ _ => gBelongs 0x10 w
  | .ldw _ w _ _ => gBelongs 0x11 w
  | .ldb _ w _ _ => gBelongs 0x12 w
  | .std _ w _ _ => gBelongs 0x13 w
  | .stw _ w _ _ => gBelongs 0x14 w
  | .stb _ w _ _ => gBelongs 0x15 w
  | .aadd _ w _ _ => gBelongs 0x16 w
  | .cas _ w _ _ => gBelongs 0x17 w
  | .fence _ w _ => gBelongs 0x18 w
  | .br _ w _ => gBelongs 0x1C w
  | .call _ w _ => gBelongs 0x1D w
  | .jr _ w _ => gBelongs 0x1E w
  | .mfs _ w _ => gBelongs 0x20 w
  | .ckpt _ w _ => gBelongs 0x22 w
  | .halt _ w _ => gBelongs 0x23 w
  | .trap _ w _ => gBelongs 0x24 w
  | .ckptLate .. => true
  | .crd _ w _ => gBelongs 0x28 w
  | .hscan _ w _ _ => gBelongs 0x29 w
  | .hscanDone .. => true
  | .mig _ w _ => gBelongs 0x2A w
  | .tstat _ w _ => gBelongs 0x2B w
  | .wait _ w _ => gBelongs 0x2C w
  | .waitReturn .. => true
  | .post _ w _ => gBelongs 0x2D w
  | .recv _ w _ => gBelongs 0x37 w
  | .domrd _ w _ => gBelongs 0x2E w
  | .tcan _ w _ => gBelongs 0x2F w
  | .cgb _ w _ => gBelongs 0x30 w
  | .domwr _ w _ => gBelongs 0x31 w
  | .rgwr _ w _ => gBelongs 0x32 w
  | .shwr _ w _ => gBelongs 0x33 w
  | .ctrw _ w _ => gBelongs 0x34 w
  | .cgc _ w _ => gBelongs 0x35 w
  | .cga _ w _ => gBelongs 0x36 w
  | .pset _ w _ => gBelongs 0x38 w
  | .plog _ w _ _ => gBelongs 0x39 w
  | .programRunStart .. => true
  | .timer .. => true
  | .descriptorTake .. => true
  | .completionWrite .. => true
  | .commitDomain .. => true
  | .readDomain .. => true
  | .loadProgram .. => true
  | .bind .. => true
  | .unbind .. => true
  | .suspend .. => true
  | .resume .. => true
  | .cancel .. => true
  | .restart .. => true
  | .unload .. => true
  | .signal .. => true
  | .setParam .. => true
  | .audit .. => true
  | .auditGranule .. => true
  | .migrateRange .. => true
  | .compact .. => true
  | .sanitizeScopeDomain .. => true
  | .sanitizeScopeOverwrite .. => true
  | .sanitizeScopeCryptoErase .. => true
  | .resize .. => true
  | .jobSuspend .. => true
  | .jobResume .. => true
  | .jobCancel .. => true
  | .jobStatus .. => true
  | .jobStart .. => true
  | .counterClear .. => true
  | .counterRead .. => true
  | .halyardArmTarget .. => true
  | .halyardArmRelative .. => true
  | .halyardArmExternal .. => true
  | .halyardDisarm .. => true
  | .halyardRelease .. => true
  | .halyardInEdge => true
  | .halyardSnapshot .. => true
  | .traceEnable .. => true
  | .traceSeedWrite .. => true
  | .traceDataRead .. => true
  | .traceTrigEdge .. => true
  | .faultRecordRead .. => true
  | .sramFault .. => true
  | .meshLink .. => true
  | .kill .. => true
  | .declare .. => true
  | .watchdogExpiry => true
  | .thermalTrip .. => true
  | .peatPageWrite .. => true
  | .cntWrite => true
  | .fullImageWrite .. => true
  | .logClear .. => true
  | .lastgaspFlush _ bad => decide (bad.length ≤ 4096)
  | .lastgaspDeadline => true
  | .feedDiePowerOn => true
  | .feedInRange .. => true
  | .windowLeft .. => true
  | .insertionDelayExpiry .. => true
  | .rampComplete .. => true
  | .startshort .. => true
  | .startTimeout .. => true
  | .breaker .. => true
  | .fastTrip .. => true
  | .retryDelayExpiry .. => true
  | .tripCountClear .. => true
  | .feedRemoval .. => true
  | .oringTurnOff .. => true
  | .oringTurnOn .. => true
  | .reversed .. => true
  | .reversedClear .. => true
  | .pgRise => true
  | .pgFall => true
  | .pfw .. => true
  | .flushDone => true
  | .releaseTimeout => true
  | .clra .. => true
  | .clrb .. => true
  | .clrt .. => true
  | .feedCommit .. => true
  | .feedCopy .. => true
  | .otpBurn .. => true
  | .heartbeat .. => true
  | .powerStateEntry => true
  | .wake .. => true
  | .exitComplete => true
  | .dozeTimer => true
  | .suppliesValid => true
  | .suppliesLost => true
  | .referenceCheck .. => true
  | .referenceLoss => true
  | .coldStart .. => true
  | .ready => true
  | .extentInitDone => true
  | .orderlyWarmReset .. => true
  | .immediateWarmReset .. => true
  | .drainComplete => true
  | .drainTimeout => true
  | .warmHoldEnd .. => true
  | .gtcSyncPulse => true
  | .gtcSyncEdge => true
  | .getId _ args => decide (args.length ≤ 253)
  | .getStatus _ args => decide (args.length ≤ 253)
  | .getRecord _ args => decide (args.length ≤ 253)
  | .getTelem _ args => decide (args.length ≤ 253)
  | .readWords _ args => decide (args.length ≤ 253)
  | .writeWords _ args => decide (args.length ≤ 253)
  | .sidebandResetOrderly _ rest => decide (rest.length ≤ 252)
  | .sidebandResetImmediate _ rest => decide (rest.length ≤ 252)
  | .clearAlert _ args => decide (args.length ≤ 253)
  | .alertResponse => true
  | .smbusTimeout => true
  | .i3cAddressAssignment .. => true
  | .sensorPoll .. => true
  | .tapInstruction .. => true
  | .spdmRequest .. => true
  | .setKek .. => true
  | .setCertificate _ _ chain => decide (chain.length ≤ 65535)
  | .spdmKeyDelivery .. => true
  | .ideKm .. => true
  | .lockWrite .. => true
  | .regulatorCommit .. => true
  | .regulatorCopyToStaging .. => true
  | .cxlLinkUp .. => true
  | .portL1Entry .. => true
  | .bisnpCredit .. => true
  | .prbsLock .. => true
  | .laneActive .. => true
  | .ringAnswerTimeout .. => true
  | .feedDieSupplyLoss => true

end Sys2Proof
end

