-- ==== Sys2Proof/Safety.lean ====
section
/-!
DEFINITION. What counts as a safe run: the block answers every command that can be sent to it with a state of its own, and the
words in which the statements speak of it.
-/
namespace Sys2Proof

open Sys2Proof.Machine

/-- A command answers with a state of which `P` holds. -/
def Does (c : Instr) (s : State) (P : State → Prop) : Prop := ∃ t, exec c s = .next t ∧ P t

/-- A command answers with a state from which the block has gone on as far as it can at once (`finish`); `P` holds of the state
as the command itself left it. -/
def Begins (c : Instr) (s : State) (P : State → Prop) : Prop := ∃ x, exec c s = .next x.finish ∧ P x

/-- Whether every command that waits is well formed. -/
def State.queueWf (s : State) : Bool := s.pending.all Instr.wf

/-- A run of `k` steps that stops nowhere. -/
def runs : Nat → State → Prop
  | 0, _ => True
  | k + 1, s => ∃ t, step s = .next t ∧ runs k t

/-- A safe state: however long the block runs, it never stops. -/
def Safe (s : State) : Prop := ∀ k, runs k s

/-! ### What a Grihar core's instruction leaves -/

/-- A core runs a word as a row's: the word is legal and of the row (R320, R321), the core is running with its PC inside its
program's image (R322), a host program's image holds the word there, no checkpoint is overdue (R333), and the predicate holds. -/
abbrev CoreRuns (s : State) (k : Nat) (w : BitVec 32) (row : Nat) : Prop :=
  gIllegal w = false ∧ gRow w = row ∧ s.coreSt k = 1 ∧ (s.gcore k).pc < (s.gcore k).imageLen ∧
    ((s.gcore k).host = true → (s.gcore k).imem.get ((s.gcore k).pc / 4) = w) ∧ (s.gcore k).ckclk < checkLimit k ∧
    (s.gcore k).flag (gFlag w) ≠ gNeg w

/-- From `s` to `t`, core `k` has become `c`, its PC shows in its status register, and nothing else has changed: no other core,
no other register, no other part of the state. -/
def CoreBecomes (s t : State) (k : Nat) (c : GCore) : Prop :=
  t = { s with regs := t.regs, core := { s.core with cores := t.core.cores } } ∧
  (∀ j, j ≠ k → t.gcore j = s.gcore j) ∧
  (∀ off, off ≠ (corePc k).off → t.reg off = s.reg off) ∧
  t.reg (corePc k).off = setFld (s.reg (corePc k).off) 17 0 (c.pc % 2 ^ 18) ∧
  t.gcore k = c

/-- From `s` to `t`, core `k` has gone on to a PC after some clocks, with new general registers and flags, and nothing else has
changed. -/
def CoreGoesOn (s t : State) (k clk pc : Nat) : Prop :=
  ∃ g f, CoreBecomes s t k { s.gcore k with g := g, f := f, pc := pc, ckclk := (s.gcore k).ckclk + clk }

/-- General register `rd` of core `k` holds `v`, unless it is g0, which reads 0; the others and the flags are as before. -/
def WritesG (s t : State) (k rd : Nat) (v : BitVec 64) : Prop :=
  (∀ r, t.g k r = if r = rd ∧ rd ≠ 0 then v else s.g k r) ∧ t.g k 0 = 0 ∧ (t.gcore k).f = (s.gcore k).f

/-- Flag `fd` of core `k` holds `v`, unless it is f0, which reads 1; the others and the general registers are as before. -/
def WritesF (s t : State) (k fd : Nat) (v : Bool) : Prop :=
  (∀ i, i < 8 → (t.gcore k).flag i = if i = fd ∧ fd ≠ 0 then v else (s.gcore k).flag i) ∧ (t.gcore k).flag 0 = true ∧
    (t.gcore k).g = (s.gcore k).g

/-- An instruction that writes `rd`, takes some clocks and goes on at the next word. -/
def Computes (c : Instr) (s : State) (k rd clk : Nat) (v : BitVec 64) : Prop :=
  Does c s fun t => CoreGoesOn s t k clk ((s.gcore k).pc + 4) ∧ WritesG s t k rd v

/-- The byte at an address of a core's data SRAM. -/
def coreByte (c : GCore) (a : Nat) : Byte := (c.dmem.get (a / 8)).extractLsb' (8 * (a % 8)) 8
/-- The byte at an offset of the policy scratch. -/
def scratchByte (s : State) (a : Nat) : Byte := (s.core.scratch.get (a / 8)).extractLsb' (8 * (a % 8)) 8
/-- `n` bytes from an address, little-endian, as a 64-bit word. -/
def bytesFrom (byte : Nat → Byte) (a n : Nat) : BitVec 64 :=
  BitVec.ofNat 64 ((List.range n).foldl (fun x i => x + (byte (a + i)).toNat * 2 ^ (8 * i)) 0)

/-- The main die can be reached from a core: not GA in Banked or Cinder (R319, R323). -/
abbrev MainOn (s : State) (k : Nat) : Prop := k ≠ 8 ∨ (s.rd R.PS_STAT_STATE ≠ 2 ∧ s.rd R.PS_STAT_STATE ≠ 3)

/-- No load and no request waits for a core's run to end. -/
abbrev CoreQuiet (s : State) (k : Nat) : Prop := (s.gcore k).load = none ∧ (s.gcore k).asked = []

/-- A core that has faulted with a cause: FCAUSE and the PC are in its status register; its registers, flags and PC stand; its
open group is gone. -/
def CoreFaulted (s t : State) (k cause : Nat) : Prop :=
  t.coreSt k = 4 ∧ t.rd (coreCause k) = cause ∧ t.rd (corePc k) = (s.gcore k).pc % 2 ^ 18 ∧ (t.gcore k).g = (s.gcore k).g ∧
    (t.gcore k).f = (s.gcore k).f ∧ (t.gcore k).pc = (s.gcore k).pc ∧ (t.gcore k).group = none

/-- The lowest free ticket of a core (R324). -/
abbrev LowestFree (c : GCore) (tk : Nat) : Prop :=
  tk < 16 ∧ (c.tickets.get tk).st = 0 ∧ ∀ i, i < tk → (c.tickets.get i).st ≠ 0

/-! ### The feed die -/

/-- Feed `x` has gone to state `st` with its breaker's accumulators at 0; the other feed's state, the settings and the OTP stand. -/
def FeedMoves (s t : State) (x : Feed) (st : Nat) : Prop :=
  t.feedSt x = st ∧ (∀ y, y ≠ x → t.feedSt y = s.feedSt y) ∧ (∀ k, k < 8 → t.feed.acc.get (feedIx x * 8 + k) = 0) ∧
    t.feed.on = s.feed.on ∧ t.feed.set = s.feed.set ∧ t.feed.otp = s.feed.otp

/-- The feed die has logged one event of a code at `EVHEAD` and moved `EVHEAD` on (R422). -/
def FeedLogs (s t : State) (code : Nat) : Prop :=
  t.rd (R.FD_EVT_CODE (s.rd R.FD_STAT_EVHEAD)) = code ∧ t.rd R.FD_STAT_EVHEAD = (s.rd R.FD_STAT_EVHEAD + 1) % 16

/-- A path can reach a register with an access that acts: the main die is out of reset and awake in Blaze with nothing being
entered, `READY` is set, and no lock shuts the path (R434, R441, R456, R467). -/
abbrev Reachable (s : State) (p : Path) : Prop :=
  s.boot.hold = false ∧ s.pathShut p = false ∧ s.pow.target = none ∧ s.rd R.PS_STAT_STATE = 0 ∧
    s.flag R.CHIP_BOOTSTAT_READY = true

/-- A value can be written to a register through a path and acts whole: no field is locked (R16) and none takes a reserved or
out-of-range value (R494). -/
abbrev Writable (s : State) (p : Path) (off : Nat) (v : BitVec 32) : Prop :=
  Reachable s p ∧ s.lockedFields off = [] ∧ legalWrite off v = true

/-- What a head's DOE answers to: its port open with a link and out of L1, the device ready, awake with nothing being entered. -/
abbrev DoeOpen (s : State) (p : Fin 32) : Prop :=
  s.portOpen p = true ∧ s.flag R.CHIP_BOOTSTAT_READY = true ∧ s.boot.hold = false ∧ (s.head p).l1 = false ∧
    s.rd R.PS_STAT_STATE = 0 ∧ s.pow.target = none

/-- The bases of registers of a region's units whose write does more than take its fields. -/
def actingUnitRegs : List Nat :=
  [R.CH_SCHED 0, R.CH_REFCTL 0, R.CH_MAINT 0, R.CH_INJCTL 0, R.CH_MARK 0 0, R.KS_OPCTL 0, R.KS_WAYDIS 0, R.SH_CTL 0,
    R.SH_BKT 0 0, R.TR_CTL 0, R.TR_SEED 0, R.RC_C_CTL 0 0, R.RC_C_FILT 0 0]

/-- A register of a region's units whose write takes its fields and does no more. -/
abbrev PlainUnitReg (off : Nat) (r : RegRow) : Prop :=
  regRow off = some r ∧ 0x1100000 ≤ r.base ∧ r.base ∉ actingUnitRegs

/-- A record of a type and place is held, its newest occurrence now; no register but the next index changed in writing it. -/
def RecordedNow (s t : State) (type loc : Nat) : Prop :=
  (∃ r ∈ t.flt.ring, r.type = type ∧ r.loc = loc ∧ r.gtcN = s.gtc) ∧ ∀ off, off ≠ R.CF_NEXT_NEXT.off → t.reg off = s.reg off

/-! ### Command rings and jobs -/

/-- A descriptor that a ring has taken and that has not been acted on, while the rings are in service (R347). -/
abbrev Taken (s : State) (k : Nat) (d : BitVec 1024) : Prop :=
  (s.ringOf k).cur = some d ∧ (s.ringOf k).begun = false ∧ s.ringsOn = true

/-- The descriptor's first completion of a ring waits to be written, after those that waited already (R347, R349). -/
def Completes (s t : State) (k : Nat) (d : BitVec 1024) (status kind job : Nat) (result : List Byte) : Prop :=
  (t.ringOf k).due = (s.ringOf k).due ++ [(completion (descTag d) (descOp d) status kind job result, descIrq d)]

/-- A job accepted from a ring's descriptor: the newest of those not Done, with the next identifier (R349, R353). -/
def Accepts (s t : State) (k : Nat) (d : BitVec 1024) (P : Job → Prop) : Prop :=
  ∃ j, t.ring.jobs = s.ring.jobs ++ [j] ∧ j.id = s.ring.nextJob % (2 ^ 32 - 1) + 1 ∧ t.ring.nextJob = j.id ∧ j.op = descOp d ∧
    j.src = k ∧ Completes s t k d 0 2 j.id [] ∧ P j

/-- A job descriptor refused with a status: its completion is due, and no job is added. -/
def RefusesJob (s t : State) (k : Nat) (d : BitVec 1024) (status : Nat) : Prop :=
  Completes s t k d status 2 0 [] ∧ t.ring.jobs = s.ring.jobs

/-- What a head's mailbox answers to: its DOE's conditions, the device-specific commands enabled, and no command in progress. -/
abbrev MailboxOpen (s : State) (p : Fin 32) : Prop :=
  DoeOpen s p ∧ s.flag (R.PG_CXLCFG_MBXEN (s.place p).group) = true ∧ (s.head p).bg = none ∧ s.ring.subs.get p = none

/-- The state with the head's mailbox enabled, as its first command leaves it. -/
def mailboxUsed (s : State) (p : Fin 32) : State := s.updHead p fun h => { h with mbx := true }

/-- A mailbox command answered with a return code and output, and nothing else changed but that the mailbox is enabled. -/
def AnswersMailbox (s t : State) (p : Fin 32) (op : Nat) (rc : RetCode) (status : Nat) (out : List Byte) : Prop :=
  t = (mailboxUsed s p).send (.mailbox p op rc status out)

/-- A channel's event answers with a state from which a retirement that can end has ended and the block has gone on (`chanDone`);
`P` holds of the state as the event itself left it. -/
def Drives (c : Instr) (s : State) (n : Nat) (P : State → Prop) : Prop := ∃ x, exec c s = .next (x.chanDone n) ∧ P x

/-- A record of a type, class and channel is held, its newest occurrence now. -/
def ChannelRecord (s t : State) (n type cls : Nat) : Prop :=
  ∃ y ∈ t.flt.ring, y.type = type ∧ y.cls = cls ∧ y.unit = n ∧ y.gtcN = s.gtc

/-- A channel holds no read, no write and no merge, and no retirement waits for it. -/
abbrev ChannelEmpty (s : State) (n : Nat) : Prop :=
  (∀ b, b < 2 → (s.sub n b).reads = [] ∧ (s.sub n b).wq = []) ∧ (s.dram.chans.get n).merges = [] ∧
    (s.dram.chans.get n).retireWait = none

/-- A subchannel at a clock of its scheduler, before it has chosen a command. -/
def slotStart (s : State) (n b : Nat) : State := ((s.tickClock n b).drainSync n b).dropScrubs n

/-- A subchannel whose next command can only be that of its one demand read: classes 1 to 4 leave it the slot, the background class has
nothing, and the read may go. -/
abbrev OneRead (s : State) (n b : Nat) (e : RdEntry) : Prop :=
  (slotStart s n b).highIdle n b = true ∧ (slotStart s n b).pickBg n b = none ∧ (s.sub n b).rq = [e] ∧
    (slotStart s n b).readFree n e = true

/-- A command answers with a state from which homes and snoops have gone on as far as they can at once (`settleAll`); `P` holds
of the state as the command itself left it. -/
def Settles (c : Instr) (s : State) (P : State → Prop) : Prop := ∃ x, exec c s = .next x.settleAll ∧ P x

/-- A key operation of a path that finds none in progress there and no walk that the path still awaits (R158). -/
abbrev KeyPathFree (s : State) (p : Path) : Prop :=
  Reachable s p ∧ s.flag (R.SEC_KEYSTAT_BUSY.on p) = false ∧ ∀ x ∈ s.eng.erases, x.path ≠ some p

/-- A key operation has ended with a status for a domain: its staging words are zero. -/
def KeyDone (t : State) (p : Path) (d status : Nat) : Prop :=
  t.rd (R.SEC_KEYSTAT_STATUS.on p) = status ∧ t.rd (R.SEC_KEYSTAT_DOMAIN.on p) = d ∧ t.flag (R.SEC_KEYSTAT_BUSY.on p) = false ∧
    ∀ k, k < 30 → t.reg (pathOff p (R.SEC_KEYSTAGE k)) = 0

/-- A port's host can be heard at once: its port is open and out of L1, and the device is awake with nothing being entered. -/
abbrev HostOpen (s : State) (p : Fin 32) : Prop :=
  s.portOpen p = true ∧ (s.head p).l1 = false ∧ s.rd R.PS_STAT_STATE = 0 ∧ s.pow.target = none

/-- A host's request is offered for admission as an operation on a line of a domain (R47, R219): what it does to the queues is the
offer's, everything before it leaves the admission queues and the transactions alone. -/
def Offered (s x : State) (p : Fin 32) (dec : Nat) (op : ReqOp) (line d : Nat) (e : Entry) : Prop :=
  ∃ (y : State) (r : Req), x = y.offer (s.place p).group
      { req := r, master := s.hostMaster p dec, cls := e.qclass, lines := 1, accepted := false } ∧
    r.op = op ∧ r.addr = line ∧ r.dom = d ∧ r.entry = e ∧ r.agent = .host p ∧ y.rgl = s.rgl ∧ y.coh = s.coh

/-- The line of a host physical address. -/
abbrev hpaLine (hpa : BitVec 64) : Nat := hpa.toNat / 64 * 64

/-- A host's request with a credit on an open port, whose address a committed decoder translates to a line of an unpaced domain that its
port may access and whose key is there, from a source that is not paced. -/
abbrev MayAsk (s : State) (p : Fin 32) (hpa : BitVec 64) (dec line d : Nat) (e : Entry) (write : Bool) : Prop :=
  HostOpen s p ∧ s.m2sCredit p write = true ∧ s.translate p (hpaLine hpa) = some (dec, line) ∧ s.dom.dcache.get (s.place p).group = [] ∧
    s.domOf line = some (d, e) ∧ (if write then e.wrPorts.testBit p else e.rdPorts.testBit p) = true ∧ s.keyAbsent d e = false ∧
    e.paced = false ∧ s.pacedSource p = false

/-- A host's request refused with a record of its port. -/
def HostRefused (s x : State) (p : Fin 32) (type line : Nat) : Prop :=
  (∃ z ∈ x.flt.ring, z.type = type ∧ z.unit = p.val ∧ z.loc = line ∧ z.gtcN = s.gtc) ∧ x.coh = s.coh ∧ x.dram = s.dram

/-- A peer's message is taken at once: neither this device nor the peer is lost, and the device is awake with nothing being
entered. -/
abbrev PeerOpen (s : State) (d : Fin 16) : Prop :=
  s.flag R.CF_STAT_DEVLOST = false ∧ s.peerLost d = false ∧ s.rd R.PS_STAT_STATE = 0 ∧ s.pow.target = none

/-- `x` is `y` with one message more sent to a peer, of which `P` holds. -/
def Replies (y x : State) (d : Fin 16) (P : Msg → Prop) : Prop := ∃ m, x = y.toPeer m ∧ m.dst = d.val ∧ P m

/-- A peer's request or mirror message refused (R97): recorded with its DPA, and answered Err with a code. -/
def RefusedPeer (s x : State) (d : Fin 16) (txn a err : Nat) : Prop :=
  (∃ z ∈ x.flt.ring, z.type = 0x0402 ∧ z.unit = d.val ∧ z.loc = a ∧ z.gtcN = s.gtc) ∧ x.coh = s.coh ∧
    ∃ m, x.link.outq.get d = s.link.outq.get d ++ [m] ∧ m.opc = 0x45 ∧ m.err = err ∧ m.txn = txn

/-- What a peer's request does (R49, R85, R97): NO_DOMAIN where no domain holds its line, NOT_HOME where it is not homed here, else
it is offered for admission as its operation on that line. -/
def PeerAsks (c : Instr) (s : State) (src : Fin 16) (txn : BitVec 12) (addr : BitVec 44) (op : ReqOp) : Prop :=
  PeerOpen s src →
    (s.servedDomain (addr.toNat % 2 ^ 40 * 64) = none → Settles c s fun x =>
      RefusedPeer s x src txn.toNat (addr.toNat % 2 ^ 40 * 64) 1) ∧
    ∀ k e, s.servedDomain (addr.toNat % 2 ^ 40 * 64) = some (k, e) →
      (addr.toNat / 2 ^ 40 ≠ s.devNum ∨ s.homedHere e (addr.toNat % 2 ^ 40 * 64) = false → Settles c s fun x =>
        RefusedPeer s x src txn.toNat (addr.toNat % 2 ^ 40 * 64) 2) ∧
      (addr.toNat / 2 ^ 40 = s.devNum → s.homedHere e (addr.toNat % 2 ^ 40 * 64) = true → s.sanitized k = false → s.keyAbsent k e = false →
        e.paced = false → s.pacedSource (32 + src) = false → Settles c s fun x => ∃ (y : State) (g : Nat) (r : Req),
          x = y.offer g { req := r, master := 256 + src, cls := e.qclass, lines := 1, accepted := false } ∧ r.op = op ∧
            r.addr = addr.toNat % 2 ^ 40 * 64 ∧ r.tag = txn.toNat ∧ r.agent = .peer src ∧ r.dom = k ∧ r.entry = e ∧
            y.rgl = s.rgl ∧ y.coh = s.coh)

/-- No work of this device on a line keeps a snoop of it waiting or held (R74, R88). -/
abbrev NoWork (s : State) (a : Nat) : Prop := (∀ t ∈ s.coh.reqs, t.line / 64 ≠ a / 64) ∧ s.coh.recalls = [] ∧ s.coh.txs = []

/-- What a response without data does at its home (R85, R86): counted where the transaction awaits its sender, else nothing. -/
def Counts (c : Instr) (s : State) (src : Fin 16) (txn : BitVec 12) (fwd : Bool) : Prop :=
  PeerOpen s src →
    ((∀ t, s.tx txn.toNat = some t → t.phase ≠ .snoop ∨ src.val ∉ t.peers) → Settles c s fun x => x.coh = s.coh ∧ x.dram = s.dram) ∧
    ∀ t, s.tx txn.toNat = some t → t.phase = .snoop → src.val ∈ t.peers → Settles c s fun x => ∃ (y : State) (u : HomeTx),
      x = y.advance t.id ∧ y.tx t.id = some u ∧ u.peers = t.peers.erase src ∧ u.fwded = (t.fwded || fwd) ∧ y.kind = s.kind ∧
        y.dram = s.dram

/-- What a response with data does at its home: the data is taken up as the home's, then the response counted. -/
def CountsData (c : Instr) (s : State) (src : Fin 16) (txn : BitVec 12) (poison : Bool) (data : Line) (fwd : Bool) : Prop :=
  PeerOpen s src →
    ((∀ t, s.tx txn.toNat = some t → t.phase ≠ .snoop ∨ src.val ∉ t.peers) → Settles c s fun x => x.coh = s.coh ∧ x.dram = s.dram) ∧
    ∀ t, s.tx txn.toNat = some t → t.phase = .snoop → src.val ∈ t.peers → Settles c s fun x => ∃ (y : State) (m : Msg),
      x = (y.absorb t.line data poison).onResponse m fwd ∧
        m.src = src.val ∧ m.txn = txn.toNat ∧ m.wbp = false ∧ y.coh = s.coh ∧ y.kind = s.kind ∧ y.dram = s.dram

/-- The one tracker entry of a transaction number, for a transaction with a peer. -/
abbrev Tracks (s : State) (src : Fin 16) (txn : BitVec 12) (t : ReqTrack) : Prop :=
  t ∈ s.coh.reqs ∧ t.txn = txn.toNat ∧ t.home = src.val ∧ ∀ u ∈ s.coh.reqs, u.txn = txn.toNat → u = t

/-- From `s` to `y`, a tracker entry has been freed, and the rest of the coherence state stands. -/
def Freed (s y : State) (t : ReqTrack) : Prop := y.coh = { s.coh with reqs := s.coh.reqs.filter fun u => u.txn != t.txn }

/-- What line data does at its requester (R83, Table 04-7): it serves the host; a line granted E is installed and its request goes on;
data that nothing awaits is dropped. -/
def Arrives (c : Nat → Instr) (s : State) (src : Fin 16) (txn : BitVec 12) (poison : Bool) (data : Line) : Prop :=
  PeerOpen s src →
    (∀ t, Tracks s src txn t → t.wait = .isd ∨ t.wait = .imd ∨ t.wait = .smd → Settles (c 0) s fun x => ∃ y : State,
      x = (y.toHost t.req true data poison 0).answerHeld t ∧ Freed s y t) ∧
    (∀ t w, Tracks s src txn t → t.wait = .isd ∨ t.wait = .imd ∨ t.wait = .smd → s.kWay t.req.slice t.req.addr = some w →
      s.coh.recalls = [] → (∀ v ∈ s.coh.txs, v.touches t.req.addr = false) → Settles (c 3) s fun x => ∃ y : State,
        x = (y.startReq t.req).answerHeld t ∧ Freed s y t ∧
          let l := y.kLine t.req.slice (kSet t.req.addr) w
          l.st = .peerE ∧ l.data = data ∧ l.poison = poison) ∧
    ((∀ t ∈ s.coh.reqs, t.txn ≠ txn.toNat) → Settles (c 0) s fun x => x.coh = s.coh ∧ x.kind = s.kind)

/-! ### The queue, the cores' plain work and its invariant -/

/-- Whether a command is plain work of a Grihar core: an instruction that neither accesses memory nor issues anything, the start
of a run, a timer or a late checkpoint. -/
def CoreWork (c : Instr) : Bool :=
  match c with
  | .add .. | .sub .. | .and_ .. | .or_ .. | .xor_ .. | .sll .. | .srl .. | .sra .. | .mul .. | .mulhu .. => true
  | .divu .. | .remu .. | .minu .. | .maxu .. | .min .. | .max .. | .popc .. | .clz .. | .satadd .. | .satsub .. => true
  | .addi .. | .andi .. | .ori .. | .xori .. | .shi .. | .movi .. | .movk .. | .sel .. | .mfs .. => true
  | .cmpi .. | .fop .. | .fence .. | .br .. | .call .. | .jr .. | .ckpt .. | .halt .. | .trap .. => true
  | .programRunStart .. | .timer .. | .ckptLate .. => true
  | _ => false

/-- What holds of the cores at every step of their plain work: each PC is a multiple of 4 and shows in the core's status register,
no load and no request waits for a run to end, and the register table and the cores' general registers are in canonical form. The
commands that wait are such work and well formed, and no drain is in progress. -/
def CoreInv (s : State) : Prop :=
  (∀ k : Fin 9, (s.gcore k).pc % 4 = 0 ∧ s.rd (corePc k) = (s.gcore k).pc % 2 ^ 18 ∧ CoreQuiet s k ∧ (s.gcore k).g.wf = true) ∧
    s.regs.wfD (fun o => regReset (o % 2 ^ 28)) = true ∧ s.core.cores.wf = true ∧
    s.boot.drain = none ∧ ∀ c ∈ s.pending, CoreWork c = true ∧ c.wf = true

end Sys2Proof
end

