-- ==== Sys2Proof/Certificates/Slice0/Obligations.lean ====
section
/-!
DEFINITION. The statements about the model, for the provers: one proposition each, with what it formalises.
-/
open Sys2Proof Sys2Proof.Machine

/-- Each computing instruction of a core, and each that moves, selects or reads a special register, completes with its result in
rd. A running core whose predicate holds executes ADD, SUB, AND, OR, XOR, SLL, SRL, SRA, MUL, MULHU, DIVU, REMU, MINU, MAXU,
MIN, MAX, POPC, CLZ, SATADD and SATSUB to a next state: rd holds what Table 14-6 gives (g0 stays 0), CKCLK rises by the
clocks of the table, the PC moves to the next word, and nothing else of the state changes. A running core whose predicate
holds executes ADDI, ANDI, ORI, XORI, SHI, MOVI, MOVK, SEL and MFS to a next state with rd as Table 14-5 gives it
(immediates sign-extended; MOVKh replaces bits 16h+15 to 16h; MFS reads Table 14-2), its clocks counted, the PC at the next
word and nothing else changed. (R317, R322, R333, Table 14-6, R320, Table 14-2) -/
def Obligations.ComputingInstructionsWriteRd : Prop :=
  ∀ (s : State) (k : Fin 9) (w : BitVec 32),
    let a := s.g k (gRa w)
    let b := s.g k (gRb w)
    let n := b.toNat % 64
    let c := s.gcore k
    let i := (w.extractLsb' 0 12).signExtend 64
    let h := fld w 5 0
    (CoreRuns s k w 0x100 → Computes (.add k w false) s k (gRd w) 1 (a + b)) ∧
    (CoreRuns s k w 0x101 → Computes (.sub k w false) s k (gRd w) 1 (a - b)) ∧
    (CoreRuns s k w 0x102 → Computes (.and_ k w false) s k (gRd w) 1 (a &&& b)) ∧
    (CoreRuns s k w 0x103 → Computes (.or_ k w false) s k (gRd w) 1 (a ||| b)) ∧
    (CoreRuns s k w 0x104 → Computes (.xor_ k w false) s k (gRd w) 1 (a ^^^ b)) ∧
    (CoreRuns s k w 0x105 → Computes (.sll k w false) s k (gRd w) 1 (a <<< n)) ∧
    (CoreRuns s k w 0x106 → Computes (.srl k w false) s k (gRd w) 1 (a >>> n)) ∧
    (CoreRuns s k w 0x107 → Computes (.sra k w false) s k (gRd w) 1 (BitVec.ofInt 64 (a.toInt / 2 ^ n))) ∧
    (CoreRuns s k w 0x108 → Computes (.mul k w false) s k (gRd w) 3 (BitVec.ofNat 64 (a.toNat * b.toNat))) ∧
    (CoreRuns s k w 0x109 → Computes (.mulhu k w false) s k (gRd w) 3 (BitVec.ofNat 64 (a.toNat * b.toNat / 2 ^ 64))) ∧
    (CoreRuns s k w 0x10A → Computes (.divu k w false) s k (gRd w) 34
      (if b.toNat = 0 then BitVec.allOnes 64 else BitVec.ofNat 64 (a.toNat / b.toNat))) ∧
    (CoreRuns s k w 0x10B → Computes (.remu k w false) s k (gRd w) 34
      (if b.toNat = 0 then a else BitVec.ofNat 64 (a.toNat % b.toNat))) ∧
    (CoreRuns s k w 0x10C → Computes (.minu k w false) s k (gRd w) 1 (BitVec.ofNat 64 (min a.toNat b.toNat))) ∧
    (CoreRuns s k w 0x10D → Computes (.maxu k w false) s k (gRd w) 1 (BitVec.ofNat 64 (max a.toNat b.toNat))) ∧
    (CoreRuns s k w 0x10E → Computes (.min k w false) s k (gRd w) 1 (BitVec.ofInt 64 (min a.toInt b.toInt))) ∧
    (CoreRuns s k w 0x10F → Computes (.max k w false) s k (gRd w) 1 (BitVec.ofInt 64 (max a.toInt b.toInt))) ∧
    (CoreRuns s k w 0x110 → Computes (.popc k w false) s k (gRd w) 1
      (BitVec.ofNat 64 ((List.range 64).filter fun i => a.getLsbD i).length)) ∧
    (CoreRuns s k w 0x111 → ∃ z, z ≤ 64 ∧ (∀ i, i < z → a.getLsbD (63 - i) = false) ∧ (z < 64 → a.getLsbD (63 - z) = true) ∧
      Computes (.clz k w false) s k (gRd w) 1 (BitVec.ofNat 64 z)) ∧
    (CoreRuns s k w 0x112 → Computes (.satadd k w false) s k (gRd w) 1 (BitVec.ofNat 64 (min (a.toNat + b.toNat) (2 ^ 64 - 1)))) ∧
    (CoreRuns s k w 0x113 → Computes (.satsub k w false) s k (gRd w) 1 (BitVec.ofNat 64 (a.toNat - b.toNat))) ∧
    (CoreRuns s k w 0x01 → Computes (.addi k w false) s k (gRd w) 1 (a + i)) ∧
    (CoreRuns s k w 0x02 → Computes (.andi k w false) s k (gRd w) 1 (a &&& i)) ∧
    (CoreRuns s k w 0x03 → Computes (.ori k w false) s k (gRd w) 1 (a ||| i)) ∧
    (CoreRuns s k w 0x04 → Computes (.xori k w false) s k (gRd w) 1 (a ^^^ i)) ∧
    (CoreRuns s k w 0x05 → Computes (.shi k w false) s k (gRd w) 1
      (match fld w 7 6 with
        | 0 => a <<< h
        | 1 => a >>> h
        | 2 => a.sshiftRight h
        | _ => (a >>> h) ||| (a <<< ((64 - h) % 64)))) ∧
    (CoreRuns s k w 0x06 → Computes (.movi k w false) s k (gRd w) 1 ((w.extractLsb' 0 17).signExtend 64)) ∧
    (CoreRuns s k w 0x07 → Computes (.movk k w false) s k (gRd w) 1
      (setFld (s.g k (gRd w)) (16 * (gOp w - 7) + 15) (16 * (gOp w - 7)) (fld w 15 0))) ∧
    (CoreRuns s k w 0x0E → Computes (.sel k w false) s k (gRd w) 1 (if c.flag (fld w 6 4) then a else s.g k (gRb w))) ∧
    (CoreRuns s k w 0x20 → Computes (.mfs k w false) s k (gRd w) 2 (BitVec.ofNat 64
      (match fld w 11 0 with
        | 0 => s.gtc
        | 1 => k.val + if c.host then 16 else 0
        | 2 => c.event
        | 3 => c.evarg
        | 4 => c.ckclk
        | _ => c.run)))

/-- CMP and CMPI, FOP, FENCE, BR, CALL and JR complete with the flag, link and PC the table gives. A running core whose
predicate holds executes a comparison (of rb or of the sign-extended immediate, signed and unsigned), a flag operation,
FENCE, BR, CALL and a JR to an aligned address to a next state: only the flag fd, or the link register, and the PC change as
Table 14-5 gives. (R317, R319, R322, R333) -/
def Obligations.FlagAndBranchInstructions : Prop :=
  ∀ (s : State) (k : Fin 9) (w : BitVec 32),
    let c := s.gcore k
    let next := c.pc + 4
    let target := (BitVec.ofNat 64 c.pc + (w.extractLsb' 0 22).signExtend 64 * 4).toNat
    let a := s.g k (fld w 15 11)
    let b := if gOp w = 0x0B then s.g k (fld w 10 6) else (w.extractLsb' 0 11).signExtend 64
    (CoreRuns s k w 0x0C → Does (.cmpi k w false) s fun t => CoreGoesOn s t k 1 next ∧
      WritesF s t k (fld w 21 19)
        (match fld w 18 16 with
          | 0 => decide (a = b)
          | 1 => decide (a ≠ b)
          | 2 => decide (a.toInt < b.toInt)
          | 3 => decide (a.toInt ≥ b.toInt)
          | 4 => decide (a.toNat < b.toNat)
          | 5 => decide (a.toNat ≥ b.toNat)
          | _ => decide (a &&& b ≠ 0))) ∧
    (CoreRuns s k w 0x0D → Does (.fop k w false) s fun t => CoreGoesOn s t k 1 next ∧
      WritesF s t k (fld w 21 19)
        (match fld w 12 11 with
          | 0 => c.flag (fld w 18 16) && c.flag (fld w 15 13)
          | 1 => c.flag (fld w 18 16) || c.flag (fld w 15 13)
          | 2 => xor (c.flag (fld w 18 16)) (c.flag (fld w 15 13))
          | _ => c.flag (fld w 18 16) && !c.flag (fld w 15 13))) ∧
    (CoreRuns s k w 0x18 → Does (.fence k w false) s fun t =>
      CoreGoesOn s t k 1 next ∧ (t.gcore k).g = c.g ∧ (t.gcore k).f = c.f) ∧
    (CoreRuns s k w 0x1C → Does (.br k w false) s fun t =>
      CoreGoesOn s t k 3 target ∧ (t.gcore k).g = c.g ∧ (t.gcore k).f = c.f) ∧
    (CoreRuns s k w 0x1D → Does (.call k w false) s fun t =>
      CoreGoesOn s t k 3 target ∧ WritesG s t k 31 (BitVec.ofNat 64 next)) ∧
    (CoreRuns s k w 0x1E → (s.g k (gRa w)).toNat % 4 = 0 → Does (.jr k w false) s fun t =>
      CoreGoesOn s t k 3 (s.g k (gRa w)).toNat ∧ WritesG s t k (gRd w) (BitVec.ofNat 64 next))

/-- Where an instruction of a core faults, and what a fault leaves. TRAP, a JR to a misaligned address, a fetch outside the
image and an illegal word each leave the core Faulted with the cause of Table 14-13 in FCAUSE and the PC in its status
register, its general registers and flags as they were, and no open group; an instruction whose predicate fails only takes
one clock and goes on. (R320, R321, R322, R338, R346, Table 14-13) -/
def Obligations.CoreFaultsStopTheRun : Prop :=
  ∀ (s : State) (k : Fin 9) (w : BitVec 32), CoreQuiet s k →
    let c := s.gcore k
    (CoreRuns s k w 0x24 → Does (.trap k w false) s fun t => CoreFaulted s t k 0xC) ∧
    (CoreRuns s k w 0x1E → (s.g k (gRa w)).toNat % 4 ≠ 0 → Does (.jr k w false) s fun t => CoreFaulted s t k 0x4) ∧
    (s.coreSt k = 1 → c.imageLen ≤ c.pc → gRow w = 0x100 → Does (.add k w false) s fun t => CoreFaulted s t k 0x5) ∧
    (gIllegal w = true → s.coreSt k = 1 → c.pc < c.imageLen → (c.host = true → c.imem.get (c.pc / 4) = w) →
      c.ckclk < checkLimit k → Does (.add k w false) s fun t => CoreFaulted s t k 0x1) ∧
    (gIllegal w = false → gRow w = 0x100 → s.coreSt k = 1 → c.pc < c.imageLen →
      (c.host = true → c.imem.get (c.pc / 4) = w) → c.ckclk < checkLimit k → c.flag (gFlag w) = gNeg w →
      Does (.add k w false) s fun t => CoreBecomes s t k { c with pc := c.pc + 4, ckclk := c.ckclk + 1 })

/-- Loads of a core read its data SRAM and the scratch, and AADD and CAS read and change one scratch word. An aligned LDD, LDW
or LDB whose effective address lies in the core's own data SRAM completes in 3 clocks with the bytes there, zero-extended,
in rd; one of a ROM program in the policy scratch completes in 30 clocks with the bytes of the scratch. Nothing else
changes. An AADD or CAS of a ROM program on an aligned address in the policy scratch completes in 40 clocks with the old
word in rd; the word becomes old + rb for AADD, and for CAS rb where old equals rd and itself otherwise; every other word of
the scratch is as before. (R318, R319, R322, Table 14-3, Table 14-5) -/
def Obligations.CoreMemoryLoadsAndAtomics : Prop :=
  ∀ (s : State) (k : Fin 9) (w : BitVec 32),
    let c := s.gcore k
    let a := (s.g k (gRa w) + (w.extractLsb' 0 12).signExtend 64).toNat
    let own := fun (n : Nat) => a % n = 0 ∧ a < 0x7E000
    let scr := fun (n : Nat) => a % n = 0 ∧ 0x10000000 ≤ a ∧ a < 0x10800000 ∧ c.host = false ∧ MainOn s k
    let x := a - 0x10000000
    let m := (s.g k (gRa w)).toNat
    let i := (m - 0x10000000) / 8
    let old := s.core.scratch.get i
    let b := s.g k (gRb w)
    let fine := m % 8 = 0 ∧ 0x10000000 ≤ m ∧ m < 0x10800000 ∧ c.host = false ∧ MainOn s k
    let ends := fun (new : BitVec 64) (t : State) =>
      (∃ mem g, CoreBecomes { s with core := { s.core with scratch := mem } } t k
        { c with g := g, pc := c.pc + 4, ckclk := c.ckclk + 40 }) ∧
      WritesG s t k (gRd w) old ∧ t.core.scratch.get i = new ∧ ∀ j, j ≠ i → t.core.scratch.get j = s.core.scratch.get j
    (CoreRuns s k w 0x10 → own 8 → Computes (.ldd k w false false) s k (gRd w) 3 (bytesFrom (coreByte c) a 8)) ∧
    (CoreRuns s k w 0x11 → own 4 → Computes (.ldw k w false false) s k (gRd w) 3 (bytesFrom (coreByte c) a 4)) ∧
    (CoreRuns s k w 0x12 → own 1 → Computes (.ldb k w false false) s k (gRd w) 3 (bytesFrom (coreByte c) a 1)) ∧
    (CoreRuns s k w 0x10 → scr 8 → Computes (.ldd k w false false) s k (gRd w) 30 (bytesFrom (scratchByte s) x 8)) ∧
    (CoreRuns s k w 0x11 → scr 4 → Computes (.ldw k w false false) s k (gRd w) 30 (bytesFrom (scratchByte s) x 4)) ∧
    (CoreRuns s k w 0x12 → scr 1 → Computes (.ldb k w false false) s k (gRd w) 30 (bytesFrom (scratchByte s) x 1)) ∧
    (CoreRuns s k w 0x16 → fine → Does (.aadd k w false false) s (ends (old + b))) ∧
    (CoreRuns s k w 0x17 → fine → Does (.cas k w false false) s (ends (if old = s.g k (gRd w) then b else old)))

/-- Stores of a core write the bytes at their address and no other byte. An aligned STD, STW or STB whose effective address lies
in the core's own data SRAM, or of a ROM program in the policy scratch, completes in one clock: the 8, 4 or 1 bytes from the
address on take the low bytes of rd, every other byte of the SRAM and of the scratch reads as before, and the core's other
state, the other cores and the rest of the machine are unchanged. (R318, R319, R322, Table 14-3, Table 14-5) -/
def Obligations.CoreMemoryStores : Prop :=
  ∀ (s : State) (k : Fin 9) (w : BitVec 32),
    let c := s.gcore k
    let a := (s.g k (gRa w) + (w.extractLsb' 0 12).signExtend 64).toNat
    let v := s.g k (gRd w)
    let own := fun (n : Nat) (t : State) =>
      (∃ d, CoreBecomes s t k { c with dmem := d, pc := c.pc + 4, ckclk := c.ckclk + 1 }) ∧
      ∀ i, coreByte (t.gcore k) i = if a ≤ i ∧ i < a + n then v.extractLsb' (8 * (i - a)) 8 else coreByte c i
    let x := a - 0x10000000
    let scr := fun (n : Nat) (t : State) =>
      (∃ m, CoreBecomes { s with core := { s.core with scratch := m } } t k { c with pc := c.pc + 4, ckclk := c.ckclk + 1 }) ∧
      ∀ i, scratchByte t i = if x ≤ i ∧ i < x + n then v.extractLsb' (8 * (i - x)) 8 else scratchByte s i
    let inOwn := fun (n : Nat) => a % n = 0 ∧ a < 0x7E000
    let inScr := fun (n : Nat) => a % n = 0 ∧ 0x10000000 ≤ a ∧ a < 0x10800000 ∧ c.host = false ∧ MainOn s k
    (CoreRuns s k w 0x13 → inOwn 8 → Does (.std k w false false) s (own 8)) ∧
    (CoreRuns s k w 0x14 → inOwn 4 → Does (.stw k w false false) s (own 4)) ∧
    (CoreRuns s k w 0x15 → inOwn 1 → Does (.stb k w false false) s (own 1)) ∧
    (CoreRuns s k w 0x13 → inScr 8 → Does (.std k w false false) s (scr 8)) ∧
    (CoreRuns s k w 0x14 → inScr 4 → Does (.stw k w false false) s (scr 4)) ∧
    (CoreRuns s k w 0x15 → inScr 1 → Does (.stb k w false false) s (scr 1))

/-- Which fault a load, store or atomic of a core takes. A misaligned address faults with ALIGN; an aligned address outside the
spaces of Table 14-3 with ADDR, the control window under host privilege with PRIV, an uncorrectable word of the data SRAM
with MEMERR, and an access of GA to the scratch in Cinder with UNAVAIL; the core's registers stand. (R318, R319, Table 14-3,
Table 14-12, Table 14-13) -/
def Obligations.CoreMemoryFaults : Prop :=
  ∀ (s : State) (k : Fin 9) (w : BitVec 32), CoreQuiet s k →
    let c := s.gcore k
    let a := (s.g k (gRa w) + (w.extractLsb' 0 12).signExtend 64).toNat
    let b := (s.g k (gRa w)).toNat
    let hole := (0x7E000 ≤ a ∧ a < 0x10000000) ∨ (0x10800000 ≤ a ∧ a < 0x20000000) ∨ 0x30000000 ≤ a
    (CoreRuns s k w 0x10 → a % 8 ≠ 0 → Does (.ldd k w false false) s fun t => CoreFaulted s t k 0x4) ∧
    (CoreRuns s k w 0x14 → a % 4 ≠ 0 → Does (.stw k w false false) s fun t => CoreFaulted s t k 0x4) ∧
    (CoreRuns s k w 0x16 → b % 8 ≠ 0 → Does (.aadd k w false false) s fun t => CoreFaulted s t k 0x4) ∧
    (CoreRuns s k w 0x12 → hole → Does (.ldb k w false false) s fun t => CoreFaulted s t k 0x5) ∧
    (CoreRuns s k w 0x13 → a % 8 = 0 → hole → Does (.std k w false false) s fun t => CoreFaulted s t k 0x5) ∧
    (CoreRuns s k w 0x17 → b % 8 = 0 → b < 0x10000000 → Does (.cas k w false false) s fun t => CoreFaulted s t k 0x5) ∧
    (CoreRuns s k w 0x11 → a % 4 = 0 → 0x20000000 ≤ a → a < 0x30000000 → c.host = true →
      Does (.ldw k w false false) s fun t => CoreFaulted s t k 0x2) ∧
    (CoreRuns s k w 0x12 → a < 0x7E000 → Does (.ldb k w false true) s fun t => CoreFaulted s t k 0x6) ∧
    (CoreRuns s k w 0x10 → a % 8 = 0 → 0x10000000 ≤ a → a < 0x10800000 → c.host = false → k.val = 8 →
      s.rd R.PS_STAT_STATE = 3 → Does (.ldd k w false false) s fun t => CoreFaulted s t k 0xA)

/-- CRD, DOMRD and TSTAT return the counter, the entry word and the ticket they name. For a ROM program with the main die in
reach, CRD of a legal handle completes in 40 clocks with the count or its snapshot, DOMRD of a legal operand in 30 clocks
with the named 64-bit word of the committed entry, and neither changes anything else; TSTAT of a taken ticket completes in 2
clocks with the ticket's result word, and a ticket that is done becomes free. (R323, R324, R325, Table 14-7) -/
def Obligations.CoreReadsOfDeviceObjects : Prop :=
  ∀ (s : State) (k : Fin 9) (w : BitVec 32),
    let c := s.gcore k
    let h := s.g k (gRa w)
    let bank := fld h 18 16
    let i := fld h 6 0
    let tk := c.tickets.get h.toNat
    (CoreRuns s k w 0x28 → c.host = false → MainOn s k → h.toNat < 2 ^ 19 → fld h 14 7 = 0 → bank ≤ 4 →
      i < (if bank = 4 then 32 else 80) → Computes (.crd k w false) s k (gRd w) 40
        (((if h.getLsbD 15 then s.ctr.snap else s.ctr.count).get (bank * 128 + i)).setWidth 64)) ∧
    (CoreRuns s k w 0x2E → c.host = false → MainOn s k → h.toNat < 2 ^ 19 → fld h 15 14 = 0 →
      Computes (.domrd k w false) s k (gRd w) 30 ((s.entry (fld h 13 0)).extractLsb' (64 * fld h 18 16) 64)) ∧
    (CoreRuns s k w 0x2B → h.toNat < 16 → tk.st ≠ 0 → Does (.tstat k w false) s fun t =>
      (∃ g, CoreBecomes s t k { c with
        tickets := if tk.st = 3 then c.tickets.put h.toNat default else c.tickets, g := g, pc := c.pc + 4, ckclk := c.ckclk + 2 }) ∧
      WritesG s t k (gRd w) (BitVec.ofNat 64
        (tk.a % 2 ^ 24 * 2 ^ 40 + tk.b % 2 ^ 24 * 2 ^ 16 + tk.op * 2 ^ 12 + tk.st * 2 ^ 8 + tk.status))) ∧
    (CoreRuns s k w 0x2B → CoreQuiet s k → (h.toNat ≥ 16 ∨ tk.st = 0) → Does (.tstat k w false) s fun t => CoreFaulted s t k 0x8)

/-- POST puts a word into a core's mailbox and RECV takes the oldest out. For a ROM program with the main die in reach, POST to
a core whose mailbox holds fewer than 16 entries appends the poster and the word to it and returns status 0; with 16 entries
it returns 0x53 and the mailbox stands. RECV takes the oldest entry: its word goes to rd and its source to ra; from an empty
mailbox it returns 0 in rd and 0xFF in ra. (R329, Table 14-7, Table 14-8) -/
def Obligations.CoreMailboxes : Prop :=
  ∀ (s : State) (k : Fin 9) (w : BitVec 32),
    let c := s.gcore k
    let dst := (s.g k (gRa w)).toNat
    let x := s.g k (gRb w)
    let gets := fun (rd ra : BitVec 64) (t : State) => ∀ r, t.g k r =
      if r = gRd w ∧ r ≠ 0 then rd else if r = gRa w ∧ r ≠ 0 then ra else s.g k r
    (CoreRuns s k w 0x2D → c.host = false → MainOn s k → dst < 9 → (s.gcore dst).mbox.length < 16 →
      Does (.post k w false) s fun t => (t.gcore dst).mbox = (s.gcore dst).mbox ++ [(k.val, x)] ∧ WritesG s t k (gRd w) 0 ∧
        (t.gcore k).pc = c.pc + 4 ∧ ∀ j, j ≠ k.val → j ≠ dst → t.gcore j = s.gcore j) ∧
    (CoreRuns s k w 0x2D → c.host = false → MainOn s k → dst < 9 → (s.gcore dst).mbox.length ≥ 16 →
      Computes (.post k w false) s k (gRd w) 4 0x53) ∧
    (CoreRuns s k w 0x37 → c.mbox = [] → Does (.recv k w false) s fun t =>
      (∃ g, CoreBecomes s t k { c with g := g, pc := c.pc + 4, ckclk := c.ckclk + 2 }) ∧ gets 0 0xFF t) ∧
    (∀ src y rest, CoreRuns s k w 0x37 → c.mbox = (src, y) :: rest → Does (.recv k w false) s fun t =>
      (∃ g, CoreBecomes s t k { c with g := g, mbox := rest, pc := c.pc + 4, ckclk := c.ckclk + 2 }) ∧
        gets y (BitVec.ofNat 64 src) t)

/-- CGB opens a group, DOMWR, RGWR, SHWR and CTRW stage one slot each, CGA discards the group. CGB of a core without an open
group opens an empty one, and of one with a group faults with GROUP. With a group open that has room and no slot of the same
key, a ROM program's DOMWR, RGWR, SHWR or CTRW with a legal operand appends its slot in 2 clocks, and a second RGWR of the
same offset replaces the first; a 65th slot faults with GROUP. CGA closes the group. Nothing else changes. (R330, Table
14-7) -/
def Obligations.CommitGroupStaging : Prop :=
  ∀ (s : State) (k : Fin 9) (w : BitVec 32),
    let c := s.gcore k
    let a := s.g k (gRa w)
    let b := s.g k (gRb w)
    let stages := fun (g : List GroupSlot) (t : State) =>
      CoreBecomes s t k { c with group := some g, pc := c.pc + 4, ckclk := c.ckclk + 2 }
    let room := fun (g : List GroupSlot) (x : GroupSlot) => c.group = some g ∧ g.length < 64 ∧ ∀ y ∈ g, sameSlot x y = false
    let dom : GroupSlot := .dom (fld a 13 0) (setFld (s.entry (fld a 13 0)) (64 * fld a 18 16 + 63) (64 * fld a 18 16) b.toNat)
    let rgl : GroupSlot := .rgl a.toNat (b.setWidth 32)
    let sh := if a.getLsbD 8 then R.SH_CTL (fld a 4 0) else R.SH_BKT (fld a 4 0) (fld a 21 16)
    let ctr : GroupSlot := .ctr (fld a 18 16) (fld a 6 0) b
    (CoreRuns s k w 0x30 → c.group = none →
      Does (.cgb k w false) s fun t => CoreBecomes s t k { c with group := some [], pc := c.pc + 4, ckclk := c.ckclk + 1 }) ∧
    (CoreRuns s k w 0x30 → CoreQuiet s k → c.group ≠ none → Does (.cgb k w false) s fun t => CoreFaulted s t k 0x7) ∧
    (CoreRuns s k w 0x36 → c.group ≠ none →
      Does (.cga k w false) s fun t => CoreBecomes s t k { c with group := none, pc := c.pc + 4, ckclk := c.ckclk + 2 }) ∧
    (∀ g, CoreRuns s k w 0x31 → c.host = false → a.toNat < 2 ^ 19 → fld a 15 14 = 0 → room g dom →
      Does (.domwr k w false) s (stages (g ++ [dom]))) ∧
    (∀ g, CoreRuns s k w 0x32 → c.host = false → a.toNat ∈ stagedRgl → legalWrite a.toNat (b.setWidth 32) = true → room g rgl →
      Does (.rgwr k w false) s (stages (g ++ [rgl]))) ∧
    (∀ v, CoreRuns s k w 0x32 → c.host = false → a.toNat ∈ stagedRgl → legalWrite a.toNat (b.setWidth 32) = true →
      c.group = some [.rgl a.toNat v] → Does (.rgwr k w false) s (stages [rgl])) ∧
    (∀ g, CoreRuns s k w 0x33 → c.host = false → a.toNat < 2 ^ 22 → fld a 7 5 = 0 → fld a 15 9 = 0 →
      (a.getLsbD 8 = true → fld a 21 16 = 0) → legalWrite sh (b.setWidth 32) = true → room g (.shape sh (b.setWidth 32)) →
      Does (.shwr k w false) s (stages (g ++ [.shape sh (b.setWidth 32)]))) ∧
    (∀ g, CoreRuns s k w 0x34 → c.host = false → a.toNat < 2 ^ 19 → fld a 14 7 = 0 → a.getLsbD 15 = false → fld a 18 16 ≤ 4 →
      fld a 6 0 < (if fld a 18 16 = 4 then 32 else 64) →
      legalWrite (ctlOff (fld a 18 16) (fld a 6 0)) (b.setWidth 32) = true → room g ctr →
      Does (.ctrw k w false) s (stages (g ++ [ctr]))) ∧
    (∀ g, CoreRuns s k w 0x32 → CoreQuiet s k → c.host = false → a.toNat ∈ stagedRgl →
      legalWrite a.toNat (b.setWidth 32) = true → c.group = some g → g.length = 64 → (∀ y ∈ g, sameSlot rgl y = false) →
      Does (.rgwr k w false) s fun t => CoreFaulted s t k 0x7)

/-- HSCAN, MIG and CGC return the lowest free ticket, or a refusal that takes none. With a free ticket and the main die in
reach, a ROM program's HSCAN of a descriptor that passes its checks takes the lowest free ticket, marks it issued, adds its
scan and returns the ticket's index; a MIG that is accepted returns the index, and one that is refused returns bit 63 with
the status and takes no ticket; CGC of an open group returns the index. With no ticket free each faults with TICKET. (R323,
R324, R326, R327, R331, Table 14-7) -/
def Obligations.AsynchronousWorkTakesATicket : Prop :=
  ∀ (s : State) (k : Fin 9) (w : BitVec 32) (tk : Nat),
    let c := s.gcore k
    let a := s.g k (gRa w)
    let b := s.g k (gRb w)
    let d := ofLe 256 (c.bytes a.toNat 32)
    let x : Scan := {
      core := k, tk := tk, dom := fld d 15 0, mode := fld d 23 16, states := fld d 31 24, thr := fld d 39 32,
      start := fld d 97 64, count := fld d 159 128, outptr := fld d 191 160, outmax := fld d 207 192, gone := none }
    let took := s.takeTicket k tk 1
    let gives := fun (v : BitVec 64) (t : State) => (gRd w ≠ 0 → t.g k (gRd w) = v) ∧ (t.gcore k).pc = c.pc + 4
    let begun := fun (s : State) => s.startMig (fld a 61 48) (s.entry (fld a 61 48))
      (s.pageDpa (s.entry (fld a 61 48)) (fld a 33 0)) (migKind (fld b 1 0)) (if fld b 7 4 = 15 then 16 else fld b 7 4)
      (.ticket k tk) false
    (CoreRuns s k w 0x29 → c.host = false → MainOn s k → a.toNat % 8 = 0 → a.toNat + 32 ≤ 0x7E000 → LowestFree c tk →
      took.scanStatus x d = 0 → Does (.hscan k w false false) s fun t =>
        gives (BitVec.ofNat 64 tk) t ∧ t.core.scans = s.core.scans ++ [x] ∧
          (t.gcore k).tickets.get tk = { op := 1, st := 1, status := 0, a := 0, b := 0 }) ∧
    (CoreRuns s k w 0x2A → c.host = false → MainOn s k → LowestFree c tk → (s.takeTicket k tk 2).migRefusal a b = 0 →
      (begun (s.takeTicket k tk 2)).1 = 0 → Does (.mig k w false) s (gives (BitVec.ofNat 64 tk))) ∧
    (CoreRuns s k w 0x2A → c.host = false → MainOn s k → LowestFree c tk → (s.takeTicket k tk 2).migRefusal a b ≠ 0 →
      Computes (.mig k w false) s k (gRd w) 6 (BitVec.ofNat 64 (2 ^ 63 + (s.takeTicket k tk 2).migRefusal a b))) ∧
    (CoreRuns s k w 0x35 → MainOn s k → LowestFree c tk → c.group ≠ none →
      Does (.cgc k w false) s (gives (BitVec.ofNat 64 tk))) ∧
    (CoreRuns s k w 0x35 → CoreQuiet s k → MainOn s k → (∀ i, i < 16 → (c.tickets.get i).st ≠ 0) → c.group ≠ none →
      Does (.cgc k w false) s fun t => CoreFaulted s t k 0x8)

/-- TCAN cancels a scan, a scan that ends makes its ticket done, a pending event starts a run, and a timer makes its event
pending. A TCAN that names the ticket of a scan still running, with the main die in reach, removes the scan, makes the
ticket done with status 0x67 and returns 0; of a commit group's ticket it returns 0x6A and changes nothing else. HSCAN_DONE
of a running scan removes it, and of a scan that its domain's end has stopped makes its ticket done with status 0x68, the
pages visited and the records written. PROGRAM_RUN_START of an idle core with a pending entry of its program takes the
oldest such entry and begins the run: general registers and flags 0, PC and CKCLK 0, EVENT, EVARG and PROG as the entry
gives, no tickets and no open group, the core Running. TIMER of a binding whose time has come puts event 2 with the period
among the program's pending entries and moves the expiry on by one period. (R324, R326, R327, Table 14-8, R341, R343, R346,
Table 14-2) -/
def Obligations.TicketsScansAndProgramRuns : Prop :=
  ∀ (s : State) (k : Fin 9) (w : BitVec 32) (tk : Fin 17) (x : Scan) (p : BitVec 16),
    let c := s.gcore k
    let h := s.g k (gRa w)
    let found := s.core.scans.find? fun x => x.core == k.val && x.tk == tk.val
    (CoreRuns s k w 0x2F → MainOn s k → h.toNat = tk.val → tk.val < 16 → (c.tickets.get tk).st = 1 → (c.tickets.get tk).op = 1 →
      found = some x → Does (.tcan k w false) s fun t =>
        (gRd w ≠ 0 → t.g k (gRd w) = 0) ∧ (t.gcore k).pc = c.pc + 4 ∧ t.core.scans = s.core.scans.erase x ∧
          ((t.gcore k).tickets.get tk).st = 3 ∧ ((t.gcore k).tickets.get tk).status = 0x67) ∧
    (CoreRuns s k w 0x2F → MainOn s k → h.toNat = tk.val → tk.val < 16 → (c.tickets.get tk).st ≠ 0 → (c.tickets.get tk).op = 3 →
      Computes (.tcan k w false) s k (gRd w) 4 0x6A) ∧
    (found = some x → Does (.hscanDone k tk) s fun t => t.core.scans = s.core.scans.erase x) ∧
    (∀ n m, found = some x → x.gone = some (n, m) → tk.val < 16 → (c.tickets.get tk).st = 1 → Does (.hscanDone k tk) s fun t =>
      ((t.gcore k).tickets.get tk).st = 3 ∧ ((t.gcore k).tickets.get tk).status = 0x68 ∧
        ((t.gcore k).tickets.get tk).a = n ∧ ((t.gcore k).tickets.get tk).b = m) ∧
    (∀ x, s.coreSt k = 0 → s.nextPending k = some x → Does (.programRunStart k) s fun t =>
      t.coreSt k = 1 ∧ (t.gcore k).pc = 0 ∧ (t.gcore k).ckclk = 0 ∧ (t.gcore k).g = Tab.empty ∧ (t.gcore k).f = 0 ∧
        (t.gcore k).run = x.1 ∧ (t.gcore k).event = x.2.1 ∧ (t.gcore k).evarg = x.2.2 ∧
        (t.gcore k).tickets = Tab.empty ∧ (t.gcore k).group = none ∧ t.core.pend = s.core.pend.erase x) ∧
    (∀ b, s.core.binds = [b] → b.prog = p.toNat → b.code = 2 → b.next ≤ s.gtc → s.hears b.prog = true → s.core.pend = [] →
      Does (.timer p) s fun t =>
        t.core.binds = [{ b with next := b.next + 1000 * b.period }] ∧ t.core.pend = [(b.prog, 2, b.period)])

/-- WAIT, its return, CKPT, HALT and a late checkpoint. With no request waiting, WAIT on a cause that holds already, or with a
limit of 0, returns at once with its reason in rd, the core running at the next word and CKCLK 0; without one the core
waits. A waiting core returns with the lowest cause, or with 31 once its limit is reached. CKPT clears CKCLK and goes on;
HALT leaves the core idle with no tickets; a running core whose CKCLK has reached its limit faults with CKPT_LATE. (R322,
R328, R333, R334, Table 14-11) -/
def Obligations.WaitsAndCheckpoints : Prop :=
  ∀ (s : State) (k : Fin 9) (w : BitVec 32), CoreQuiet s k →
    let c := s.gcore k
    let m := (s.g k (gRa w)).toNat
    let lim := (s.g k (gRb w)).toNat
    let returns := fun (rd reason : Nat) (t : State) =>
      t.coreSt k = 1 ∧ (t.gcore k).pc = c.pc + 4 ∧ (t.gcore k).ckclk = 0 ∧ (t.gcore k).wait = none ∧
        WritesG s t k rd (BitVec.ofNat 64 reason)
    let named := ∀ i, i < 16 → m.testBit i = true → (c.tickets.get i).st ≠ 0
    (∀ r, CoreRuns s k w 0x2C → m < 2 ^ 18 → named → s.waitCause k m = some r →
      Does (.wait k w false) s (returns (gRd w) r)) ∧
    (CoreRuns s k w 0x2C → m < 2 ^ 18 → named → s.waitCause k m = none → lim = 0 →
      Does (.wait k w false) s (returns (gRd w) 31)) ∧
    (CoreRuns s k w 0x2C → m < 2 ^ 18 → named → s.waitCause k m = none → lim ≠ 0 → k.val ≠ 8 → lim < 2 ^ 64 - 1 →
      Does (.wait k w false) s fun t => t.coreSt k = 2 ∧ (t.gcore k).ckclk = 0 ∧
        (t.gcore k).wait = some { mask := m, rd := gRd w, limit := some (s.gtc + lim) }) ∧
    (CoreRuns s k w 0x2C → m ≥ 2 ^ 18 → Does (.wait k w false) s fun t => CoreFaulted s t k 0x9) ∧
    (∀ x r, s.coreSt k = 2 → c.wait = some x → s.waitCause k x.mask = some r →
      Does (.waitReturn k) s (returns x.rd r)) ∧
    (∀ x u, s.coreSt k = 2 → c.wait = some x → s.waitCause k x.mask = none → x.limit = some u → u ≤ s.gtc →
      Does (.waitReturn k) s (returns x.rd 31)) ∧
    (CoreRuns s k w 0x22 → Does (.ckpt k w false) s fun t => CoreBecomes s t k { c with pc := c.pc + 4, ckclk := 0 }) ∧
    (CoreRuns s k w 0x23 → Does (.halt k w false) s fun t =>
      t.coreSt k = 0 ∧ (t.gcore k).tickets = Tab.empty ∧ (t.gcore k).group = none ∧ (t.gcore k).g = c.g) ∧
    (s.coreSt k = 1 → c.ckclk ≥ (if k.val = 8 then 5000 else 75000) → Does (.ckptLate k) s fun t => CoreFaulted s t k 0xB)

/-- A powered feed goes from state to state on the events of Table 19-3, and a trip retries it or latches it. A feed in Off with
its voltage in UVON to OVON goes to Qualified, in Qualified to Ramp when the insertion delay expires, in Ramp to On when the
bulk comes within 1 V, in Qualified, Ramp or On to Off when its window is left, in Tripped to Qualified, in Latched to Off
on removal unless TLATCH is set, to Reversed on reversal and from there to Off. Each entry clears its accumulators, the
other feed stands, and the events of Table 19-9 are logged. The start test, the start timeout, a breakpoint of the breaker
that one current reaches, and a fast trip each raise the feed's trip count (saturating at 7) and send it to Tripped, or to
Latched where the trip takes the count above RETRIES. Ten seconds in On clear the count. (R408, R409, R412, R414, R422,
Table 19-3, R410, R411, Table 19-9) -/
def Obligations.FeedStatesFollowTheirEvents : Prop :=
  ∀ (s : State) (x : Feed), s.feed.on = true →
    let tripped := fun (t : State) => t.rd (feedTrips x) = min (s.rd (feedTrips x) + 1) 7 ∧
      FeedMoves s t x (if s.rd (feedTrips x) ≥ s.feedSet R.FD_RETRY_RETRIES then 5 else 4)
    (∀ v : BitVec 11, s.feedSt x = 0 → 800 + 5 * s.feedSet R.FD_WIN_UVON ≤ v.toNat →
      v.toNat ≤ 800 + 5 * s.feedSet R.FD_WIN_OVON → Does (.feedInRange x v) s fun t => FeedMoves s t x 1) ∧
    (s.feedSt x = 1 → Does (.insertionDelayExpiry x) s fun t => FeedMoves s t x 2 ∧ FeedLogs s t 0x01) ∧
    (∀ v b : BitVec 11, s.feedSt x = 2 → b.toNat + 20 ≥ v.toNat →
      Does (.rampComplete x v b) s fun t => FeedMoves s t x 3 ∧ FeedLogs s t 0x02) ∧
    (∀ above, s.feedSt x ∈ [1, 2, 3] →
      Does (.windowLeft x above) s fun t => FeedMoves s t x 0 ∧ FeedLogs s t (if above then 0x04 else 0x03)) ∧
    (s.feedSt x = 4 → Does (.retryDelayExpiry x) s fun t => FeedMoves s t x 1) ∧
    (s.feedSt x = 5 → s.flag R.FD_STAT_TLATCH = false → Does (.feedRemoval x) s fun t => FeedMoves s t x 0) ∧
    (s.feedSt x ≠ 6 → Does (.reversed x) s fun t => FeedMoves s t x 6 ∧ FeedLogs s t 0x09) ∧
    (s.feedSt x = 6 → Does (.reversedClear x) s fun t => FeedMoves s t x 0) ∧
    (∀ b v r : BitVec 11, s.feedSt x = 2 → b.toNat + 20 < v.toNat → s.slowRise r.toNat = true →
      Does (.startshort x b v r) s tripped) ∧
    (s.feedSt x = 2 → Does (.startTimeout x) s tripped) ∧
    (∀ (i : BitVec 10) (n : BitVec 32) r, s.feedSt x = 3 → n ≠ 0 → s.firstTrip x i.toNat n.toNat = some r →
      Does (.breaker x [(i, n)]) s tripped) ∧
    (∀ i : BitVec 11, s.feedSt x = 3 → i.toNat > s.feedSet R.FD_SHUNT_FAST → Does (.fastTrip x i) s tripped) ∧
    (∀ i : BitVec 11, s.feedSt x = 2 → i.toNat > 4 * s.feedSet R.FD_SEQ_INRUSH → Does (.fastTrip x i) s tripped) ∧
    (s.feedSt x = 3 → Does (.tripCountClear x) s fun t => t.rd (feedTrips x) = 0 ∧ t.feedSt x = 3)

/-- Power-good, power-fail warning, release, ORing and the feed die's supply. PG rises with a feed in On and its accumulators at
0 and falls with the bulk, each logged; with no feed in On at VPFW or more, PFW is latched with source 0, the flush begins
and the main die's clocks stop. While PFW is latched, the flush-done wire or the release timeout clears PG and PFW and sends
a feed in Off to On states to Off. An ORing gate turns off in Ramp or On and on again. The feed die's supply loss stops it;
at power-on every feed is Off, the settings in force are those of the OTP and the OTP stands. (R406, R413, R415, R416, R419,
R422, R486) -/
def Obligations.FeedPowerGoodAndRelease : Prop :=
  ∀ (s : State),
    let released := fun (t : State) => t.flag R.FD_STAT_PG = false ∧ t.flag R.FD_STAT_PFW = false ∧
      t.peat.flushDone = false ∧ (∀ x, s.feed.hot = false → s.feedSt x ≤ 4 → t.feedSt x = 0) ∧
      (∀ x, s.feed.hot = true → t.feedSt x = 5 ∧ t.flag R.FD_STAT_TLATCH = true)
    (∀ x, s.feed.on = true → s.flag R.FD_STAT_PG = false → s.flag R.FD_STAT_PFW = false → s.feedSt x = 3 →
      s.feed.acc = Tab.empty → Does .pgRise s fun t => t.flag R.FD_STAT_PG = true ∧ FeedLogs s t 0x0B) ∧
    (s.feed.on = true → s.flag R.FD_STAT_PG = true →
      Does .pgFall s fun t => t.flag R.FD_STAT_PG = false ∧ FeedLogs s t 0x0C) ∧
    (∀ va vb : BitVec 11, s.feed.on = true → s.flag R.FD_STAT_PG = true → s.flag R.FD_STAT_PFW = false →
      s.feedSt .a ≠ 3 → s.feedSt .b ≠ 3 →
      Does (.pfw va vb) s fun t => t.flag R.FD_STAT_PFW = true ∧ t.rd R.FD_STAT_PFWSRC = 0 ∧ t.peat.flush.isSome = true ∧
        t.boot.hold = true ∧ ∀ k, k < 8 → t.coreSt k = 5) ∧
    (s.feed.on = true → s.flag R.FD_STAT_PFW = true → s.peat.flushDone = true → Does .flushDone s released) ∧
    (s.feed.on = true → s.flag R.FD_STAT_PFW = true → Does .releaseTimeout s released) ∧
    (∀ x, s.feed.on = true → s.feedSt x ∈ [2, 3] → Does (.oringTurnOff x) s fun t => t =
      { s with feed := { s.feed with reverse := s.feed.reverse.put (feedIx x) true } }) ∧
    (∀ x, s.feed.on = true → Does (.oringTurnOn x) s fun t => t =
      { s with feed := { s.feed with reverse := s.feed.reverse.put (feedIx x) false } }) ∧
    Does .feedDieSupplyLoss s (fun t => t = { s with feed := { s.feed with on := false } }) ∧
    Does .feedDiePowerOn s fun t => t.feed.on = true ∧ t.feed.otp = s.feed.otp ∧ (∀ x, t.feedSt x = 0) ∧
      t.feed.set = s.feed.otp.getD Tab.empty ∧ ∀ off, off < 0x10000 → t.reg off = s.reg off

/-- The feed die's commands: settings committed or copied, OTP burnt once, latches cleared, heartbeats. Over a link that
answers, a commit of staged settings that pass Table 19-8 puts them in force with status 0, and one that fails keeps the old
ones with status 0x40 or 0x41; a copy stages the settings in force; the burn with key 0x5A writes the OTP once and never
again; CLRA and CLRB clear their feed's trips and its latch, CLRT both thermal latches. An answered heartbeat clears LOST
and brings the readings; the third in a row without an answer sets it, and then writes of the feed die are discarded. (R412,
R419, R420, R421, Table 19-8, Table 22-4) -/
def Obligations.FeedSettingsAndCommands : Prop :=
  ∀ (s : State) (p : Path),
    let live := s.flag R.FD_LINK_LOST = false ∧ s.feed.on = true
    let staged := feedStaging.foldl (fun (t : Tab (BitVec 32)) o => t.putD (regReset o) o (s.reg o)) Tab.empty
    let status := if feedOrder s.reg = false ∨ feedCurve s.reg = false then 0x40 else if feedRange s.reg = false then 0x41 else 0
    (Writable s p R.FD_COMMIT 0x80000000 → live → Does (.feedCommit p) s fun t =>
      t.rd R.FD_COMMIT_STATUS = status ∧ t.feed = { s.feed with set := if status = 0 then staged else s.feed.set }) ∧
    (Writable s p R.FD_COMMIT 0xC0000000 → live → Does (.feedCopy p) s fun t =>
      t.rd R.FD_COMMIT_STATUS = 0 ∧ t.feed = s.feed ∧ ∀ o ∈ feedStaging, t.reg o = s.feedGet o) ∧
    (Writable s p R.FD_OTPCTL (setFld 0x80000000 7 0 0x5A) → live → s.flag R.MG_LOCK_FEEDLK = false →
      Does (.otpBurn p 0x5A) s fun t => t.feed = { s.feed with otp := some (s.feed.otp.getD s.feed.set) } ∧
        (s.feed.otp = none → t.flag R.FD_OTPCTL_PROG = true)) ∧
    (∀ v : BitVec 32, Writable s p R.FD_CMD (setFld v 31 31 1) → live → v.getLsbD 29 = false → v.getLsbD 30 = false →
      Does (.clra p v) s fun t => t.rd R.FD_STAT_TRIPA = 0 ∧ t.feedSt .b = s.feedSt .b ∧
        (s.feedSt .a = 5 → s.flag R.FD_STAT_TLATCH = false → t.feedSt .a = 0)) ∧
    (∀ v : BitVec 32, Writable s p R.FD_CMD (setFld v 30 30 1) → live → v.getLsbD 29 = false → v.getLsbD 31 = false →
      Does (.clrb p v) s fun t => t.rd R.FD_STAT_TRIPB = 0 ∧ t.feedSt .a = s.feedSt .a ∧
        (s.feedSt .b = 5 → s.flag R.FD_STAT_TLATCH = false → t.feedSt .b = 0)) ∧
    (∀ v : BitVec 32, Writable s p R.FD_CMD (setFld v 29 29 1) → live → v.getLsbD 30 = false → v.getLsbD 31 = false →
      Does (.clrt p v) s fun t => t.flag R.FD_STAT_TLATCH = false ∧ ∀ x, t.feedSt x = if s.feedSt x = 5 then 0 else s.feedSt x) ∧
    (∀ r : FeedReadings, s.feed.on = true → Does (.heartbeat true r) s fun t => t.flag R.FD_LINK_LOST = false ∧
      t.feed.missed = 0 ∧ t.rd R.FD_TELA_VIN = r.va.toNat ∧ t.rd R.FD_TELB_IIN = r.ib.toNat ∧
      t.rd R.FD_TELBULK_TEMP = r.temp.toNat) ∧
    (∀ r : FeedReadings, s.feed.missed = 2 → Does (.heartbeat false r) s fun t => t.flag R.FD_LINK_LOST = true) ∧
    (Writable s p R.FD_COMMIT 0x80000000 → s.flag R.FD_LINK_LOST = true → Does (.feedCommit p) s fun t => t = s)

/-- A page of the Peat log is written, retired or relocated at the frontier. With no flush and supplies valid, a page of the
object in progress takes the next page that is neither retired nor live, holds the layout of Table 18-1 with the next SEQ,
and moves the frontier past it; a page that fails twice is retired instead, with the object still in progress; a live page
in the reserve, the nearest first, is copied to the frontier first; with nothing to write the frontier moves alone. The last
page of a full image makes it the image, with the previous one kept, BUSY clear and the log Valid. (R392, R395, R396, R397,
R402, Table 18-3) -/
def Obligations.PeatPageWritesMoveTheFrontier : Prop :=
  ∀ (s : State) (f : Fin 3) (w : PeatWork), s.peat.flush = none → s.boot.supplies = true →
    let page := s.peat.next
    (s.peat.cur = some w → f.val < 2 → s.peat.inReserve = none → 2 ≤ w.left → Does (.peatPageWrite f) s fun t =>
      t.peat.cur = some { w with pages := w.pages ++ [page], left := w.left - 1 } ∧ t.peat.seq = s.peat.seq + 1 ∧
        t.peat.frontier = (page + 1) % 131072 ∧ t.peat.bad = s.peat.bad ∧ t.peat.objs = s.peat.objs ∧ t.dram = s.dram ∧
        t.peat.array.get page = peatPage w.content.key.1 w.content.key.2 w.pages.isEmpty false (s.peat.seq + 1)
          (Config.pagePayload (s.peat.seq + 1))) ∧
    (s.peat.cur = some w → Does (.peatPageWrite 2) s fun t =>
      t.peat.cur = some w ∧ t.peat.seq = s.peat.seq ∧ t.peat.bad = page :: s.peat.bad ∧ t.peat.badDue = true ∧
        t.peat.frontier = (page + 1) % 131072 ∧ t.rd R.PL_STAT_RETIRED = min (s.rd R.PL_STAT_RETIRED + 1) 1023) ∧
    (∀ old, s.peat.cur = some w → f.val < 2 → s.peat.inReserve = some old → Does (.peatPageWrite f) s fun t =>
      t.peat.cur = some w ∧ t.peat.seq = s.peat.seq ∧ t.peat.bad = s.peat.bad ∧
        t.peat.objs = s.peat.objs.map (fun o =>
          { o with pages := o.pages.map fun x => if x == old then page else x }) ∧
        t.peat.array = s.peat.array.put page (s.peat.array.get old)) ∧
    (s.peat.cur = none → s.nextObject = none → f.val < 2 → s.peat.inReserve = none →
      Does (.peatPageWrite f) s fun t => t.peat.objs = s.peat.objs ∧ t.peat.seq = s.peat.seq ∧ t.peat.cur = none ∧
        t.peat.frontier = (page + 1) % 131072) ∧
    (∀ i, s.peat.cur = some w → w.content = .full i → w.left = 1 → f.val < 2 → s.peat.inReserve = none →
      s.rd R.PL_STAT_STATE ≠ 3 → s.rd R.PL_WEAR_LAPS < 80000000 → s.peat.bad.length ≤ 1023 →
      Does (.peatPageWrite f) s fun t => t.peat.image = some i ∧ t.peat.older = s.peat.image ∧ t.peat.cur = none ∧
        t.flag R.PL_STAT_BUSY = false ∧ t.rd R.PL_STAT_STATE = 1)

/-- The Peat log's counters object, image, clear and LASTGASP flush. An hour makes the counters object due and raises the power-
on hours. PL_CTL with GO asks for a full image, or clears every stream but BAD and CNT, sets BUSY, and is discarded while
BUSY or a flush runs. A flush with no page left ends undone and writes nothing; one with nothing pending and three pages or
more writes its marker, the counters and its closing page and is done. The deadline ends a flush that still runs. A Warm
reset that has been asked for is not waiting in these. (R394, R399, R402, R404, Table 18-2, Table 18-8) -/
def Obligations.PeatCommandsAndLastgasp : Prop :=
  ∀ (s : State) (p : Path) (v : BitVec 32) (n : BitVec 13),
    let full := setFld (setFld v 31 31 1) 30 28 0
    let clear := setFld (setFld v 31 31 1) 30 28 1
    Does .cntWrite s (fun t => t.peat.cntDue = true ∧ t.peat.cntAt = s.gtc ∧
      t.rd (R.PL_LIFE_COUNT 0) = min (s.rd (R.PL_LIFE_COUNT 0) + 1) (2 ^ 32 - 1) ∧ t.peat.objs = s.peat.objs) ∧
    (Writable s p R.PL_CTL full → s.flag R.PL_STAT_BUSY = false → s.peat.flush = none →
      Does (.fullImageWrite p v) s fun t => t.peat = { s.peat with wantFull := true } ∧ t.flag R.PL_STAT_BUSY = true ∧
        t.rd R.PL_CTL_PACE = fld v 19 12) ∧
    (Writable s p R.PL_CTL full → s.flag R.PL_STAT_BUSY = true →
      Does (.fullImageWrite p v) s fun t => t.peat = s.peat ∧ t.rd R.PL_CTL_PACE = fld v 19 12) ∧
    (Writable s p R.PL_CTL clear → s.flag R.PL_STAT_BUSY = false → s.peat.flush = none →
      Does (.logClear p v) s fun t => t.flag R.PL_STAT_BUSY = true ∧ t.peat.image = none ∧ t.peat.prg = [] ∧
        t.peat.health = [] ∧ t.peat.trn = Tab.empty ∧ t.peat.bad = s.peat.bad ∧ t.peat.wantFull = true ∧
        (∀ o, o ∈ t.peat.objs ↔ o ∈ s.peat.objs ∧ (o.stream = 7 ∨ o.stream = 4)) ∧
        t.rd R.PL_STAT_STATE = if s.rd R.PL_STAT_STATE = 3 then 3 else 0) ∧
    (s.peat.flush.isSome = true → s.peat.flushDone = false → s.boot.resetDue = false →
      Does (.lastgaspFlush 0 []) s fun t => t.peat.flush = none ∧ t.peat.flushDone = false ∧ t.peat.objs = s.peat.objs ∧
        t.peat.seq = s.peat.seq ∧ t.peat.frontier = s.peat.frontier) ∧
    (s.peat.flush.isSome = true → s.peat.flushDone = false → s.boot.resetDue = false → 3 ≤ n.toNat → n.toNat ≤ 4096 →
      s.flushContents = [.lgp false, .cnt, .lgp true] → Does (.lastgaspFlush n []) s fun t =>
        t.peat.flush = none ∧ t.peat.flushDone = true ∧ t.peat.closed = true ∧ t.peat.seq = s.peat.seq + 3 ∧
        t.rd (R.PL_LIFE_COUNT 4) = min (s.rd (R.PL_LIFE_COUNT 4) + 1) (2 ^ 32 - 1)) ∧
    (s.peat.flush.isSome = true → s.boot.resetDue = false → Does .lastgaspDeadline s fun t =>
      t = { s with peat := { s.peat with flush := none } }) ∧
    (s.peat.flush = none → Does .lastgaspDeadline s fun t => t = s)

/-- PSET and PLOG, the ROM programs' own instructions. PSET of the present state with nothing being entered returns 0 and
changes nothing; of a deeper one beyond the limit or before the dwell it returns 0x70; one granted is being entered with
BUSY set and 0 in rd; a shallower one wakes the device with source 5. PLOG of 1 to 512 bytes within the data SRAM takes the
lowest free ticket and puts the bytes among the pending records of the running program; any other length returns status 0x69
with bit 63. In a host program both fault with cause PRIV. (R323, R394, R431, R432, Table 14-7) -/
def Obligations.ProgramsAskForPowerStates : Prop :=
  ∀ (s : State) (k : Fin 9) (w : BitVec 32) (tk : Nat),
    let c := s.gcore k
    let x := (s.g k (gRa w)).toNat % 4
    let now := s.rd R.PS_STAT_STATE
    let a := (s.g k (gRa w)).toNat
    let n := (s.g k (gRb w)).toNat
    (CoreRuns s k w 0x38 → c.host = false → x = now → s.pow.target = none → Computes (.pset k w false) s k (gRd w) 10 0) ∧
    (CoreRuns s k w 0x38 → c.host = false → x > now → (x > s.powerLimit ∨ s.dwelt = false) →
      Computes (.pset k w false) s k (gRd w) 10 0x70) ∧
    (CoreRuns s k w 0x38 → c.host = false → x > now → x ≠ 3 → x ≤ s.powerLimit → s.dwelt = true → s.pow.exiting = false →
      s.boot.hold = false → s.boot.drain = none → Does (.pset k w false) s fun t =>
        t.pow = { s.pow with target := some x } ∧ t.flag R.PS_STAT_BUSY = true ∧ (gRd w ≠ 0 → t.g k (gRd w) = 0)) ∧
    (CoreRuns s k w 0x38 → c.host = false → x < now → s.pow.exiting = false → Does (.pset k w false) s fun t =>
      t.pow.exiting = true ∧ t.pow.target = none ∧ t.flag R.PS_STAT_BUSY = true ∧ t.rd R.PS_STAT_WAKESRC = 5 ∧
        (gRd w ≠ 0 → t.g k (gRd w) = 0)) ∧
    (CoreRuns s k w 0x38 → CoreQuiet s k → c.host = true → Does (.pset k w false) s fun t => CoreFaulted s t k 0x2) ∧
    (CoreRuns s k w 0x39 → MainOn s k → c.host = false → 1 ≤ n → n ≤ 512 → a + n ≤ 0x7E000 → LowestFree c tk →
      Does (.plog k w false false) s fun t =>
        t.peat.prgPend = s.peat.prgPend ++ [{ prog := c.run, bytes := c.bytes a n, core := k, tk := tk }] ∧
          (gRd w ≠ 0 → t.g k (gRd w) = BitVec.ofNat 64 tk) ∧ (t.gcore k).pc = c.pc + 4) ∧
    (CoreRuns s k w 0x39 → c.host = false → (n < 1 ∨ 512 < n) →
      Computes (.plog k w false false) s k (gRd w) 10 (BitVec.ofNat 64 (2 ^ 63 + 0x69))) ∧
    (CoreRuns s k w 0x39 → CoreQuiet s k → c.host = true → Does (.plog k w false false) s fun t => CoreFaulted s t k 0x2)

/-- A granted power state is entered, a wake source abandons or leaves it, and an exit ends in Blaze. A granted Smoulder is
entered: STATE reads 1, BUSY is clear and nothing else of the device changes. A wake source abandons an entry in progress;
in another state than Blaze the first one sets BUSY, WAKEEVT and WAKESRC and begins the exit, and a second during it changes
nothing. An exit from Smoulder ends in Blaze with BUSY clear. DOZE's timer makes its event 2 pending. (R431, R432, R433,
R434, Table 20-2, Table 20-5) -/
def Obligations.PowerStatesEnteredAndLeft : Prop :=
  ∀ (s : State) (src : Fin 7), src.val ≠ 0 →
    (s.pow.target = some 1 → Does .powerStateEntry s fun t => t.rd R.PS_STAT_STATE = 1 ∧ t.flag R.PS_STAT_BUSY = false ∧
      t = { s with pow := { s.pow with target := none }, regs := t.regs } ∧
      ∀ off, off ≠ R.PS_STAT_STATE.off → t.reg off = s.reg off) ∧
    (s.pow.target = some 2 → Does .powerStateEntry s fun t => t.rd R.PS_STAT_STATE = 2 ∧ t.flag R.PS_STAT_BUSY = false ∧
      t.pow.target = none ∧ (∀ k, k < 8 → t.coreSt k = 5) ∧ t.kind = s.kind ∧ t.dram = { s.dram with chans := t.dram.chans } ∧
      ∀ n, n < 16 → t.dram.chans.get n =
        { s.dram.chans.get n with patrol := { (s.dram.chans.get n).patrol with paused := some s.gtc } }) ∧
    (s.pow.target = none → Does .powerStateEntry s fun t => t = s) ∧
    (s.pow.exiting = false → s.rd R.PS_STAT_STATE = 0 → s.pow.target.isSome = true → Does (.wake src) s fun t =>
      t.pow = { s.pow with target := none } ∧ t.flag R.PS_STAT_BUSY = false ∧ t.rd R.PS_STAT_STATE = 0) ∧
    (s.pow.exiting = false → s.rd R.PS_STAT_STATE ≠ 0 → Does (.wake src) s fun t => t.pow.exiting = true ∧
      t.pow.target = none ∧ t.flag R.PS_STAT_BUSY = true ∧ t.flag R.PS_STAT_WAKEEVT = true ∧
      t.rd R.PS_STAT_WAKESRC = src.val ∧ t.rd R.PS_STAT_STATE = s.rd R.PS_STAT_STATE) ∧
    (s.pow.exiting = true → Does (.wake src) s fun t => t = s) ∧
    (s.pow.exiting = true → s.rd R.PS_STAT_STATE = 1 → s.dom.waiting = [] → Begins .exitComplete s fun x =>
      x.pow = { s.pow with exiting := false, quietSince := s.gtc } ∧ x.rd R.PS_STAT_STATE = 0 ∧
        x.flag R.PS_STAT_BUSY = false ∧ x.dram = s.dram ∧ x.kind = s.kind ∧ x.core = s.core) ∧
    (s.pow.exiting = false → Does .exitComplete s fun t => t = s) ∧
    (s.claim.aot.get 4 = 0x11 → s.hears 4 = true → s.core.pend = [] → Does .dozeTimer s fun t =>
      t.core.pend = [(4, 2, s.param 4 1 * 100)]) ∧
    (s.claim.aot.get 4 ≠ 0x11 → Does .dozeTimer s fun t => t = s)

/-- Supplies becoming valid take a Cold reset; supplies and the reference lost stop the main die. With F_PG high, supplies
becoming valid leave the main die held, the GTC at 0, memory, error records, domain table and claims at reset, and the feed
die and the Peat log's objects kept, the Cold resets counted. Supplies lost hold the main die and clear READY. The reference
check writes REFBAD and OSCBAD and nothing else. A lost reference sets REFBAD and, unless the main die is held, loses the
device with cause 0x05; a thermal trip loses it with cause 0x01, sets THERMTRIP and, with PG high, raises PFW. (R439, R440,
R449, R452, R453, Table 21-4) -/
def Obligations.ColdResetAndSupplies : Prop :=
  ∀ (s : State) (refBad oscBad : Bool) (r : Fin 4),
    (s.boot.supplies = false → s.flag R.FD_STAT_PG = true → Does .suppliesValid s fun t =>
      t.boot.supplies = true ∧ t.boot.hold = true ∧ t.gtc = 0 ∧ t.feed = s.feed ∧ t.pending = s.pending ∧
        t.peat.objs = s.peat.objs ∧ t.peat.image = s.peat.image ∧ t.dram.lines = Tab.empty ∧ t.flt = State.reset.flt ∧
        t.dom = State.reset.dom ∧ t.claim = State.reset.claim ∧ t.core = State.reset.core ∧
        t.rd (R.PL_LIFE_COUNT 1) = min (s.rd (R.PL_LIFE_COUNT 1) + 1) (2 ^ 32 - 1)) ∧
    ((s.boot.supplies = true ∨ s.flag R.FD_STAT_PG = false) → Does .suppliesValid s fun t => t = s) ∧
    (s.boot.supplies = true → Does .suppliesLost s fun t =>
      t.boot = { s.boot with supplies := false, hold := true, drain := none } ∧ t.flag R.CHIP_BOOTSTAT_READY = false ∧
        t.gtc = s.gtc ∧ t.peat = s.peat ∧ t.feed = s.feed) ∧
    Does (.referenceCheck refBad oscBad) s (fun t => t.flag R.CHIP_BOOTSTAT_REFBAD = refBad ∧
      t.flag R.CHIP_BOOTSTAT_OSCBAD = oscBad ∧ t = { s with regs := t.regs } ∧
      ∀ off, off ≠ R.CHIP_BOOTSTAT_REFBAD.off → t.reg off = s.reg off) ∧
    (s.boot.hold = true → Does .referenceLoss s fun t => t.flag R.CHIP_BOOTSTAT_REFBAD = true ∧ t = { s with regs := t.regs }) ∧
    (s.boot.hold = false → s.flag R.CF_STAT_DEVLOST = false → Begins .referenceLoss s fun x =>
      x.flag R.CHIP_BOOTSTAT_REFBAD = true ∧ x.flag R.CF_STAT_DEVLOST = true ∧ x.rd R.CF_STAT_CAUSE = 5) ∧
    (s.flag R.CF_STAT_DEVLOST = false → Begins (.thermalTrip r) s fun x =>
      x.flag R.CF_STAT_THERMTRIP = true ∧ x.flag R.CF_STAT_DEVLOST = true ∧ x.rd R.CF_STAT_CAUSE = 1 ∧
        (s.feed.on = true → s.flag R.FD_STAT_PG = true → x.flag R.FD_STAT_PFW = true ∧ x.feed.hot = true))

/-- A Cold start, a start after a Warm reset, READY and the background writer. When the main die may start after a Cold reset,
COLD_START releases it at step 5 with new device keys DK1 to DK3, a new boot epoch, memory discarded and the log recovered;
after a Warm reset WARM_HOLD_END releases it and keeps memory exactly when the reset was orderly. READY rises, at phase 0xF,
once channels and links are in their final states, and not before. The background writer finishes the extent that an update
waits for first, and otherwise the lowest one left, until its last. (R441, R442, R443, R444, R445, R287, Table 21-2) -/
def Obligations.StartsAndReady : Prop :=
  ∀ (s : State) (pgmode : BitVec 16) (x16 : BitVec 8) (dev : Fin 16) (newest older : Bool),
    (s.mayStart = true → s.rd R.CHIP_BOOTSTAT_RSTCAUSE = 0 → Does (.coldStart pgmode x16 dev newest older) s fun t =>
      t.boot.hold = false ∧ t.boot.startAt = s.gtc ∧ t.rd R.CHIP_BOOTSTAT_PHASE = 5 ∧ t.dram.lines = Tab.empty ∧
        t.tier.pmap = Tab.empty ∧ t.tier.frames = Tab.empty ∧ t.link.epoch = some (Config.nonce (s.freeCtr + 3)) ∧
        t.eng.dk.get 1 = some (Config.drbg s.freeCtr) ∧ t.eng.dk.get 2 = some (Config.drbg (s.freeCtr + 1)) ∧
        t.eng.dk.get 3 = some (Config.drbg (s.freeCtr + 2)) ∧
        t.peat.image = if newest && s.peat.image.isSome then s.peat.image else if older then s.peat.older else none) ∧
    (s.mayStart = false → Does (.coldStart pgmode x16 dev newest older) s fun t => t = s) ∧
    (s.mayStart = true → s.rd R.CHIP_BOOTSTAT_RSTCAUSE ≠ 0 → Does (.warmHoldEnd newest older) s fun t =>
      t.boot.hold = false ∧ t.rd R.CHIP_BOOTSTAT_PHASE = 5 ∧ t.link.epoch = some (Config.nonce s.freeCtr) ∧
        t.eng.dk = s.eng.dk ∧
        (s.rd R.CHIP_BOOTSTAT_RSTCAUSE = 1 → t.dram.lines = s.dram.lines ∧ t.tier.pmap = s.tier.pmap) ∧
        (s.rd R.CHIP_BOOTSTAT_RSTCAUSE ≠ 1 → t.dram.lines = Tab.empty ∧ t.tier.pmap = Tab.empty)) ∧
    (s.mayStart = false → Does (.warmHoldEnd newest older) s fun t => t = s) ∧
    (s.startOver = true → Begins .ready s fun x =>
      x.flag R.CHIP_BOOTSTAT_READY = true ∧ x.rd R.CHIP_BOOTSTAT_PHASE = 15) ∧
    (s.startOver = false → Does .ready s fun t => t = s) ∧
    (s.boot.initNext < s.boot.initTotal → s.boot.initAhead = [] → s.boot.initDone = [] → Begins .extentInitDone s fun x =>
      x.boot = { s.boot with initNext := s.boot.initNext + 1 } ∧ x.tier = s.tier ∧ x.coh = s.coh ∧
        x.extentReady s.boot.initNext = true) ∧
    (∀ e l, s.boot.initAhead = e :: l → Begins .extentInitDone s fun x => x.extentReady e = true ∧ e ∉ x.boot.initAhead ∧
      x.tier = s.tier ∧ x.coh = s.coh) ∧
    (s.nextInit = none → Does .extentInitDone s fun t => t = s)

/-- Orderly and immediate Warm resets, and the end of a drain. With supplies valid and the device not lost, WARM with ORDERLY
begins a drain from now; a second one changes nothing but DRAINLIM. WARM without ORDERLY resets the main die at once, with
RSTCAUSE 2 and READY clear, the Kindling cache, directory, links, counters and domain table at reset; during a LASTGASP
flush either waits for it. A drain that has ended resets with RSTCAUSE 1 and one past its limit with 3; with no drain
neither event does anything. (R391, R448, R449, Table 21-4) -/
def Obligations.WarmResets : Prop :=
  ∀ (s : State) (p : Path) (v : BitVec 32), s.boot.supplies = true → s.flag R.CF_STAT_DEVLOST = false →
    let orderly := setFld (setFld v 31 31 1) 30 30 1
    let now := setFld (setFld v 31 31 1) 30 30 0
    let isReset := fun (cause : Nat) (t : State) => t.boot.hold = true ∧ t.rd R.CHIP_BOOTSTAT_RSTCAUSE = cause ∧
      t.flag R.CHIP_BOOTSTAT_READY = false ∧ t.boot.drain = none ∧ t.kind = State.reset.kind ∧ t.coh = State.reset.coh ∧
      t.dom = State.reset.dom ∧ t.link = State.reset.link ∧ t.ctr = State.reset.ctr ∧ t.core.cores = State.reset.core.cores
    (Writable s p R.CHIP_RSTCTL orderly → s.peat.flush = none → s.boot.drain = none → ∃ x : State, x.boot = { s.boot with drain := some s.gtc, drainPhase := 0 } ∧
      x.rd R.CHIP_RSTCTL_DRAINLIM = fld v 7 0 ∧ x.tier = s.tier ∧ x.dom = s.dom ∧
      exec (.orderlyWarmReset p v) s = .next x.stopMigs.finish.settleDrain) ∧
    (Writable s p R.CHIP_RSTCTL orderly → s.peat.flush = none → s.boot.drain.isSome = true → Does (.orderlyWarmReset p v) s fun t =>
      t = { s with regs := t.regs } ∧ t.rd R.CHIP_RSTCTL_DRAINLIM = fld v 7 0) ∧
    (Writable s p R.CHIP_RSTCTL now → s.peat.flush = none → Does (.immediateWarmReset p v) s (isReset 2)) ∧
    (Writable s p R.CHIP_RSTCTL now → s.peat.flush.isSome = true → Does (.immediateWarmReset p v) s fun t =>
      t = { s with regs := t.regs, boot := { s.boot with resetDue := true } }) ∧
    (Writable s p R.CHIP_RSTCTL orderly → s.peat.flush.isSome = true → Does (.orderlyWarmReset p v) s fun t =>
      t = { s with regs := t.regs, boot := { s.boot with resetDue := true } }) ∧
    (s.boot.drain.isSome = true → s.boot.drainPhase = 3 → s.peat.flush = none → s.drained = true → s.written = true →
      Does .drainComplete s (isReset 1)) ∧
    (s.boot.drain.isSome = true → s.boot.drainPhase = 3 → s.peat.flush = none → s.settleDrain.drainOver = false →
      Does .drainTimeout s (isReset 3)) ∧
    (s.boot.drain.isSome = true → s.boot.drainPhase = 3 → s.peat.flush = none → s.drained = true → s.written = true →
      Does .drainTimeout s (isReset 1)) ∧
    (s.boot.drain = none → Does .drainComplete s (fun t => t = s) ∧ Does .drainTimeout s (fun t => t = s))

/-- The leader's pulse and a follower's correction at an edge of GTC_SYNC. A leader that holds MFP3 drives a pulse when GTC bits
19:0 are 0, and otherwise none. A follower's edge with no load armed computes e, the GTC plus SYNCOFS minus the nearest
multiple of 2^20: LOCKED says that it is at most 4 either way; up to 1,024 the GTC stands and slews; behind by more, it
steps forward by e; ahead by more, it counts at half rate. A load below the GTC is refused with LOADREJ, any other is taken
in bits 63:20; either way ARM is clear. (R453, R454, Table 21-7) -/
def Obligations.PoolTimeAgreement : Prop :=
  ∀ (s : State) (e m : Int),
    let pin := s.claim.mfp.get 3 = 0x23
    let ofs := (BitVec.ofNat 8 (s.rd R.CHIP_GTCCTL_SYNCOFS)).toInt
    let follows := pin ∧ s.rd R.CHIP_GTCCTL_SYNCMODE = 2 ∧ s.boot.hold = false
    let near := (s.gtc : Int) + ofs = m * 2 ^ 20 + e ∧ -(2 ^ 19) ≤ e ∧ e < 2 ^ 19
    let load := (s.rd R.CHIP_GTCLOAD1_LOADHI * 2 ^ 32 + s.rd R.CHIP_GTCLOAD0_LOADLO) * 2 ^ 20 + s.gtc % 2 ^ 20
    (pin → s.rd R.CHIP_GTCCTL_SYNCMODE = 1 → s.gtc % 2 ^ 20 = 0 → Does .gtcSyncPulse s fun t =>
      t = { s with out := .pulse 3 :: s.out }) ∧
    (s.gtc % 2 ^ 20 ≠ 0 → Does .gtcSyncPulse s fun t => t = s) ∧
    (follows → near → s.flag R.CHIP_GTCLOAD1_ARM = false → Does .gtcSyncEdge s fun t =>
      t.flag R.CHIP_GTCCTL_LOCKED = decide (-4 ≤ e ∧ e ≤ 4) ∧
      (-1024 ≤ e → e ≤ 1024 → t.gtc = s.gtc ∧ t.boot.sync.ticks = e.natAbs ∧ t.boot.sync.half = false) ∧
      (e < -1024 → (t.gtc : Int) = s.gtc - e ∧ t.boot.sync.ticks = 0) ∧
      (1024 < e → t.gtc = s.gtc ∧ t.boot.sync.half = true ∧ t.boot.sync.ticks = e.natAbs)) ∧
    (follows → s.flag R.CHIP_GTCLOAD1_ARM = true → load < s.gtc → Does .gtcSyncEdge s fun t =>
      t.flag R.CHIP_GTCLOAD1_ARM = false ∧ t.flag R.CHIP_GTCCTL_LOADREJ = true ∧ s.gtc ≤ t.gtc) ∧
    (follows → s.flag R.CHIP_GTCLOAD1_ARM = true → s.gtc ≤ load → Does .gtcSyncEdge s fun t =>
      t.flag R.CHIP_GTCLOAD1_ARM = false ∧ load ≤ t.gtc) ∧
    (¬ follows → Does .gtcSyncEdge s fun t => t = s)

/-- The sideband's identity, status, telemetry and alert commands. A command that its target takes is answered with status 0 and
the bytes of Table 22-1, and GET_ID, GET_STATUS and GET_TELEM change nothing else; FD_STAT and the feed readings are 0 while
FD_LINK.LOST is set. With input bytes they are answered BAD_LEN. CLEAR_ALERT and an Alert Response release the alert's
causes of now. A command that is not taken, and an SMBus timeout, change nothing. Address assignment gives an enabled I3C
target its dynamic address. (R457, R458, R461, Table 22-1, Table 22-2) -/
def Obligations.SidebandStatusCommands : Prop :=
  ∀ (s : State) (f : SbFrom) (x : Byte) (l : List Byte) (a : BitVec 7),
    let taken := if f.i3c then s.flag R.MG_SBCTL_I3CEN = true else s.flag R.MG_SBCTL_SMBEN = true ∧
      (f.pec = true ∨ s.flag R.MG_SBCTL_PECREQ = false)
    let answers := fun (st : Nat) (out : List Byte) (t : State) => t = { s with out := .sideband st out :: s.out }
    let feedWord := fun (off : Nat) => leBytes 4 (if s.flag R.FD_LINK_LOST then 0 else s.reg off)
    (taken → Does (.getId f []) s (answers 0 ([0x8E, 0x1F, 0x28, 0x01, byteOf (s.rd R.MG_ID_REV),
      byteOf (s.rd R.CHIP_STRAP_DEVNUM)] ++ (List.range 12).map Config.identity ++ [0, 0, 0, 0, 0, 0]))) ∧
    (taken → Does (.getStatus f []) s (answers 0 (leBytes 4 (s.reg R.CF_STAT) ++ leBytes 4 (s.reg R.CHIP_BOOTSTAT) ++
      leBytes 4 (s.reg R.PS_STAT) ++ feedWord R.FD_STAT))) ∧
    (taken → Does (.getTelem f []) s (answers 0 (leBytes 4 (s.reg R.MG_THSTAT) ++ leBytes 4 (s.reg R.MG_THERM) ++
      leBytes 4 (s.reg (R.MG_PWR 0)) ++ leBytes 4 (s.reg (R.MG_PWR 1)) ++ leBytes 4 (s.reg (R.MG_PWR 2)) ++
      leBytes 4 (s.reg (R.MG_PWR 3)) ++ feedWord R.FD_TELA ++ feedWord R.FD_TELB))) ∧
    (taken → Does (.getId f (x :: l)) s (answers 2 []) ∧ Does (.getStatus f (x :: l)) s (answers 2 []) ∧
      Does (.getTelem f (x :: l)) s (answers 2 []) ∧ Does (.clearAlert f (x :: l)) s (answers 2 [])) ∧
    (taken → Does (.clearAlert f []) s fun t => t.smbAlert = false ∧
      t = { s with out := .sideband 0 [] :: s.out, mgmt := { s.mgmt with acked := s.alertCauses } }) ∧
    (s.flag R.MG_SBCTL_SMBEN = true → s.smbAlert = true → Does .alertResponse s fun t => t.smbAlert = false ∧
      t = { s with out := .sideband 0 [byteOf s.sbAddr] :: s.out, mgmt := { s.mgmt with acked := s.alertCauses } }) ∧
    (s.smbAlert = false → Does .alertResponse s fun t => t = s) ∧
    (¬ taken → Does (.getId f l) s (fun t => t = s) ∧ Does (.getStatus f l) s (fun t => t = s) ∧
      Does (.getTelem f l) s (fun t => t = s) ∧ Does (.clearAlert f l) s (fun t => t = s)) ∧
    Does .smbusTimeout s (fun t => t = s) ∧
    (s.flag R.MG_SBCTL_I3CEN = true → Does (.i3cAddressAssignment none a) s fun t =>
      t = { s with mgmt := { s.mgmt with i3c := some a.toNat } })

/-- The sideband's records, bridge accesses and resets. GET_RECORD answers from the chip ring where it answers, and from the
always-on store as a stale copy where it does not. A READ or WRITE of one word is that register access; asleep it is
answered RETRY and wakes the device; with the main die held it is not delivered, and so is one that the control ring leaves
unanswered. A bad length is answered BAD_LEN. RESET acts with its confirmation byte 0xA5 and is BAD_CMD without. (R389,
R459, R460, Table 22-1, Table 22-2) -/
def Obligations.SidebandAccessesAndResets : Prop :=
  ∀ (s : State) (f : SbFrom) (i off v : BitVec 32) (n : Byte), s.sbTakes f = true →
    let answers := fun (st : Nat) (out : List Byte) (t : State) => t = { s with out := .sideband st out :: s.out }
    let window := off.toNat % 4 = 0 ∧ off.toNat + 4 ≤ 2 ^ 28
    let rdArgs := leBytes 4 off ++ [1]
    let wrArgs := leBytes 4 off ++ leBytes 4 v
    let ring := s.ringUp = true ∧ s.asleep = false
    (ring → i ≠ BitVec.allOnes 32 → Does (.getRecord f (leBytes 4 i)) s (answers 0 (s.recordBytes i.toNat))) ∧
    (¬ ring → ∀ r, s.flt.store.head? = some r → Does (.getRecord f [0xFF, 0xFF, 0xFF, 0xFF]) s fun t =>
      ∃ x ∈ s.flt.store, x.index = r.index ∧ t = { s with out := .sideband 5 x.bytes :: s.out }) ∧
    (¬ ring → s.flt.store = [] → Does (.getRecord f (leBytes 4 i)) s (answers 3 [])) ∧
    (Does (.getRecord f []) s (answers 2 [])) ∧
    (Reachable s .sideband → s.flag R.CF_STAT_DEVLOST = false → window → Does (.readWords f rdArgs) s fun t =>
      t = (s.regRead .sideband off.toNat).2.send (.sideband 0 (leBytes 4 (s.regRead .sideband off.toNat).1))) ∧
    (s.boot.hold = false → s.flag R.CF_STAT_DEVLOST = false → s.asleep = false → window → Does (.writeWords f wrArgs) s fun t =>
      t = ((s.regWrite .sideband off.toNat v).finish).send (.sideband 0 [])) ∧
    (s.boot.hold = false → s.flag R.CF_STAT_DEVLOST = false → s.asleep = true → s.pow.exiting = false → window →
      servedAsleep off.toNat = false → Does (.readWords f rdArgs) s fun t => t.pow.exiting = true ∧ t.rd R.PS_STAT_WAKESRC = 4 ∧
        t.out = .sideband 4 [] :: s.out) ∧
    (s.boot.hold = true → window → servedAsleep off.toNat = false → Does (.readWords f rdArgs) s (answers 3 []) ∧
      Does (.writeWords f wrArgs) s (answers 3 [])) ∧
    (n.toNat = 0 ∨ 32 < n.toNat → Does (.readWords f (leBytes 4 off ++ [n])) s (answers 2 [])) ∧
    (Does (.writeWords f (leBytes 4 off)) s (answers 2 [])) ∧
    (Does (.ringAnswerTimeout f .read) s (answers 3 []) ∧ Does (.ringAnswerTimeout f .write) s (answers 3 [])) ∧
    (Does (.sidebandResetOrderly f [0xA5]) s fun t => t = s.askOrderly.send (.sideband 0 [])) ∧
    (s.boot.supplies = true → s.boot.hold = false → s.peat.flush = none → Does (.sidebandResetImmediate f [0xA5]) s fun t =>
      t.boot.hold = true ∧ t.rd R.CHIP_BOOTSTAT_RSTCAUSE = 2 ∧ t.flag R.CHIP_BOOTSTAT_READY = false) ∧
    (n ≠ 0xA5 → Does (.sidebandResetOrderly f [n]) s (answers 1 []) ∧ Does (.sidebandResetImmediate f [n]) s (answers 1 []) ∧
      Does (.sidebandResetOrderly f []) s (answers 1 []) ∧ Does (.sidebandResetImmediate f []) s (answers 1 []))

/-- The sensors, the TAP's instructions and the lock register. A sensor poll shows the four temperatures, their maximum and the
four powers, and latches WARN when the maximum passes THWARN. A TAP instruction is loaded; one that drives pins while the
device is ready, or KROVVAN while TAPLK is set, leaves BYPASS and records LOCK_VIOLATION. A lock once set stays set: a write
of MG_LOCK adds bits and takes none away. (R462, R464, R467, Table 22-4) -/
def Obligations.SensorsTapAndLocks : Prop :=
  ∀ (s : State) (temps : BitVec 32) (pwr : BitVec 64) (ins : TapInstr) (p : Path) (v : BitVec 32),
    let top := max (max (fld temps 7 0) (fld temps 15 8)) (max (fld temps 23 16) (fld temps 31 24))
    let drives := ins = .extest ∨ ins = .extestPulse ∨ ins = .extestTrain ∨ ins = .clamp ∨ ins = .highz
    let refused := (drives ∧ s.flag R.CHIP_BOOTSTAT_READY = true) ∨ (ins = .krovvan ∧ s.flag R.MG_LOCK_TAPLK = true)
    Does (.sensorPoll temps pwr) s (fun t => t = { s with regs := t.regs } ∧ t.reg R.MG_THERM = temps ∧
      t.rd R.MG_THSTAT_TMAX = top ∧ (∀ k, k < 4 → t.rd (R.MG_PWR_PWR k) = fld pwr (16 * k + 15) (16 * k)) ∧
      t.flag R.MG_THSTAT_WARN = (s.flag R.MG_THSTAT_WARN || decide (s.rd R.MG_THCTL_THWARN + 40 < top))) ∧
    (¬ refused → Does (.tapInstruction ins) s fun t => t = { s with mgmt := { s.mgmt with tap := ins } }) ∧
    (refused → s.flag R.CF_STAT_DEVLOST = false → Does (.tapInstruction ins) s fun t => t.mgmt.tap = .bypass ∧
      ∃ r ∈ t.flt.ring, r.type = 0x0408 ∧ r.gtcN = s.gtc) ∧
    (Reachable s p → Does (.lockWrite p v) s fun t =>
      fld (t.reg R.MG_LOCK) 31 24 = fld (s.reg R.MG_LOCK) 31 24 ||| fld v 31 24 ∧ fld (t.reg R.MG_LOCK) 23 0 = 0 ∧
        (fld (s.reg R.MG_LOCK) 31 24 &&& fld v 31 24 = fld (s.reg R.MG_LOCK) 31 24 →
          ∀ off, off ≠ R.MG_LOCK → t.reg off = s.reg off)) ∧
    (s.pathShut p = true → s.boot.hold = false → Does (.lockWrite p v) s fun t => t.reg R.MG_LOCK = s.reg R.MG_LOCK)

/-- SPDM requests, and what a secured session may set. Over an open DOE: measurement 4 is the lock register; a key exchange is
opened with a response of free bytes; a good FINISH of one makes the session and a bad one does not; END_SESSION ends it. In
a session SET_KEK sets pending DK6 or DK7, SET_CERTIFICATE fills slots 1 to 7 unless SECLK is set, a key delivery installs
and answers the status, and IDE_KM sets a stream's key; outside one each is answered ERROR and changes nothing. (R153, R313,
R465, R466, Table 22-3) -/
def Obligations.SpdmSessionsAndKeys : Prop :=
  ∀ (s : State) (p : Fin 32) (sel : BitVec 16) (slot : Fin 8) (k : BitVec 256) (chain : List Byte) (blob : BitVec 960),
    DoeOpen s p →
    let answers := fun (ok : Bool) (out : List Byte) (t : State) => t = { s with out := .spdm p ok out :: s.out }
    let session := s.mgmt.secured.contains p.val = true
    let inst := s.installKey (some 0xFF) ((ofLe 16 (((leBytes 120 blob).drop 8).take 2)).toNat % 16384) (leBytes 120 blob)
    Does (.spdmRequest p (.measurements 4)) s (answers true (leBytes 4 (s.reg R.MG_LOCK))) ∧
    (∀ r, r = .version ∨ r = .capabilities ∨ r = .algorithms ∨ r = .digests ∨ r = .challenge slot → Does (.spdmRequest p r) s fun t =>
      t = { s with out := .spdm p true (leBytes 64 (Config.free s.freeCtr)) :: s.out, freeCtr := s.freeCtr + 1 }) ∧
    Does (.spdmRequest p .keyExchange) s (fun t => p.val ∈ t.mgmt.opening ∧ t.mgmt.secured = s.mgmt.secured ∧
      t.out = .spdm p true (leBytes 64 (Config.free s.freeCtr)) :: s.out) ∧
    (p.val ∈ s.mgmt.opening → Does (.spdmRequest p (.finish true)) s fun t => p.val ∈ t.mgmt.secured ∧ p.val ∉ t.mgmt.opening ∧
      t.out = .spdm p true [] :: s.out) ∧
    (p.val ∈ s.mgmt.opening → Does (.spdmRequest p (.finish false)) s fun t => t.mgmt.secured = s.mgmt.secured ∧
      p.val ∉ t.mgmt.opening ∧ t.out = .spdm p false [] :: s.out) ∧
    (session → Does (.spdmRequest p .endSession) s fun t => p.val ∉ t.mgmt.secured ∧ t.out = .spdm p true [] :: s.out) ∧
    (session → sel.toNat ≤ 1 → Does (.setKek p sel k) s fun t => t = { s with
      out := .spdm p true [] :: s.out, eng := { s.eng with dk := s.eng.dk.put (6 + sel.toNat) (some k) } }) ∧
    (session → 1 < sel.toNat → Does (.setKek p sel k) s (answers false [])) ∧
    (session → slot ≠ 0 → s.flag R.MG_LOCK_SECLK = false → Does (.setCertificate p slot chain) s fun t => t = { s with
      out := .spdm p true [] :: s.out, mgmt := { s.mgmt with certs := s.mgmt.certs.put slot chain } }) ∧
    (session → (slot = 0 ∨ s.flag R.MG_LOCK_SECLK = true) → Does (.setCertificate p slot chain) s (answers false [])) ∧
    (session → Begins (.spdmKeyDelivery p blob) s fun x => x = inst.2.send (.spdm p (inst.1 == 0) [byteOf inst.1])) ∧
    (session → Does (.ideKm p false k) s fun t => (t.head p).ide = 1 ∧ (t.head p).ideKey = some k ∧
      (t.head p).ideIo = (s.head p).ideIo ∧ t.out = .spdm p true [] :: s.out) ∧
    (session → Does (.ideKm p true k) s fun t => (t.head p).ide = 1 ∧ (t.head p).ideIo = some k ∧
      (t.head p).ideKey = (s.head p).ideKey) ∧
    (¬ session → Does (.setKek p sel k) s (answers false []) ∧ Does (.setCertificate p slot chain) s (answers false []) ∧
      Does (.ideKm p false k) s (answers false []) ∧ Begins (.spdmKeyDelivery p blob) s (answers false []))

/-- What a register write does to each field, and which writes are discarded and recorded. A 4 B write of a register of a
region's units that only holds settings gives each writable field the written bits, clears each W1C field where a 1 is
written, keeps the others, and touches no other register. A reserved value discards the whole write with a BAD_VALUE record
at the offset; so do a narrow width, a misaligned offset and an unassigned one. A shut path's write is a LOCK_VIOLATION
record. 8 B are two words, the lower first. A head's tolerance takes its scale and value. (R14, R15, R16, R467, R471, R472,
R494) -/
def Obligations.RegisterWritesTakeTheirFields : Prop :=
  ∀ (s : State) (p : Path) (off : BitVec 28) (v : BitVec 64) (r : RegRow) (port : Fin 32),
    let w := v.setWidth 32
    let o := off.toNat
    let open_ := Reachable s p ∧ s.flag R.CF_STAT_DEVLOST = false
    (open_ → PlainUnitReg o r → s.lockedFields o = [] → legalWrite o w = true → o % 4 = 0 →
      Begins (.registerWrite p (.window off) .b4 v) s fun x => (∀ a, a ≠ o → x.reg a = s.reg a) ∧
        ∀ f ∈ r.fields, x.rd ⟨o, f.hi, f.lo⟩ = match f.acc with
          | .rw | .rws | .rwl => fld w f.hi f.lo
          | .w1c => fld (s.reg o &&& ~~~w) f.hi f.lo
          | .ro | .wo => s.rd ⟨o, f.hi, f.lo⟩) ∧
    (open_ → regRow o = some r → ownCheck o = false → s.lockedFields o = [] → legalWrite o w = false → o % 4 = 0 →
      Begins (.registerWrite p (.window off) .b4 v) s fun x => RecordedNow s x 0x0409 o) ∧
    (open_ → Begins (.registerWrite p (.window off) .b1 v) s (fun x => RecordedNow s x 0x0409 o) ∧
      Begins (.registerWrite p (.window off) .b2 v) s fun x => RecordedNow s x 0x0409 o) ∧
    (open_ → o % 4 ≠ 0 → Begins (.registerWrite p (.window off) .b4 v) s (fun x => RecordedNow s x 0x0409 o) ∧
      Begins (.registerWrite p (.window off) .b8 v) s fun x => RecordedNow s x 0x0409 o) ∧
    (open_ → regRow o = none → o % 4 = 0 → Begins (.registerWrite p (.window off) .b4 v) s fun x => RecordedNow s x 0x0409 o) ∧
    (s.boot.hold = false → s.pathShut p = true → s.flag R.CF_STAT_DEVLOST = false → o % 4 = 0 →
      Begins (.registerWrite p (.window off) .b4 v) s fun x => RecordedNow s x 0x0408 o) ∧
    (s.boot.hold = true → Begins (.registerWrite p (.window off) .b4 v) s fun x => x = s) ∧
    (o % 8 = 0 → Begins (.registerWrite p (.window off) .b8 v) s fun x =>
      x = (s.regWrite p o w).regWrite p (o + 4) ((v >>> 32).setWidth 32)) ∧
    (s.boot.hold = false → (s.place port).on = true → (s.head port).flit ≠ 0 → fld w 12 10 ≤ 5 →
      Begins (.registerWrite p (.tolerance port) .b4 v) s fun x =>
        (x.head port).tolScale = fld w 12 10 ∧ (x.head port).tolVal = fld w 9 0)

/-- A counter is cleared, read whole and shown in its domain's page; request tagging is enabled, seeded, read and stopped. A
write of a programmable counter's control register with CLR zeroes that counter alone; a fixed counter's is read-only. A
read of the low word returns it and latches the high word, of the count or of the snapshot copy, and changes nothing else. A
domain's page is answered 8 bytes at a time, with zeros where the port may not read it, and changes nothing. Enabling a
region's tagging from 0 restarts its buffer: WPTR, FULL and STOPPED are 0. A seed loads the region's LFSR, 0 loading 1. A
read of TRr_DATA0 returns the low word of the record at IDX and latches the record. An edge of TRACE_TRIG, whose pin it
holds, stops each region that is enabled with TRIGSTOP set; without the claim it does nothing. (R362, R364, R365, R370,
R371, R372, R376, Table 16-3, Table 16-4) -/
def Obligations.CountersReadAndRequestsTagged : Prop :=
  ∀ (s : State) (p : Path) (bank : Fin 5) (k : Fin 80) (v : BitVec 32) (snap : Bool) (port : Fin 32) (dom : BitVec 14) (word : Fin 512)
    (r : Fin 4) (high : Bool),
    let x := bank.val * 128 + k.val
    let open_ := if bank.val = 4 then 32 else 64
    let size := if bank.val = 4 then 32 else 80
    let count := (if snap then s.ctr.snap else s.ctr.count).get x
    let rec_ := s.ctr.trace.get (r.val * 4096 + s.rd (R.TR_IDX_IDX r))
    (Writable s p (ctlOff bank k) (setFld v 30 30 1) → k.val < open_ → Does (.counterClear p bank k v) s fun t =>
      t.ctr.count.get x = 0 ∧ (∀ y, y ≠ x → t.ctr.count.get y = s.ctr.count.get y) ∧ t.ctr.snap = s.ctr.snap ∧
        t.dram = s.dram ∧ t.flt = s.flt) ∧
    (Writable s p (ctlOff bank k) (setFld v 30 30 1) → open_ ≤ k.val → Does (.counterClear p bank k v) s fun t => t = s) ∧
    (Reachable s p → k.val < size → Does (.counterRead p bank k snap) s fun t =>
      t = { s with regs := t.regs, out := .readData p (ctrLo bank k snap) (count.setWidth 32) :: s.out } ∧
        t.reg (ctrLo bank k snap + 4) = (count >>> 32).setWidth 32 ∧
        ∀ off, off ≠ ctrLo bank k snap + 4 → t.reg off = s.reg off) ∧
    (DoeOpen s port → Does (.counterPageRead port dom word) s fun t => ∃ b, b.length = 8 ∧
      t = { s with out := .page port dom.toNat (8 * word.val) b :: s.out } ∧
      ((s.entry dom.toNat).valid = false ∨ (s.entry dom.toNat).ctrView = false ∨ (s.entry dom.toNat).rdPorts.testBit port = false →
        b = [0, 0, 0, 0, 0, 0, 0, 0])) ∧
    (Writable s p (R.TR_CTL r) (setFld v 31 31 1) → s.flag (R.TR_CTL_EN r) = false → Does (.traceEnable p r v) s fun t =>
      t.flag (R.TR_CTL_EN r) = true ∧ t.rd (R.TR_STAT_WPTR r) = 0 ∧ t.flag (R.TR_STAT_FULL r) = false ∧
        t.flag (R.TR_STAT_STOPPED r) = false ∧ t.ctr = s.ctr) ∧
    (Writable s p (R.TR_SEED r) v → Does (.traceSeedWrite p r v) s fun t =>
      t.lfsr r = (if v = 0 then 1 else v) ∧ (∀ q, q ≠ r.val → t.lfsr q = s.lfsr q) ∧ t.ctr.trace = s.ctr.trace) ∧
    (Reachable s p → Does (.traceDataRead p r) s fun t =>
      t.out = .readData p (R.TR_DATA r 0) (rec_.setWidth 32) :: s.out ∧ t.ctr.latched.get r = rec_ ∧ t.regs = s.regs) ∧
    (s.claim.mfp.get (if high then 7 else 6) = 0x27 → Does (.traceTrigEdge high) s fun t =>
      t = { s with regs := t.regs } ∧ ∀ q, q < 4 → t.flag (R.TR_STAT_STOPPED q) =
        (s.flag (R.TR_STAT_STOPPED q) || (s.flag (R.TR_CTL_EN q) && s.flag (R.TR_CTL_TRIGSTOP q)))) ∧
    (s.claim.mfp.get (if high then 7 else 6) ≠ 0x27 → Does (.traceTrigEdge high) s fun t => t = s)

/-- The Halyard freeze is armed, disarmed, released, and taken bank by bank. Arming with a target takes it, or 512 ticks from
now with LATE when it lies nearer, and needs a timer; arming relative takes 512 ticks from now; arming external waits for an
edge of HALYARD_IN, whose target is the first multiple of 1,024 at least 512 ticks after it. A freeze that is armed already
stays. Disarming drops the target and the timer. RELEASE restarts every bank. At the target each bank copies its counters,
and stops with FREEZE set; before it none does. (R367, R368, R377, Table 16-1) -/
def Obligations.HalyardFreeze : Prop :=
  ∀ (s : State) (p : Path) (v : BitVec 32) (bank : Fin 5),
    let go := fun src => setFld (setFld v 31 31 1) 30 29 src
    let tgt := s.rd (R.CHIP_HALTGT_T 0) + 2 ^ 32 * s.rd (R.CHIP_HALTGT_T 1)
    let armed := s.flag R.CHIP_HALSTAT_ARMED = true
    let timer := ∃ i ∈ [3, 4, 5, 6, 7], s.claim.aot.get i = 0x14 ∨ s.claim.aot.get i = 0
    let due := fun (x : Nat) => s.ctr.target = some x ∧ x ≤ s.gtc ∧ bank.val ∉ s.ctr.taken ∧ s.rd R.PS_STAT_STATE ≤ 1
    (Writable s p R.CHIP_HALCTL (go 0) → ¬ armed → timer → Does (.halyardArmTarget p v) s fun t =>
      t.ctr.target = some (max tgt (s.gtc + 512)) ∧ t.flag R.CHIP_HALSTAT_ARMED = true ∧ t.ctr.count = s.ctr.count ∧
        t.flag R.CHIP_HALSTAT_LATE = (s.flag R.CHIP_HALSTAT_LATE || decide (tgt < s.gtc + 512))) ∧
    (Writable s p R.CHIP_HALCTL (go 0) → ¬ armed → ¬ timer → Does (.halyardArmTarget p v) s fun t =>
      t.ctr.target = s.ctr.target ∧ t.flag R.CHIP_CLAIMSTAT_DENIED = true) ∧
    (Writable s p R.CHIP_HALCTL (go 1) → ¬ armed → Does (.halyardArmRelative p v) s fun t =>
      t.ctr.target = some (s.gtc + 512) ∧ t.flag R.CHIP_HALSTAT_ARMED = true ∧ t.ctr.count = s.ctr.count) ∧
    (Writable s p R.CHIP_HALCTL (go 2) → ¬ armed → s.claim.mfp.get 4 = 0x24 → Does (.halyardArmExternal p v) s fun t =>
      t.ctr.awaitEdge = true ∧ t.ctr.target = s.ctr.target) ∧
    (Writable s p R.CHIP_HALCTL (go 0) → Writable s p R.CHIP_HALCTL (go 1) → armed →
      Does (.halyardArmTarget p v) s (fun t => t.ctr.target = s.ctr.target) ∧
      Does (.halyardArmRelative p v) s fun t => t.ctr.target = s.ctr.target) ∧
    (Writable s p R.CHIP_HALCTL (go 3) → Does (.halyardDisarm p v) s fun t => t.ctr.target = none ∧ t.ctr.awaitEdge = false ∧
      t.flag R.CHIP_HALSTAT_ARMED = false ∧ ∀ i ∈ [3, 4, 5, 6, 7], t.claim.aot.get i ≠ 0x14) ∧
    (Writable s p R.CHIP_HALCTL (setFld (setFld v 31 31 0) 27 27 1) → Does (.halyardRelease p v) s fun t =>
      t.ctr = { s.ctr with frozen := Tab.empty } ∧ t.flag R.CHIP_CBSTAT_FROZEN = false ∧
        ∀ r, r < 4 → t.flag (R.RC_BSTAT_FROZEN r) = false) ∧
    (s.ctr.awaitEdge = true → s.claim.mfp.get 4 = 0x24 → ¬ armed → Does .halyardInEdge s fun t => ∃ x,
      t.ctr.target = some x ∧ x % 1024 = 0 ∧ s.gtc + 512 ≤ x ∧ x < s.gtc + 512 + 1024 ∧ t.flag R.CHIP_HALSTAT_ARMED = true) ∧
    (armed → Does .halyardInEdge s fun t => t = s) ∧
    (∀ x, due x → Does (.halyardSnapshot bank) s fun t => t.ctr.count = s.ctr.count ∧
      (∀ k, k < (if bank.val = 4 then 32 else 80) → t.ctr.snap.get (bank.val * 128 + k) = s.ctr.count.get (bank.val * 128 + k)) ∧
      (s.flag R.CHIP_HALCTL_FREEZE = true → t.ctr.frozen.get bank = true)) ∧
    (∀ x, s.ctr.target = some x → s.gtc < x → Does (.halyardSnapshot bank) s fun t => t = s) ∧
    (s.ctr.target = none → Does (.halyardSnapshot bank) s fun t => t = s)

/-- Lanes train, fail, are classified and adapted. A symbol count is shown and, above ERRTH on an Active lane not yet judged,
sends it to Adapt for a classifying retrain; so does a lost CDR lock; a second fault meanwhile is judged lasting, and one on
the standby lane disables substitution. A classification that found it transient records class 1; a lasting one fails the
lane of a CXL group with class 2. A trained lane is Active with its polarity. Adaptation moves CTLE and VGA of a lane that
adapts continuously. Detection and its repeat start and end as the results of Table 11-6 say. A pennant pattern on enough
lanes sets WAKEDET. (R246, R247, R250, R251, R258, R259, R261, Table 11-4) -/
def Obligations.LaneFaultsAndTraining : Prop :=
  ∀ (s : State) (g : Fin 16) (l : Fin 9) (n : BitVec 32) (pol : Bool) (ctle : Fin 41) (vga : Fin 32) (taps : BitVec 128)
    (lanes : BitVec 9) (p : Path) (v : BitVec 32) (rx : RxResult),
    let st := s.laneSt g l
    let judge := (s.laneOf g l).judge
    let seen := fun (t : State) => t.laneSt g l = 2 ∧ (t.laneOf g l).judge = 1 ∧ t.flag (R.PG_LN_STAT_FLTEVT g l) = true
    let failed := fun (x : State) => x.laneSt g l = 5 ∧ x.rd (R.PG_LN_STAT_FCLASS g l) = 2 ∧ x.flag ((R.PG_SDSTAT_LNFAIL g).bitAt l) = true
    (st = 3 → n.toNat ≤ s.rd (R.PG_SDCTL_ERRTH g) → Begins (.symbolInterval g l n) s fun x =>
      x.rd (R.PG_LN_STAT_SYMERR g l) = min n.toNat 65535 ∧ x.laneSt g l = 3) ∧
    (st = 3 → s.rd (R.PG_SDCTL_ERRTH g) < n.toNat → judge = 0 → Begins (.symbolInterval g l n) s seen) ∧
    ((st = 2 ∨ st = 3) → judge = 0 → Begins (.laneFault g l) s seen) ∧
    ((st = 2 ∨ st = 3) → judge ≠ 0 → Begins (.laneFault g l) s fun x => (x.laneOf g l).judge = 4) ∧
    (st = 4 → Begins (.laneFault g l) s fun x => x.flag (R.PG_SDSTAT_SPAREFLT g) = true ∧ x.laneSt g l = 4) ∧
    (judge = 3 → Begins (.laneClassified g l) s fun x => (x.laneOf g l).judge = 0 ∧ x.rd (R.PG_LN_STAT_FCLASS g l) = 1) ∧
    (judge = 4 → s.pgMode g ≠ 2 → Begins (.laneClassified g l) s failed) ∧
    (st = 2 → Does (.laneActive g l pol ctle vga taps) s fun t => t.laneSt g l = 3 ∧
      t.flag ((R.PG_SDSTAT_POL g).bitAt l) = pol ∧ (t.laneOf g l).judge = if judge = 1 then 2 else judge) ∧
    (s.rd (R.PG_LN_RXEQ_ADAPT g l) = 0 → (st = 3 ∨ st = 4) → Does (.adaptReeval g l ctle vga) s fun t =>
      t.rd (R.PG_LN_RXEQ_CTLE g l) = ctle ∧ t.rd (R.PG_LN_RXEQ_VGA g l) = vga ∧ t = { s with regs := t.regs }) ∧
    (Writable s p (R.PG_LN_DETECT g l) v → v.getLsbD 31 = true → s.flag (R.PG_LN_DETECT_BUSY g l) = false →
      (st = 0 ∨ st = 5 ∨ st = 6) → Does (.detection p g l v) s fun t =>
        t.laneSt g l = 1 ∧ t.flag (R.PG_LN_DETECT_BUSY g l) = true ∧ (t.laneOf g l).was = 1 + st) ∧
    (s.flag (R.PG_LN_DETECT_BUSY g l) = true → s.pgMode g ≠ 2 → s.lane.subst.get g = 0 → (s.laneOf g l).was = 0 →
      Begins (.detectionDone g l .pass .pass) s fun x => x.laneSt g l = 2 ∧ x.flag (R.PG_LN_DETECT_BUSY g l) = false ∧
        x.rd (R.PG_LN_DETECT_TXRES g l) = 1 ∧ x.rd (R.PG_LN_DETECT_RXRES g l) = 1) ∧
    (s.flag (R.PG_LN_DETECT_BUSY g l) = true → s.pgMode g ≠ 2 → s.lane.subst.get g = 0 →
      Begins (.detectionDone g l .openP rx) s failed) ∧
    (s.alone g = true → Does (.detectionRepeat g) s fun t => ∀ i ∈ s.groupLanes g,
      t.laneSt g i = 1 ∧ t.flag (R.PG_LN_DETECT_BUSY g i) = true) ∧
    (s.pgMode g = 2 → s.flag (R.PG_SDCTL_WAKEEN g) = true → s.rd (R.PG_SDCTL_WAKEMIN g) + 1 ≤ (bitsOf 9 lanes).length →
      Does (.pennantPatternDetect g lanes) s fun t => t.flag (R.PG_SDSTAT_WAKEDET g) = true ∧
        (s.rd R.PS_STAT_STATE ≠ 0 → s.pow.exiting = false → t.pow.exiting = true ∧ t.rd R.PS_STAT_WAKESRC = 3)) ∧
    (s.flag (R.PG_SDCTL_WAKEEN g) = false → Does (.pennantPatternDetect g lanes) s fun t => t = s)

/-- Test mode, PRBS and eye margining of a lane. A group written into Test has its nine lanes in Test. A pattern is refused
outside Test and taken in it; CLR zeroes the lane's counts, keeping an error of that very clock. Lock is gained and lost by
a checker that runs; a loss counts once and adds the bits checked. A read of the error count latches both counters. A margin
run starts on a lane in Active, Standby or Test, is refused while the host has the sampler, and ends with its errors; a
host's margin command takes the sampler on a CXL lane from 16 GT/s, is told what margining there is, and gives the sampler
back. (R241, R253, R254, R255, R256, R263, Table 11-12) -/
def Obligations.LaneTestsAndMargining : Prop :=
  ∀ (s : State) (p : Path) (g : Fin 16) (l : Fin 9) (v e : BitVec 32) (err : Bool) (bits errs : BitVec 48),
    let st := s.laneSt g l
    let busy := s.flag (R.PG_LN_MARGSTAT_BUSY g l)
    let clr := setFld v 31 31 1
    let host := (s.laneOf g l).margHost
    let c := min ((s.laneOf g l).checked + bits.toNat) (2 ^ 48 - 1)
    let d := min ((s.laneOf g l).errors + errs.toNat) (2 ^ 48 - 1)
    let locked := s.checks g l = true ∧ s.flag (R.PG_LN_PRBSCTL_LOCK g l) = true
    let cxl := s.pgMode g = 1 ∧ 3 ≤ s.rd (R.PG_SDSTAT_RATECUR g) ∧ st = 3
    (Writable s p (R.PG_SDCTL g) v → fld v 31 30 = 3 → s.pgMode g ≠ 3 → Begins (.serdesTestMode p g v) s fun x =>
      x.pgMode g = 3 ∧ ∀ i, i < 9 → x.laneSt g i = 6) ∧
    (Writable s p (R.PG_SDCTL g) v → fld v 31 30 = 2 → fld v 29 27 < 6 → s.flag R.CF_STAT_DEVLOST = false →
      Begins (.serdesTestMode p g v) s fun x => RecordedNow s x 0x0409 (R.PG_SDCTL g)) ∧
    (Writable s p (R.PG_LN_PRBSCTL g l) v → s.pgMode g ≠ 3 → fld v 30 28 ≠ 0 → Does (.prbsGen p g l v) s fun t =>
      t.reg (R.PG_LN_PRBSCTL g l) = s.reg (R.PG_LN_PRBSCTL g l) ∧ t.lane = s.lane) ∧
    (Writable s p (R.PG_LN_PRBSCTL g l) v → s.pgMode g = 3 → st ≠ 4 → Does (.prbsGen p g l v) s fun t =>
      t.rd (R.PG_LN_PRBSCTL_GEN g l) = fld v 30 28 ∧ t.rd (R.PG_LN_PRBSCTL_CHK g l) = fld v 27 25 ∧
        (t.laneOf g l).gen = BitVec.allOnes 31) ∧
    (Writable s p (R.PG_LN_PRBSCTL g l) clr → s.pgMode g = 3 → Does (.prbsClear p g l v err) s fun t =>
      (t.laneOf g l).checked = 0 ∧ (t.laneOf g l).errors = (if err then 1 else 0) ∧ t.rd (R.PG_LN_PRBSCTL_LOSSCNT g l) = 0) ∧
    (s.checks g l = true → Does (.prbsLock g l) s fun t => t.flag (R.PG_LN_PRBSCTL_LOCK g l) = true ∧ t.lane = s.lane) ∧
    (s.checks g l = false → Does (.prbsLock g l) s (fun t => t = s) ∧ Does (.prbsLockLoss g l bits errs) s fun t => t = s) ∧
    (locked → Does (.prbsLockLoss g l bits errs) s fun t => t.flag (R.PG_LN_PRBSCTL_LOCK g l) = false ∧
      (t.laneOf g l).checked = c ∧ (t.laneOf g l).errors = d ∧ (st = 4 → t.flag (R.PG_SDSTAT_SPAREFLT g) = true)) ∧
    (Reachable s p → locked → Does (.prbsSnapshotRead p g l bits errs) s fun t =>
      t.out = .readData p (R.PG_LN_PRBSERR g l) (t.reg (R.PG_LN_PRBSERR g l)) :: s.out ∧
        t.rd (R.PG_LN_PRBSERR_ERRLO g l) = d % 2 ^ 32 ∧ t.rd (R.PG_LN_PRBSCNT_CNTLO g l) = c % 2 ^ 32 ∧
        t.rd (R.PG_LN_PRBSHI_CNTHI g l) = c / 2 ^ 32 ∧ t.rd (R.PG_LN_PRBSHI_ERRHI g l) = d / 2 ^ 32) ∧
    (Writable s p (R.PG_LN_MARGCTL g l) v → v.getLsbD 31 = true → busy = false → (st = 3 ∨ st = 4 ∨ st = 6) →
      Does (.marginRun p g l v) s fun t => t.flag (R.PG_LN_MARGSTAT_BUSY g l) = true ∧ t.rd (R.PG_LN_MARGSTAT_RESULT g l) = 0) ∧
    (Writable s p (R.PG_LN_MARGCTL g l) v → v.getLsbD 31 = true → busy = true → host = true →
      Does (.marginRun p g l v) s fun t => t.rd (R.PG_LN_MARGSTAT_RESULT g l) = 3 ∧ t.lane = s.lane) ∧
    (busy = true → host = false → Does (.marginRunDone g l e) s fun t => t.flag (R.PG_LN_MARGSTAT_BUSY g l) = false ∧
      t.rd (R.PG_LN_MARGSTAT_RESULT g l) = 1 ∧ t.rd (R.PG_LN_MARGSTAT_ERRS g l) = min e.toNat (2 ^ 24 - 1)) ∧
    (busy = false → Does (.marginRunDone g l e) s fun t => t = s) ∧
    (cxl → busy = false → Does (.laneMarginCommand g l true) s fun t =>
      t.flag (R.PG_LN_MARGSTAT_BUSY g l) = true ∧ (t.laneOf g l).margHost = true ∧ t.out = .margin g l marginReport :: s.out) ∧
    (cxl → host = true → Does (.laneMarginCommand g l false) s fun t =>
      t.flag (R.PG_LN_MARGSTAT_BUSY g l) = false ∧ (t.laneOf g l).margHost = false) ∧
    (¬ cxl → ∀ b, Does (.laneMarginCommand g l b) s fun t => t = s)

/-- What a link in L0 sends in a slot. In L0 a NAK that is due is sent in an idle flit, counted and no longer due; else a replay
in progress sends its next kept flit again; else, with nothing queued and no credit owed, an idle flit goes out and NEXT
stands. At a skip position no flit is sent but a skip flit; after 16,384 slots an alignment marker goes out on each lane
that carries traffic and slots count from 0. A link out of Resume and L0, or of a device that is lost, sends none. A replay
timer that expires makes the NAK due again. (R273, R274, R276, R277, R279, Table 12-4) -/
def Obligations.LinkFlitsSent : Prop :=
  ∀ (s : State) (g : Fin 16),
    let e := s.linkEnd g
    let d := s.peerDev g
    let live := s.pgMode g = 2 ∧ s.flag R.CF_STAT_DEVLOST = false
    let slotOpen := live ∧ s.lt g = 6 ∧ e.slot % 2048 ≠ 2047 ∧ e.slot < 16384
    let ack := (s.expSeq g + 4095) % 4096
    let idle := fun (nak : Bool) => Output.flit g (s.laneMap g).length (flitBits
      { ftype := 1, nak := nak, rpl := false, ack := ack, prc := 0, pwc := 0, lcmd := 0 } [] 0x1000)
    let due := (s.lt g = 4 ∨ s.lt g = 5 ∨ s.lt g = 6) ∧ (s.lt g = 4 ∨ 16384 ≤ e.slot)
    (slotOpen → e.nakDue = true → Begins (.flitSend g) s fun x => x.out = idle true :: s.out ∧ (x.linkEnd g).nakDue = false ∧
      (x.linkEnd g).slot = e.slot + 1 ∧ x.rd (R.PG_LKCNT_NAKS g) = min (s.rd (R.PG_LKCNT_NAKS g) + 1)
        (2 ^ ((R.PG_LKCNT_NAKS g).hi - (R.PG_LKCNT_NAKS g).lo + 1) - 1)) ∧
    (∀ q f, slotOpen → e.nakDue = false → e.replayAt = some q → e.buf.find? (fun x => x.seq == q) = some f →
      Begins (.flitSend g) s fun x => x.out = .flit g (s.laneMap g).length (flitBits
        { ftype := 0, nak := false, rpl := e.rplFlag, ack := ack, prc := f.prc, pwc := f.pwc, lcmd := 0 } f.msgs f.seq) :: s.out ∧
        (x.linkEnd g).buf = e.buf ∧ (x.linkEnd g).rplFlag = false ∧ x.nextSeq g = s.nextSeq g) ∧
    (slotOpen → e.nakDue = false → e.replayAt = none → s.link.outq.get d = [] → s.link.pret.get (2 * d) = 0 →
      s.link.pret.get (2 * d + 1) = 0 → Begins (.flitSend g) s fun x => x.out = idle false :: s.out ∧
        x.nextSeq g = s.nextSeq g ∧ (x.linkEnd g).buf = e.buf ∧ (x.linkEnd g).slot = e.slot + 1) ∧
    (e.slot % 2048 = 2047 → Begins (.flitSend g) s fun x => x = s) ∧
    (live → (s.lt g = 5 ∨ s.lt g = 6) → e.slot % 2048 = 2047 → Does (.skipFlit g) s fun t => t.out = .flit g (s.laneMap g).length (flitBits
      { ftype := 3, nak := false, rpl := false, ack := 0, prc := 0, pwc := 0, lcmd := 0 } [] 0x1000) :: s.out ∧
      (t.linkEnd g).slot = e.slot + 1 ∧ t.regs = s.regs) ∧
    (e.slot % 2048 ≠ 2047 → Does (.skipFlit g) s fun t => t = s) ∧
    (live → due → Does (.alignmentMarker g) s fun t => t.out.length = s.out.length + (s.laneMap g).length ∧
      (t.linkEnd g).slot = 0 ∧ (t.linkEnd g).markers = e.markers + 1) ∧
    (¬ due → Does (.alignmentMarker g) s fun t => t = s) ∧
    (s.flag R.CF_STAT_DEVLOST = true → Begins (.flitSend g) s (fun x => x = s) ∧ Does (.skipFlit g) s (fun t => t = s) ∧
      Does (.alignmentMarker g) s fun t => t = s) ∧
    (e.rwait = true → Does (.replayTimerExpiry g) s fun t => (t.linkEnd g).nakDue = true ∧ t.regs = s.regs) ∧
    (e.rwait = false → Does (.replayTimerExpiry g) s fun t => t = s)

/-- What a link takes from its peer. In L0 a flit that cannot be corrected or whose CRC is wrong is counted and makes a NAK due
unless one is awaited; at a skip position nothing is looked at; a skip flit is dropped. A good marker zeroes the lane's
missed count, a bad one raises it. A training block with a wrong check counts for nothing, and one with FULL makes a full
reset of a link that runs none. A peer's paced-credit totals and a limit granted to a peer are taken; limits that do not fit
are discarded and recorded. A LinkRecover for a link that is in L0 or that reaches another peer changes nothing. (R270,
R271, R274, R276, R277, R282, R284, R287, R290, R294) -/
def Obligations.LinkFlitsReceived : Prop :=
  ∀ (s : State) (g : Fin 16) (l : Fin 9) (raw : BitVec 2048) (full : Bool) (b : BitVec 256) (d r : Fin 16) (x y : BitVec 4)
    (q : BitVec 12) (ev : Bool) (p : Path) (v : BitVec 32),
    let e := s.linkEnd g
    let live := s.pgMode g = 2 ∧ s.flag R.CF_STAT_DEVLOST = false
    let due := live ∧ (s.lt g = 5 ∨ s.lt g = 6) ∧ e.rxSlot % 2048 ≠ 2047
    let naks := fun (t : State) => (t.linkEnd g).rwait = true ∧ (e.rwait = false → (t.linkEnd g).nakDue = true) ∧
      t.expSeq g = s.expSeq g ∧ t.link.outq = s.link.outq
    let fits := legalWrite (R.CHIP_PEERLIM d) v = true ∧ (s.putReg (R.CHIP_PEERLIM d) v).limitsFit = true
    (due → flitCorrect (leBytes 256 raw) = none → Begins (.flitReceive g raw full) s naks) ∧
    (∀ f n, due → flitCorrect (leBytes 256 raw) = some (f, n) → (flitHead (ofLe 32 (f.take 4))).ftype = 0 →
      leBytes 8 (crc64 (s.expSeq g) (f.take 240)) ≠ f.drop 240 → Begins (.flitReceive g raw full) s naks) ∧
    (∀ f n, due → flitCorrect (leBytes 256 raw) = some (f, n) → (flitHead (ofLe 32 (f.take 4))).ftype ≠ 0 →
      leBytes 8 (crc64 0x1000 (f.take 240)) ≠ f.drop 240 → Begins (.flitReceive g raw full) s naks) ∧
    (∀ f n, due → flitCorrect (leBytes 256 raw) = some (f, n) → (flitHead (ofLe 32 (f.take 4))).ftype = 3 →
      leBytes 8 (crc64 0x1000 (f.take 240)) = f.drop 240 →
      Begins (.flitReceive g raw full) s fun t => t.expSeq g = s.expSeq g ∧ (t.linkEnd g).rxSlot = e.rxSlot + 1 ∧
        (t.linkEnd g).nakDue = e.nakDue ∧ t.link.outq = s.link.outq) ∧
    (live → (s.lt g = 5 ∨ s.lt g = 6) → e.rxSlot % 2048 = 2047 → Begins (.flitReceive g raw full) s fun t =>
      t.regs = s.regs ∧ t.linkEnd g = { e with rxSlot := e.rxSlot + 1, l0Run := 0 }) ∧
    (s.lt g ≠ 5 → s.lt g ≠ 6 → Begins (.flitReceive g raw full) s fun t => t = s) ∧
    (live → (s.lt g = 5 ∨ s.lt g = 6) → l.val ∈ s.laneMap g → markerOk b = true → Begins (.markerReceive g l b false) s fun t =>
      (t.linkEnd g).missed.get l = 0 ∧ (t.linkEnd g).rxSlot = 0 ∧ t.regs = s.regs) ∧
    (live → (s.lt g = 5 ∨ s.lt g = 6) → l.val ∈ s.laneMap g → markerOk b = false → e.missed.get l = 0 →
      Begins (.markerReceive g l b false) s fun t => (t.linkEnd g).missed.get l = 1 ∧ t.regs = s.regs) ∧
    (live → s.lt g = 6 → trainOk b = false → Begins (.trainingBlockReceive g l b) s fun t =>
      t.linkEnd g = { e with l0Run := 0 } ∧ t.out = s.out ∧ t.regs = s.regs) ∧
    (live → s.lt g = 6 → trainOk b = true → (trainBlock b).full = false → e.l0Run < 3 →
      Begins (.trainingBlockReceive g l b) s fun t => t.linkEnd g = { e with l0Run := e.l0Run + 1 } ∧ t.lt g = 6) ∧
    (live → s.lt g ≠ 0 → s.lt g ≠ 7 → trainOk b = true → (trainBlock b).full = true → e.full = false → s.rd (R.PG_SDCTL_MODE g) = 2 →
      Begins (.trainingBlockReceive g l b) s fun t => t.lt g = 0 ∧ (t.linkEnd g).full = true) ∧
    (s.flag R.CF_STAT_DEVLOST = false → s.peerLost d = false → s.link.pwait.get d = [] → Begins (.pcrinit d x y) s fun t =>
      t.link.pcr.get (2 * d.val) = x.toNat ∧ t.link.pcr.get (2 * d.val + 1) = y.toNat ∧ t.regs = s.regs) ∧
    (s.lt r = 6 ∨ s.peerDev r ≠ d.val ∨ s.pgMode r ≠ 2 → Begins (.linkrecover d g r q ev) s fun t => t = s) ∧
    (s.flag R.CF_STAT_DEVLOST = false → s.peerLost d = false → s.lt r ≠ 6 → s.peerDev r = d.val → s.pgMode r = 2 → ev = false →
      Begins (.linkrecover d g r q ev) s fun t => (t.linkEnd r).buf = [] ∧ (t.linkEnd r).evValid = false ∧
        t.link.outq.get d = ((s.linkEnd r).buf.map (·.msgs)).flatten ++ s.link.outq.get d) ∧
    (Reachable s p → fits → Does (.peerlimWrite p d v) s fun t => t = s.putReg (R.CHIP_PEERLIM d) v) ∧
    (Reachable s p → ¬ fits → s.flag R.CF_STAT_DEVLOST = false → Does (.peerlimWrite p d v) s fun t =>
      t.reg (R.CHIP_PEERLIM d) = s.reg (R.CHIP_PEERLIM d) ∧ ∃ z ∈ t.flt.ring, z.type = 0x040A ∧ z.unit = d.val ∧ z.gtcN = s.gtc)

/-- A Pennant link's retrains, full resets and bounds. A bound that passes in Polling sends a full reset's link to Down, in
Config, Align or Resume back to Polling, and leaves L0 alone. A link in L0 is not bounded by DOWNLIM, nor one out of L0 for
less. RETRAIN sends a link in L0 to Polling with DOWNEVT set and the retrain counted; RESET starts the group anew in the
mode its register selects, in Down. Neither does anything to a group in CXL mode. (R286, R289, R292, Table 12-10, Table
12-12) -/
def Obligations.LinkTrainingStates : Prop :=
  ∀ (s : State) (g : Fin 16) (p : Path) (v : BitVec 32),
    let retrain := setFld v 31 31 1
    let reset := setFld v 30 30 1
    (s.pgMode g = 2 → s.lt g = 1 → (s.linkEnd g).full = true → Begins (.linkStateTimeout g) s fun x => x.lt g = 0) ∧
    (s.pgMode g = 2 → (s.lt g = 2 ∨ s.lt g = 4 ∨ s.lt g = 5) → Begins (.linkStateTimeout g) s fun x => x.lt g = 1) ∧
    (s.lt g = 6 → Begins (.linkStateTimeout g) s fun x => x = s) ∧
    (s.lt g = 6 ∨ (s.linkEnd g).downAt = none → Begins (.linkDownTimeout g) s fun x => x = s) ∧
    (∀ t, (s.linkEnd g).downAt = some t → s.gtc < t + s.rd (R.PG_LKCTL_DOWNLIM g) * 1000000 →
      Begins (.linkDownTimeout g) s fun x => x = s) ∧
    (Writable s p (R.PG_LKCTL g) retrain → fld v 29 27 = fld (s.reg (R.PG_LKCTL g)) 29 27 → s.pgMode g = 2 → s.lt g = 6 →
      v.getLsbD 30 = false → Begins (.retrain p g v) s fun x => x.lt g = 1 ∧ x.flag (R.PG_LKSTAT_DOWNEVT g) = true ∧
        (x.linkEnd g).full = false ∧ (x.linkEnd g).downAt = some s.gtc) ∧
    (Writable s p (R.PG_LKCTL g) reset → s.pgMode g = 2 → s.rd (R.PG_SDCTL_MODE g) = 2 → Begins (.linkFullReset p g v) s fun x =>
      x.lt g = 0 ∧ (x.linkEnd g).full = true ∧ x.pgMode g = 2) ∧
    (Writable s p (R.PG_LKCTL g) reset → s.pgMode g = 1 → Begins (.linkFullReset p g v) s fun x =>
      x.link = s.link ∧ x.lane = s.lane ∧ x.lt g = s.lt g) ∧
    (Writable s p (R.PG_LKCTL g) retrain → s.pgMode g = 1 → v.getLsbD 30 = false → Begins (.retrain p g v) s fun x =>
      x.link = s.link ∧ x.lane = s.lane ∧ x.lt g = s.lt g)

/-- A ring takes its next descriptor, and writes its completions in order. An enabled ring with nothing in progress, a pending
descriptor and a free completion slot takes the one at SQHEAD, moves SQHEAD on and is BUSY; a descriptor that breaks R348
fails at once with its status. Disabled, empty, or with its completion area full, it takes none. The oldest completion due
is written with the GTC at CQTAIL, which moves on; a first completion frees the ring for the next descriptor. With none due
or no slot free nothing is written. (R347, R348, R349, R352, Table 15-4, Table 15-6) -/
def Obligations.RingsTakeAndComplete : Prop :=
  ∀ (s : State) (k : Fin 8),
    let h := s.rd (R.CR_SQ_SQHEAD k)
    let tail := s.rd (R.CR_CQ_CQTAIL k)
    let d := s.slotBytes (0x410000 + k.val * 0x10000 + 128 * h)
    let full := (tail + 1) % 256 = s.rd (R.CR_CQ_CQHEAD k)
    let may := s.ringsOn = true ∧ s.flag (R.CR_CTL_EN k) = true ∧ h ≠ s.rd (R.CR_SQ_SQTAIL k) ∧ (s.ringOf k).cur = none ∧ ¬ full ∧
      (descFence d = true → ∀ j ∈ s.ring.jobs, j.src ≠ k.val)
    (may → descStatus d = 0 → Does (.descriptorTake k) s fun t => t.rd (R.CR_SQ_SQHEAD k) = (h + 1) % 256 ∧
      t.flag (R.CR_STAT_BUSY k) = true ∧ (t.ringOf k).cur = some d ∧ (t.ringOf k).begun = false ∧
      (t.ringOf k).due = (s.ringOf k).due) ∧
    (may → descStatus d ≠ 0 → Does (.descriptorTake k) s fun t => t.rd (R.CR_SQ_SQHEAD k) = (h + 1) % 256 ∧
      (t.ringOf k).begun = true ∧ Completes s t k d (descStatus d) (if 0x20 ≤ descOp d ∧ descOp d ≤ 0x24 then 2 else 1) 0 []) ∧
    (h = s.rd (R.CR_SQ_SQTAIL k) ∨ s.flag (R.CR_CTL_EN k) = false ∨ full → Does (.descriptorTake k) s fun t => t = s) ∧
    (∀ r irq rest, s.ringsOn = true → ¬ full → (s.ringOf k).due = (r, irq) :: rest → Does (.completionWrite k) s fun t =>
      t.slotBytes (0x418000 + k.val * 0x10000 + 128 * tail) = setFld r 191 128 s.gtc ∧
        t.rd (R.CR_CQ_CQTAIL k) = (tail + 1) % 256 ∧ (t.ringOf k).due = rest ∧
        (fld r 63 56 ≠ 3 → (t.ringOf k).cur = none ∧ t.flag (R.CR_STAT_BUSY k) = false) ∧
        (fld r 63 56 = 3 → (t.ringOf k).cur = (s.ringOf k).cur)) ∧
    ((s.ringOf k).due = [] ∨ full → Does (.completionWrite k) s fun t => t = s)

/-- What a ring's descriptors do to programs, domains and parameters. READ_DOMAIN answers the entry's 64 bytes and COMMIT_DOMAIN
asks for a commit of the entry it carries. LOAD_PROGRAM on an idle core with no program puts the staged image on it and
answers its number; a bad size is 0x87 and a held core 0x88. BIND adds a binding, UNBIND removes it with its pending entry.
SUSPEND of an idle program suspends it, RESUME makes it idle or running again, CANCEL ends a waiting run, RESTART a fault,
UNLOAD restores the ROM's program, SIGNAL makes event 0x0B pending; in a state that Table 15-3 does not allow each is 0x85,
and of an unknown program 0x69. SET_PARAM sets a parameter within its range. (R342, R343, R344, R345, R346, R348, R358,
Table 15-3, Table 15-11) -/
def Obligations.ProgramDescriptors : Prop :=
  ∀ (s : State) (k : Fin 8) (d : BitVec 1024) (c : Nat), Taken s k d →
    let p := descBytes d 17 16
    let code := descBytes d 18 18
    let load := descOp d = 0x0010 ∧ descBytes d 16 16 = c
    let size := descBytes d 23 20
    let ctl := fun (a : Nat) => descOp d = 0x0012 ∧ descBytes d 18 18 = a
    let of_ := p ≠ 0 ∧ s.coreOf p = some c
    let at_ := fun (st : Nat) => of_ ∧ s.coreSt c = st
    let done := fun (x : State) => Completes s x k d 0 1 0 []
    (descOp d = 0x0002 → Begins (.readDomain k) s fun x => Completes s x k d 0 1 0 (leBytes 64 (s.entry p)) ∧ x.dom = s.dom) ∧
    (descOp d = 0x0001 → Begins (.commitDomain k) s fun x => x = (s.updRing k fun r => { r with begun := true }).askCommit p
      (d.extractLsb' 192 512) none 2 k) ∧
    (load → size % 4 = 0 → 4 ≤ size → size ≤ 262144 → descBytes d 27 24 ≤ 516096 → capBad s.stagedCap = false →
      (s.gcore c).prog = 0 → (s.gcore c).load = none → s.coreSt c = 0 → Begins (.loadProgram k) s fun x =>
        (x.gcore c).host = true ∧ (x.gcore c).codeLen = size ∧ (x.gcore c).prog = 0x8000 + s.core.loads % 0x8000 ∧
        x.coreSt c = 0 ∧ Completes s x k d 0 1 0 (leBytes 2 (BitVec.ofNat 16 (0x8000 + s.core.loads % 0x8000)))) ∧
    (load → (size % 4 ≠ 0 ∨ size < 4 ∨ 262144 < size) → Begins (.loadProgram k) s fun x => Completes s x k d 0x87 1 0 []) ∧
    (load → size % 4 = 0 → 4 ≤ size → size ≤ 262144 → descBytes d 27 24 ≤ 516096 → capBad s.stagedCap = false →
      (s.gcore c).load.isSome = true → Begins (.loadProgram k) s fun x => Completes s x k d 0x88 1 0 []) ∧
    (descOp d = 0x0011 → descBytes d 19 19 = 1 → of_ → (s.gcore c).host = false → 3 ≤ code → code ≤ 11 →
      (s.core.binds.filter fun b => b.prog == p).length < 16 → Begins (.bind k) s fun x => done x ∧
        { prog := p, code := code, period := 0, next := s.gtc + 1000 * descBytes d 23 20 } ∈ x.core.binds) ∧
    (descOp d = 0x0011 → descBytes d 19 19 = 0 → of_ → 3 ≤ code → code ≤ 11 → Begins (.unbind k) s fun x => done x ∧
      (∀ b ∈ x.core.binds, ¬ (b.prog = p ∧ b.code = code)) ∧ ∀ y ∈ x.core.pend, ¬ (y.1 = p ∧ y.2.1 = code)) ∧
    (ctl 0 → at_ 0 → Begins (.suspend k) s fun x => done x ∧ x.coreSt c = 3) ∧
    (ctl 1 → at_ 3 → Begins (.resume k) s fun x => done x ∧ x.coreSt c = if (s.gcore c).run = 0 then 0 else 1) ∧
    (ctl 1 → at_ 0 → Begins (.resume k) s fun x => Completes s x k d 0x85 1 0 [] ∧ x.coreSt c = 0) ∧
    (ctl 2 → at_ 2 → (s.gcore c).run = p → Begins (.cancel k) s fun x => done x ∧ x.coreSt c = 0 ∧ (x.gcore c).run = 0) ∧
    (ctl 3 → at_ 4 → (s.gcore c).stopped = false → Begins (.restart k) s fun x => done x ∧ x.coreSt c = 0) ∧
    (ctl 3 → at_ 4 → (s.gcore c).stopped = true → Begins (.restart k) s fun x => Completes s x k d 0x85 1 0 []) ∧
    (ctl 4 → at_ 0 → Begins (.unload k) s fun x => done x ∧ (x.gcore c).host = false ∧ (x.gcore c).imem = Tab.empty ∧
      (x.gcore c).dmem = Tab.empty) ∧
    (ctl 5 → at_ 0 → (s.core.binds.any fun b => b.prog == p && b.code == 0x0B) = true → s.core.pend = [] →
      Begins (.signal k) s fun x => done x ∧ x.core.pend = [(p, 0x0B, descBytes d 31 24)]) ∧
    (s.coreOf p = none → (ctl 0 → Begins (.suspend k) s fun x => Completes s x k d 0x69 1 0 []) ∧
      (ctl 4 → Begins (.unload k) s fun x => Completes s x k d 0x69 1 0 [])) ∧
    (∀ r ∈ paramTable, descOp d = 0x0013 → r.1 = p → r.2.1 = code → r.2.2.1 ≤ descBytes d 31 24 → descBytes d 31 24 ≤ r.2.2.2.1 →
      ¬ (p = 1 ∧ code = 1) → Begins (.setParam k) s fun x => done x ∧ x.param p code = descBytes d 31 24) ∧
    (descOp d = 0x0013 → p = 2 → code = 3 → 100 < descBytes d 31 24 → Begins (.setParam k) s fun x =>
      Completes s x k d 0x69 1 0 [] ∧ x.core.params = s.core.params)

/-- Long operations are accepted as jobs, controlled and read. AUDIT, MIGRATE_RANGE, COMPACT and RESIZE that pass their checks,
with no conflict and fewer than 64 jobs, are accepted with the next identifier; a domain that is not valid is 0x63, and open
ports bar SANITIZE and RESIZE with 0x86. A Queued job is suspended at once, a running one at its next boundary, SANITIZE
never; a suspended one runs again; a running one that is cancelled stops. A Done job is 0x85 and an unknown one 0x83.
JOB_STATUS answers the record. A queued audit starts when it is the first of its domain and none runs; an audit's granule
without backing counts and moves on. (R209, R349, R353, R354, R355, R356, Table 15-5, Table 15-9, Table 15-10) -/
def Obligations.JobDescriptors : Prop :=
  ∀ (s : State) (k : Fin 8) (d : BitVec 1024) (job : BitVec 32), Taken s k d →
    let e := s.entry (descBytes d 17 16)
    let id := descBytes d 19 16
    let free := s.ring.jobs = []
    let ctl := fun (a : Nat) => descOp d = 0x0030 ∧ descBytes d 20 20 = a
    let gives := fun (status : Nat) (x : State) => Completes s x k d status 1 0 []
    let begun := s.updRing k fun r => { r with begun := true }
    let open_ := (s.entry (descBytes d 19 18)).rdPorts ≠ 0 ∨ (s.entry (descBytes d 19 18)).wrPorts ≠ 0
    (descOp d = 0x0020 → e.valid = true → s.memberHere e = true → free → Begins (.audit k) s fun x => Accepts s x k d fun j =>
      j.st = 1 ∧ j.dom = descBytes d 17 16 ∧ j.cur = 0 ∧ j.last = 4 * e.pages) ∧
    (descOp d = 0x0020 → e.valid = false → Begins (.audit k) s fun x => RefusesJob s x k d 0x63) ∧
    (descOp d = 0x0021 → e.valid = true → s.memberHere e = true → descBytes d 19 19 = 15 →
      descBytes d 31 24 + descBytes d 35 32 ≤ e.pages → free → Begins (.migrateRange k) s fun x => Accepts s x k d fun j =>
        j.st = 1 ∧ j.cur = descBytes d 31 24 ∧ j.last = descBytes d 31 24 + descBytes d 35 32 ∧ j.depth = descBytes d 20 20) ∧
    (descOp d = 0x0021 → e.valid = false → Begins (.migrateRange k) s fun x => RefusesJob s x k d 0x63) ∧
    (descOp d = 0x0022 → free → Begins (.compact k) s fun x => Accepts s x k d fun j =>
      j.st = 1 ∧ j.chan = descBytes d 17 16 ∧ j.limit = descBytes d 20 20) ∧
    (descOp d = 0x0022 → 64 ≤ s.ring.jobs.length → (∀ j ∈ s.ring.jobs, j.op ≠ 0x23) →
      Begins (.compact k) s fun x => RefusesJob s x k d 0x81) ∧
    (descOp d = 0x0023 → descBytes d 16 16 = 0 → (s.entry (descBytes d 19 18)).valid = true → open_ → free →
      Begins (.sanitizeScopeDomain k) s fun x => RefusesJob s x k d 0x86) ∧
    (descOp d = 0x0023 → (descBytes d 16 16 = 0 → Begins (.sanitizeScopeDomain k) s fun x => x = begun.opSanitize k d 0) ∧
      (descBytes d 16 16 = 1 → Begins (.sanitizeScopeOverwrite k) s fun x => x = begun.opSanitize k d 1) ∧
      (descBytes d 16 16 = 2 → Begins (.sanitizeScopeCryptoErase k) s fun x => x = begun.opSanitize k d 2)) ∧
    (descOp d = 0x0024 → e.valid = false → Begins (.resize k) s fun x => RefusesJob s x k d 0x63) ∧
    (descOp d = 0x0024 → e.valid = true → (e.rdPorts ≠ 0 ∨ e.wrPorts ≠ 0) → Begins (.resize k) s fun x => RefusesJob s x k d 0x86) ∧
    (∀ j, s.job id = some j → ctl 0 → j.st = 0 → j.op ≠ 0x23 → j.hold = false → j.stop = false → Begins (.jobSuspend k) s fun x =>
      gives 0 x ∧ x.job id = some { j with st := 2, gtc := s.gtc }) ∧
    (∀ j, s.job id = some j → ctl 0 → j.st = 1 → j.op ≠ 0x23 → j.op ≠ 0x20 → j.hold = false → j.stop = false →
      Begins (.jobSuspend k) s fun x => gives 0 x ∧ x.job id = some { j with hold := true }) ∧
    (∀ j, s.job id = some j → ctl 0 → j.st ≠ 3 → j.op = 0x23 → Begins (.jobSuspend k) s (gives 0x84)) ∧
    (∀ j, s.job id = some j → ctl 1 → j.st = 2 → j.hold = false → j.op ≠ 0x20 → Begins (.jobResume k) s fun x =>
      gives 0 x ∧ x.job id = some { j with st := 1, gtc := s.gtc }) ∧
    (∀ j, s.job id = some j → ctl 2 → j.st = 1 → j.op = 0x21 → j.stop = false → s.tier.migs = [] →
      Begins (.jobCancel k) s fun x => gives 0 x ∧ x.job id = some { j with stop := true }) ∧
    (s.anyJob id = none → (ctl 0 → Begins (.jobSuspend k) s (gives 0x83)) ∧ (ctl 1 → Begins (.jobResume k) s (gives 0x83)) ∧
      (ctl 2 → Begins (.jobCancel k) s (gives 0x83)) ∧ (descOp d = 0x0031 → Begins (.jobStatus k) s (gives 0x83))) ∧
    (∀ j, s.anyJob id = some j → descOp d = 0x0031 → Begins (.jobStatus k) s fun x => Completes s x k d 0 1 0 j.record) ∧
    (∀ j, s.ring.jobs = [j] → j.id = job.toNat → j.op = 0x20 → j.st = 0 → Begins (.jobStart job) s fun x =>
      x.ring.jobs = [{ j with st := 1, gtc := s.gtc }]) ∧
    (s.job job.toNat = none → Begins (.jobStart job) s (fun x => x = s) ∧ Begins (.auditGranule job []) s fun x => x = s) ∧
    (∀ j errs, s.ring.jobs = [j] → j.id = job.toNat → j.op = 0x20 → j.st = 1 → j.cur < j.last → s.serving = true → j.cur % 4 ≠ 0 →
      (s.page ((s.entry j.dom).mapKey ((s.pageDpa (s.entry j.dom) (j.cur / 4) / 1024 + j.cur % 4) * 1024))).state = 0 →
      Begins (.auditGranule job errs) s fun x => x.ring.jobs = [{ j with cur := j.cur + 1, done := j.done + 1 }])

/-- Faults of SRAM and mesh, device and peer loss, and the reading of records. A transient corrected SRAM word and a mesh
message that its resend delivers each leave a record; a mesh message that fails again, KILL, and the watchdog lose the
device with causes 2, 6 and 5; chip state that cannot be reloaded loses it with cause 3. DECLARE marks the named peer lost.
Once lost, the device keeps its cause. A read of CF_REC0 returns the record at CF_RECIDX and marks it read. (R378, R379,
R381, R383, R387, R390, Table 17-2) -/
def Obligations.FaultBlockCommands : Prop :=
  ∀ (s : State) (p : Path) (v : BitVec 32) (r : Fin 4) (bank : BitVec 16) (n : Fin 16),
    let alive := s.flag R.CF_STAT_DEVLOST = false
    let lost := fun (cause : Nat) (x : State) => x.flag R.CF_STAT_DEVLOST = true ∧ x.rd R.CF_STAT_CAUSE = cause
    let idx := s.rd R.CF_RECIDX_IDX
    (alive → Begins (.sramFault (.queue n) bank false false) s fun x =>
      ∃ y ∈ x.flt.ring, y.type = 0x0304 ∧ y.cls = 1 ∧ y.unit = n.val ∧ y.gtcN = s.gtc) ∧
    (alive → Begins (.sramFault (.chip false) bank true true) s (lost 3)) ∧
    (alive → Begins (.sramFault (.chip true) bank true false) s fun x => x.flag R.CF_STAT_DEVLOST = false ∧
      ∃ y ∈ x.flt.ring, y.type = 0x0304 ∧ y.ukind = 7 ∧ y.gtcN = s.gtc) ∧
    (alive → Does (.meshLink r false) s fun t => t.flag R.CF_STAT_DEVLOST = false ∧
      ∃ y ∈ t.flt.ring, y.type = 0x010C ∧ y.unit = r.val ∧ y.gtcN = s.gtc) ∧
    (alive → Begins (.meshLink r true) s (lost 2)) ∧
    (Writable s p R.CF_CTL (setFld v 30 30 1) → alive → v.getLsbD 31 = false → Begins (.kill p v) s (lost 6)) ∧
    (Writable s p R.CF_CTL (setFld v 31 31 1) → v.getLsbD 30 = false → fld v 27 24 ≠ s.devNum → s.coh = State.reset.coh →
      s.link.preqs = [] → Begins (.declare p v) s fun x =>
      x.flag ((R.CF_STAT_PEERLOST).bitAt (fld v 27 24)) = true) ∧
    (s.boot.hold = false → s.boot.supplies = true → s.rd R.PS_STAT_STATE ≠ 3 → alive → Begins .watchdogExpiry s (lost 5)) ∧
    (s.boot.hold = true ∨ s.boot.supplies = false ∨ s.rd R.PS_STAT_STATE = 3 → Does .watchdogExpiry s fun t => t = s) ∧
    (¬ alive → Begins (.meshLink r true) s fun x => x.rd R.CF_STAT_CAUSE = s.rd R.CF_STAT_CAUSE) ∧
    (Reachable s p → idx < s.rd R.CF_NEXT_NEXT → Does (.faultRecordRead p) s fun t =>
      t.out = .readData p (R.CF_REC 0) ((ofLe 512 (s.recordBytes idx) : BitVec 512).setWidth 32) :: s.out ∧
        t.flt.latched = ofLe 512 (s.recordBytes idx) ∧ (∀ y ∈ t.flt.ring, y.index = idx → y.unread = false) ∧
        t.flt.store = s.flt.store ∧ t.regs = s.regs)

/-- A host port's resets, links, decoders and idle states. A Function Level Reset clears a head's mailbox, tolerance and
background command and keeps its link and decoders; a Port reset of one x4 port also ends its link, decoders and IDE, its
event logs staying, and no other head's. PRST starts a CXL group anew. A link up at a rate its lanes allow sets the flit
kind and RATECUR. L1 is entered by an open port; the tolerance message goes out once. An integrity failure of a secure
stream leaves it insecure with a record. A decoder commits when its values are legal, else carries its error bit, and a
locked one stays (its range of device addresses follows that of the decoder below it: the model's choice, assumption 109). A
BISnp credit is added while none waits. (R241, R302, R304, R312, R313, R314, R430, Table 13-1) -/
def Obligations.HostPortCommands : Prop :=
  ∀ (s : State) (port : Fin 32) (dec : Fin 16) (lock big bi : Bool) (ways gran : Nat) (base size skip : BitVec 64) (rate : Fin 6)
    (p : Path) (g : Fin 16) (v : BitVec 32),
    let h := s.head port
    let x := s.place port
    let awake := (s.rd R.PS_STAT_STATE = 0 ∧ s.pow.target = none) ∧ h.l1 = false
    let dpa := s.decoderBase port dec + skip.toNat
    let ok := ways ∈ [1, 2, 3, 4, 6, 8, 12, 16] ∧ gran ∈ [256, 512, 1024, 2048, 4096, 8192, 16384] ∧ 0 < size.toNat ∧
      size.toNat % (ways * gran) = 0 ∧ dpa + size.toNat / ways ≤ 2 ^ 46
    (x.on = true → Does (.functionLevelReset port) s fun t => t.head port =
      { h with mbx := false, tolScale := 0, tolVal := 0, ltrSent := false, bg := none, bgDone := none } ∧
      ∀ q : Fin 32, q ≠ port → t.head q = s.head q) ∧
    (x.on = true → s.cxlWidth x.group = 1 → s.flag (R.PG_CXLCFG_HRSCOPE x.group) = false → Begins (.portReset port .hot) s fun y =>
      (y.head port).flit = 0 ∧ (y.head port).dec = Tab.empty ∧ (y.head port).ide = 0 ∧ (y.head port).logs = h.logs ∧
        ∀ q : Fin 32, q ≠ port → (y.head q).dec = (s.head q).dec ∧ (y.head q).flit = (s.head q).flit) ∧
    (x.on = true → s.flag (R.PG_CXLCFG_HRSCOPE x.group) = true → Begins (.portReset port .hot) s fun y => y = s.askOrderly) ∧
    (x.on = false → Begins (.portReset port .hot) s fun y => y = s) ∧
    (Writable s p (R.PG_CXLCFG g) (setFld v 16 16 1) → s.rd (R.PG_SDCTL_MODE g) = 1 →
      Begins (.prst p g v) s fun y => y.pgMode g = 1 ∧ y.rd (R.PG_SDSTAT_EXCL g) = 8) ∧
    (s.flag R.CF_STAT_DEVLOST = false → x.on = true → x.wide = false → s.portCfgError x.group = false → s.cxlWidth x.group = 0 →
      (∃ l, l < 8 ∧ s.laneSt x.group l = 3) → rate.val ≤ s.rd (R.PG_SDCTL_RATE x.group) → (big = true → rate = 5) →
      s.coh.biOut = [] → s.coh.biWait = [] → Begins (.cxlLinkUp port rate big bi) s fun y =>
        (y.head port).flit = (if big then 2 else 1) ∧ (y.head port).biEn = bi ∧ (y.head port).l1 = false ∧
        y.rd (R.PG_SDSTAT_RATECUR x.group) = rate) ∧
    (s.portOpen port = true → Does (.portL1Entry port) s fun t => (t.head port).l1 = true) ∧
    (s.portOpen port = true → h.ltrSent = false → Does (.ltrSend port) s fun t => (t.head port).ltrSent = true ∧
      t.out = .ltr port :: s.out) ∧
    (h.ltrSent = true → Does (.ltrSend port) s fun t => t = s) ∧
    (h.ide = 1 → s.flag R.CF_STAT_DEVLOST = false → Does (.ideFail port) s fun t => (t.head port).ide = 2 ∧
      ∃ y ∈ t.flt.ring, y.type = 0x010A ∧ y.unit = port.val ∧ y.gtcN = s.gtc) ∧
    (h.ide ≠ 1 → Does (.ideFail port) s fun t => t = s) ∧
    (s.portOpen port = true → awake → (h.dec.get dec).lock = false → Does (.hdmDecoderCommit port dec lock ⟨ways, gran⟩ base size skip) s fun t =>
      ((t.head port).dec.get dec).committed = decide ok ∧ ((t.head port).dec.get dec).error = !decide ok ∧
        ((t.head port).dec.get dec).hpaBase = base.toNat ∧ ((t.head port).dec.get dec).hpaSize = size.toNat ∧
        ((t.head port).dec.get dec).dpaBase = dpa ∧ ((t.head port).dec.get dec).dpaSize = size.toNat / ways ∧
        ∀ i, i ≠ dec.val → (t.head port).dec.get i = h.dec.get i) ∧
    ((h.dec.get dec).committed = true → (h.dec.get dec).lock = true → Does (.hdmDecoderCommit port dec lock ⟨ways, gran⟩ base size skip) s fun t =>
      t = s) ∧
    (s.portOpen port = true → awake → s.coh.biWait = [] → Does (.bisnpCredit port) s fun t =>
      t.coh.biCredit.get port = s.coh.biCredit.get port + 1)

/-- The mailbox commands that read, and how a mailbox refuses. On an open mailbox with none in progress, reading a domain
answers its 64 bytes, error records their 64 bytes each, tier capacity the four CHIP_TMCAP words, job status the record or
0x83, the extent list the region and the extents of the domains that the port may use, with their tags, the poison list the
entries of those that it may read, and a response to Add Capacity success. While a background command runs each command is
answered Busy, and a device-specific one with MBXEN clear is unsupported. (R115, R307, R308, R309, R310, R353, Table 13-4) -/
def Obligations.MailboxReads : Prop :=
  ∀ (s : State) (p : Fin 32) (dom : BitVec 14) (job first : BitVec 32) (n : BitVec 16),
    (MailboxOpen s p → Does (.mailboxReadDomain p dom) s fun t =>
      AnswersMailbox s t p 0xC001 .success 0 (leBytes 64 (s.entry dom.toNat))) ∧
    (MailboxOpen s p → Does (.getErrorRecords p first n) s fun t => AnswersMailbox s t p 0xC020 .success 0
      ((List.range (min n.toNat 64)).map fun i => s.recordBytes ((first.toNat + i) % 2 ^ 32)).flatten) ∧
    (MailboxOpen s p → Does (.getTierCapacity p) s fun t => AnswersMailbox s t p 0xC040 .success 0
      (leBytes 4 (s.reg (R.CHIP_TMCAP 0)) ++ leBytes 4 (s.reg (R.CHIP_TMCAP 1)) ++ leBytes 4 (s.reg (R.CHIP_TMCAP 2)) ++
        leBytes 4 (s.reg (R.CHIP_TMCAP 3)))) ∧
    (∀ j, MailboxOpen s p → s.anyJob job.toNat = some j → Does (.getJobStatus p job) s fun t =>
      AnswersMailbox s t p 0xC031 .success 0 j.record) ∧
    (MailboxOpen s p → s.anyJob job.toNat = none → Does (.getJobStatus p job) s fun t =>
      AnswersMailbox s t p 0xC031 .invalidInput 0x83 []) ∧
    (MailboxOpen s p → Does (.getDynamicCapacityExtentList p) s fun t => ∃ l,
      t = (mailboxUsed s p).send (.dcExtents p { base := 0, length := 2 ^ 46, block := 2 ^ 21, static_ := 0 } l) ∧
        ∀ x, x ∈ l ↔ ∃ c ∈ s.domains, Entry.valid c.2 = true ∧
          ((Entry.rdPorts c.2).testBit p = true ∨ (Entry.wrPorts c.2).testBit p = true) ∧
          x = { start := Entry.baseAddr c.2, length := Entry.bytes c.2, tag := BitVec.ofNat 128 (c.1 + 2 ^ 16 * Entry.swtag c.2) }) ∧
    (MailboxOpen s p → Does (.addCapacityResponse p dom true) s fun t => AnswersMailbox s t p 0x4802 .success 0 []) ∧
    (MailboxOpen s p → s.flag R.CF_STAT_DEVLOST = false → Does (.addCapacityResponse p dom false) s fun t =>
      t.out = .mailbox p 0x4802 .success 0 [] :: s.out ∧ ∃ y ∈ t.flt.ring, y.type = 0x0406 ∧ y.gtcN = s.gtc) ∧
    (MailboxOpen s p → Does (.getPoisonList p) s fun t => ∃ l, t = (mailboxUsed s p).send (.poisonList p l s.dram.mediaFull) ∧
      ∀ x, x ∈ l ↔ ∃ m ∈ s.dram.media, (s.entry m.1).valid = true ∧ (s.entry m.1).rdPorts.testBit p = true ∧ x = m.2) ∧
    (DoeOpen s p → (s.head p).bg.isSome = true → s.flag (R.PG_CXLCFG_MBXEN (s.place p).group) = true →
      Does (.mailboxReadDomain p dom) s (fun t => AnswersMailbox s t p 0xC001 .busy 0 []) ∧
      Does (.getPoisonList p) s fun t => AnswersMailbox s t p 0x4300 .busy 0 []) ∧
    (DoeOpen s p → s.flag (R.PG_CXLCFG_MBXEN (s.place p).group) = false →
      Does (.mailboxReadDomain p dom) s fun t => AnswersMailbox s t p 0xC001 .unsupported 0 [])

/-- The mailbox commands that act. A domain commit is a background command that asks for the commit it carries; a key install
answers its status; a key's destruction runs in the background and ends at once with the status of a refusal; a descriptor
acts as a ring's does, and a bad one is answered with its status at once; the release of an extent that the port does not
have is refused; poison is injected and cleared only in a line homed here of a domain that the port may write; Sanitize and
Secure Erase run as background commands of the long operation. (R153, R307, R309, R310, R347, R355, Table 13-4) -/
def Obligations.MailboxActions : Prop :=
  ∀ (s : State) (p : Fin 32) (dom : BitVec 14) (entry : BitVec 512) (blob : BitVec 960) (d : BitVec 1024) (base len : BitVec 64)
    (dpa : Dpa) (data : Line), MailboxOpen s p →
    let u := mailboxUsed s p
    let inst := u.installKey (some 0) dom.toNat (leBytes 120 blob)
    let back := fun (op : Nat) => (u.updHead p fun h => { h with bg := some op }).send (.mailbox p op .background 0 [])
    let destroy := (back 0xC011).destroyKey dom.toNat none (some p.val)
    Begins (.mailboxCommitDomain p dom entry) s (fun x => x = (back 0xC000).askCommit dom.toNat entry none 1 p) ∧
    Does (.installDomainKey p dom blob) s (fun t =>
      t = inst.2.send (.mailbox p 0xC010 (if inst.1 = 0 then .success else .invalidInput) inst.1 [byteOf inst.1])) ∧
    (destroy.1 = 0 → Begins (.destroyDomainKey p dom) s fun x => x = destroy.2) ∧
    (destroy.1 ≠ 0 → Begins (.destroyDomainKey p dom) s fun x => x = destroy.2.bgEnd p 0xC011 destroy.1) ∧
    (descStatus d ≠ 0 → Begins (.submitDescriptor p d) s fun x => x.ring.subs.get p = none ∧
      ∃ kind, x.out = .mailbox p 0xC030 .invalidInput (descStatus d)
        (leBytes 128 (setFld (completion (descTag d) (descOp d) (descStatus d) kind 0 []) 191 128 s.gtc)) :: s.out) ∧
    (descStatus d = 0 → Begins (.submitDescriptor p d) s fun x =>
      x = ({ u with ring := { u.ring with subs := u.ring.subs.put p (some d) } } : State).runDesc (8 + p) d) ∧
    ((∀ c ∈ s.domains, Entry.baseAddr c.2 ≠ base.toNat) → Begins (.releaseDynamicCapacity p base len) s fun x =>
      AnswersMailbox s x p 0x4803 .invalidExtentList 0 []) ∧
    (u.servedDomain (dpa.toNat / 64 * 64) = none → Begins (.injectPoison p dpa) s (fun x =>
        AnswersMailbox s x p 0x4301 .invalidInput 0 []) ∧
      Begins (.clearPoison p dpa data) s fun x => AnswersMailbox s x p 0x4302 .invalidInput 0 []) ∧
    (∀ k e, u.servedDomain (dpa.toNat / 64 * 64) = some (k, e) → e.wrPorts.testBit p = false →
      Begins (.injectPoison p dpa) s fun x => AnswersMailbox s x p 0x4301 .invalidInput 0 []) ∧
    Begins (.sanitize p) s (fun x => x = u.cxlErase p 0x4400 1) ∧ Begins (.secureErase p) s fun x => x = u.cxlErase p 0x4401 2

/-- A subchannel issues its commands; refreshes, temperatures and training act on a channel. Nothing is issued while a channel
does not serve, during an alert sequence or an escalation of the channel, or with 40 commands unretired: the clock alone
moves on. A lone demand read goes out when its row is open; a closed row is opened first. A refresh interval covers a
refresh pulled in, else leaves one due. A window's boundary clears the activate counts and puts the threshold in force. A
report of twice the rate, or a reading above 85, doubles the rate; one beyond, or above HOTLIM, throttles. A retired write
leaves the queue. Training ends Unpopulated, Rejected with the rule's number, Failed, or in service at the rate found; a
retired channel stays Retired. A restore loads the rate and values stored for the modules' identity and goes into service;
without them, or on eyes that fail, nothing changes. (R166, R170, R171, R172, R173, R177, R179, R181, R182, R187, Table
08-3, Table 08-5) -/
def Obligations.ChannelIssueAndRefresh : Prop :=
  ∀ (s : State) (n : Fin 16) (b : Fin 2) (rank : Fin 16) (f : PipeFault) (spd : Spd) (pass : Bool),
    let u := s.sub n b
    let k := rankKey n b rank
    let ch := s.dram.chans.get n
    let place := fun (e : RdEntry) => s.coord n e.line
    let bankOf := fun (t : State) (e : RdEntry) => t.bank n (place e).sub (place e).rank (place e).bank
    let serves := s.chanServes n = true
    let timer := ∃ t ∈ [3, 4, 5, 6, 7], s.claim.aot.get t = 0x10
    let training := s.chanState n = 1
    let inService := fun (x : State) => if ch.retired then x.chanState n = 5 else x.chanState n = 2 ∨ x.chanState n = 3
    let left := fun (v : Nat) => if ch.retired then 5 else v
    let rate := trainRate spd (s.rd (R.CH_CTL_MAXRATE n))
    ((¬ serves ∨ u.alert ≠ .none ∨ s.escalating n = true ∨ 40 ≤ u.retry.length) →
      Drives (.commandIssue n b f) s n fun x => x = s.tickClock n b) ∧
    (∀ e, OneRead s n b e → s.rowHit n e.line = true → Drives (.commandIssue n b f) s n fun x =>
      (x.sub n b).rq = [] ∧ ∃ r, (x.sub n b).inflight = u.inflight ++ [r] ∧ (x.sub n b).retry = u.retry ++ [.read r] ∧
        r.line = e.line ∧ r.use = e.use ∧ r.word = s.word n e.line) ∧
    (∀ e, OneRead s n b e → ch.save = none → (bankOf s e).row = none → Drives (.commandIssue n b f) s n fun x =>
      (bankOf x e).row = some (place e).row ∧ (x.sub n b).rq = [e] ∧
        (x.sub n b).retry = u.retry ++ [.activate ((place e).rank * 32 + (place e).bank) (place e).row]) ∧
    (serves → rank.val < s.ranks n → 0 < s.dram.refAhead.get k → Does (.refreshDue n b rank) s fun t =>
      t.dram.refAhead.get k = s.dram.refAhead.get k - 1 ∧ t.dram.refDue = s.dram.refDue) ∧
    (serves → rank.val < s.ranks n → s.dram.refAhead.get k = 0 → Does (.refreshDue n b rank) s fun t =>
      t.dram.refDue.get k = s.dram.refDue.get k + 1 ∧ t.dram.refAhead = s.dram.refAhead) ∧
    (¬ serves ∨ s.ranks n ≤ rank.val → Does (.refreshDue n b rank) s fun t => t = s) ∧
    Does (.refreshWindowBoundary n) s (fun t => (∀ i, i < 1024 → (t.dram.banks.get (n * 1024 + i)).act = [] ∧
      (t.dram.banks.get (n * 1024 + i)).floor = 0 ∧ (t.dram.banks.get (n * 1024 + i)).flagged = false) ∧ (t.dram.chans.get n).threshNow = s.rd (R.CH_RHTHRESH_THRESH n) ∧
      t.rd (R.CH_RHSTAT_MAXF n) = 0 ∧ t.dram.lines = s.dram.lines) ∧
    (serves → Begins (.mr4Poll n .double) s (fun x => x.flag (R.CH_REFSTAT_RATE2X n) = true) ∧
      Begins (.mr4Poll n .beyond) s fun x => x.flag (R.CH_REFSTAT_RATE2X n) = true ∧ x.flag (R.CH_REFSTAT_THROTTLE n) = true ∧
        x.flag (R.CH_REFSTAT_HOT n) = true) ∧
    (¬ serves → Begins (.mr4Poll n .normal) s fun x => x = s) ∧
    (∀ t : BitVec 8, serves → timer → Begins (.thermalPoll n (some t)) s fun x => x.rd (R.CH_REFSTAT_TEMP n) = t.toNat ∧
      (85 < t.toNat → x.flag (R.CH_REFSTAT_RATE2X n) = true) ∧
      (s.rd (R.CH_REFCTL_HOTLIM n) < t.toNat → x.flag (R.CH_REFSTAT_THROTTLE n) = true)) ∧
    (serves → timer → Begins (.thermalPoll n none) s fun x => x.rd (R.CH_REFSTAT_TEMP n) = 0xFF ∧
      (x.dram.chans.get n).tsFails = ch.tsFails + 1 ∧ (2 ≤ ch.tsFails → x.flag (R.CH_REFSTAT_RATE2X n) = true)) ∧
    (¬ serves ∨ ¬ timer → Begins (.thermalPoll n none) s fun x => x = s) ∧
    (∀ id rest, u.alert = .none → u.retry = .write id :: rest → Drives (.commandRetire n b) s n fun x =>
      (x.sub n b).retry = rest ∧ (x.sub n b).wq = u.wq.filter (fun w => w.id != id) ∧ x.regs = s.regs) ∧
    (u.alert ≠ .none ∨ u.retry = [] → Drives (.commandRetire n b) s n fun x => x = s) ∧
    (¬ training → Drives (.channelTrainingDone n spd pass) s n (fun x => x = s) ∧
      Drives (.channelRestoreDone n spd pass) s n fun x => x = s) ∧
    (training → spd.slot0 = none → spd.slot1 = none → Drives (.channelTrainingDone n spd pass) s n fun x =>
      x.chanState n = left 0) ∧
    (training → (spd.slot0 ≠ none ∨ spd.slot1 ≠ none) → badPopulation spd ≠ 0 → Drives (.channelTrainingDone n spd pass) s n fun x =>
      x.chanState n = left 7 ∧ x.rd (R.CH_CFG_REJECT n) = badPopulation spd) ∧
    (training → spd.slot0 ≠ none → badPopulation spd = 0 → ChannelEmpty s n → Drives (.channelTrainingDone n spd false) s n fun x =>
      x.chanState n = left 6) ∧
    (training → spd.slot0 ≠ none → badPopulation spd = 0 → Drives (.channelTrainingDone n spd true) s n fun x =>
      inService x ∧ x.flag ((R.CHIP_BOOTSTAT_TRNFULL).bitAt n) = true ∧ (x.dram.chans.get n).ident = some spd.identity ∧
      x.rd (R.CH_CFG_RATE n) = rate ∧ (x.dram.chans.get n).rate = rate) ∧
    (∀ v, training → s.stored n spd.identity = some v → Drives (.channelRestoreDone n spd true) s n fun x => inService x ∧
      (x.dram.chans.get n).ident = some spd.identity ∧ (x.dram.chans.get n).rate = v.1 ∧ (x.dram.chans.get n).values = v.2 ∧
      (v.1 < 256 → x.rd (R.CH_CFG_RATE n) = v.1)) ∧
    (training → (s.stored n spd.identity = none ∨ pass = false) → Drives (.channelRestoreDone n spd pass) s n fun x => x = s)

/-- An alert sequence: the freeze, its replays, the escalation and the end of a paced read's share. An alert in a serving
channel sets its cause; the first of a sequence freezes the retry buffer and implicates its commands; one during a replay
makes it fail; the fourth starts the escalation. A deassertion replays. A replay that no alert meets retires its commands, a
first one with a transient record, a second or third with a lasting one. Step 1 of the escalation ends in a replay or in
step 2; step 2 in a replay at the lower rate or in Failed. A paced read whose channel share ends without data is answered
with poison and recorded. (R176, R177, R178, R179, R180, R232, Table 08-4) -/
def Obligations.ChannelAlertsAndReplay : Prop :=
  ∀ (s : State) (n : Fin 16) (b : Fin 2) (crc : Bool),
    let u := s.sub n b
    let serves := s.chanServes n = true
    let alive := s.flag R.CF_STAT_DEVLOST = false
    let cause := fun (x : State) => x.flag (if crc then R.CH_ALERTSTAT_WRCRC n else R.CH_ALERTSTAT_CAPAR n) = true
    let calm := (s.dram.chans.get n).retireWait = none
    let ended := fun (x : State) => (x.sub n b).alert = .none ∧ (x.sub n b).retry = [] ∧ (x.sub n b).implicated = [] ∧
      (x.sub n b).wq = u.wq.filter fun w => !w.issued
    (¬ serves → Drives (.alertN n b crc) s n fun x => x = s) ∧
    (serves → u.alert = .none → Drives (.alertN n b crc) s n fun x => cause x ∧ (x.sub n b).alert = .stopped ∧
      (x.sub n b).implicated = u.retry ∧ (x.sub n b).replays = 0) ∧
    (serves → u.alert = .stopped → Drives (.alertN n b crc) s n fun x => cause x ∧ x.dram = s.dram) ∧
    (serves → u.alert = .replay → u.replays < 3 → Drives (.alertN n b crc) s n fun x => cause x ∧ (x.sub n b).alert = .stopped ∧
      (x.sub n b).replays = u.replays) ∧
    (serves → u.alert = .replay → 3 ≤ u.replays → Drives (.alertN n b crc) s n fun x => cause x ∧ (x.sub n b).alert = .restore ∧
      x.flag (R.CH_ALERTSTAT_ESCAL n) = true) ∧
    (u.alert = .stopped → Drives (.alertDeassert n b) s n fun x => (x.sub n b).alert = .replay ∧
      (x.sub n b).replays = u.replays + 1 ∧ (x.sub n b).retry = u.retry ∧ (x.sub n b).wq = u.wq) ∧
    (u.alert ≠ .stopped → Drives (.alertDeassert n b) s n fun x => x = s) ∧
    (alive → calm → u.alert = .replay → u.replays < 2 → Drives (.replayRetire n b) s n fun x => ended x ∧
      ChannelRecord s x n 0x0203 1) ∧
    (alive → calm → s.dram.alerts = [] → u.alert = .replay → 2 ≤ u.replays → Drives (.replayRetire n b) s n fun x => ended x ∧
      ChannelRecord s x n 0x0203 2) ∧
    (u.alert = .none ∨ u.alert = .stopped → Drives (.replayRetire n b) s n fun x => x = s) ∧
    (u.alert ≠ .restore ∨ u.replays ≠ 3 → Drives (.trainingRestoreDone n b true) s n fun x => x = s) ∧
    (u.alert = .restore → u.replays = 3 → Drives (.trainingRestoreDone n b true) s n fun x => (x.sub n b).replays = 4 ∧
      (x.sub n b).alert = .restore ∧ (x.sub n b).retry = u.retry) ∧
    (∀ r, u.alert = .restore → u.replays = 3 → s.lowerRate n = some r → Drives (.trainingRestoreDone n b false) s n fun x =>
      (x.sub n b).alert = .lowerRate ∧ (x.sub n b).replays = 3) ∧
    (∀ r, u.alert = .lowerRate → u.replays = 3 → s.lowerRate n = some r → Drives (.lowerRateTrainingDone n b true) s n fun x =>
      x.rd (R.CH_CFG_RATE n) = r ∧ (x.sub n b).replays = 4) ∧
    (u.alert = .lowerRate → u.replays = 3 → ChannelEmpty s n → Drives (.lowerRateTrainingDone n b false) s n fun x =>
      x.chanState n = 6 ∧ (x.sub n b).alert = .none) ∧
    (u.alert ≠ .lowerRate → Drives (.lowerRateTrainingDone n b true) s n fun x => x = s) ∧
    (u.inflight = [] → u.prq = [] → Drives (.channelShareExpiry n b) s n fun x => x = s) ∧
    (∀ e id t, alive → u.inflight = [] → u.prq = [e] → s.deadRead n b e = false → e.use = .paced id → e.at_ + 260 ≤ s.gtc → s.tx id = some t →
      t.phase = .memory → s.pacedOn t = [t] → Drives (.channelShareExpiry n b) s n fun x => ∃ y : State,
        x = y.answerTx t 0 true false ∧ y.coh = s.coh ∧ y.dram = s.dram ∧
          ∃ z ∈ y.flt.ring, z.type = 0x020E ∧ z.unit = n.val ∧ z.dom = t.req.dom ∧ z.loc = t.req.addr ∧ z.gtcN = s.gtc)

/-- What read data leads to: answers, re-reads, merges and patrol. A demand read whose data is sound answers its request with
the stored bytes; one that cannot be corrected is read again before any answer. A re-read that finds a corrected line clean
leaves a transient record and no rewrite. A narrow write whose line is sound is merged over it and queued. A patrol read of
a sound line moves on by a line, one of a line with a queued write too; the last ends the pass. A re-read waits for its
reservation and its bank, a patrol read for the background class. Without a read of the kind waiting, nothing happens.
(R165, R168, R195, R197, R202, R204, R205, R206, R207, Table 09-3) -/
def Obligations.ReadDataAndScrubbing : Prop :=
  ∀ (s : State) (n : Fin 16) (b : Fin 2) (e : RdEntry) (err again : CodeWord) (f : PipeFault),
    let u := s.sub n b
    let taken := s.updSub n b fun q => { q with inflight := [] }
    let held := s.claim.retry.get ((n * 2 + b) * 256 + 0x41)
    let total := s.chanLines n
    let onward := fun (l : Nat) => (s.patrolNext n (s.chanExtents n + 1) (l + 1)).isSome = true
    let moved := fun (l : Nat) (x : State) => (x.dram.chans.get n).patrol.line = l + 1 ∧ x.dram.lines = s.dram.lines ∧
      x.flag (R.CH_PATROLSTAT_RUN n) = true ∧ x.rd (R.CH_PATROLSTAT_PROG n) = (l + 1) * 1024 / total
    let word := s.readWord n e
    let on := s.flag (R.CH_ECCCTL_PATROLEN n) = true ∧ s.chanServes n = true ∧ s.serving = true ∧ total ≠ 0
    (u.inflight = [] → Drives (.dramReadData n b err f) s n (fun x => x = s) ∧ Drives (.narrowWriteMerge n b ⟨err, f⟩) s n fun x => x = s) ∧
    (∀ id t y, u.inflight = [e] → e.use = .demand id → e.decode err = .clean y → s.tx id = some t → t.phase = .memory →
      t.req.entry.encrypt = false → (s.entry t.req.dom).encrypt = false →
      Drives (.dramReadData n b err f) s n fun x => x = taken.answerTx t y false false) ∧
    (∀ id t y, u.inflight = [e] → e.use = .demand id → e.decode err = .uncorrectable y → s.tx id = some t →
      (s.entry t.req.dom).encrypt = false → Drives (.dramReadData n b err f) s n fun x => x.coh = s.coh ∧ (x.sub n b).inflight = [] ∧
        ∃ r, (x.sub n b).rereads = u.rereads ++ [r] ∧ r.line = e.line ∧ r.use = e.use ∧ r.answered = false) ∧
    (u.rereads = [] → Drives (.rereadDone n b err f) s n fun x => x = s) ∧
    (∀ rest, u.rereads = e :: rest → held = 0 ∨ s.accessFree n e.line = false → Drives (.rereadDone n b err f) s n fun x => x = s) ∧
    (∀ rest y z k, s.flag R.CF_STAT_DEVLOST = false → u.rereads = e :: rest → u.rq = [] → held ≠ 0 → s.accessFree n e.line = true →
      e.line % 2 = b.val → e.answered = true → e.use.isMerge = false → e.first = some (.corrected y k) → word.decode err = .clean z →
      Drives (.rereadDone n b err f) s n fun x => (x.sub n b).rereads = rest ∧ x.dram.lines = s.dram.lines ∧ x.coh = s.coh ∧
        ChannelRecord s x n 0x0201 1) ∧
    (∀ id m y, u.inflight = [e] → u.rq = [] → u.prq = [] → u.wq = [] → e.use = .merge id → e.line = m.line → m.line % 2 = b.val →
      e.decode err = .clean y → s.mergeEntry n id = some m → s.resolve n m.line = (n.val, m.line) → m.enc = false →
      (s.entry m.dom).encrypt = false → s.mergeFree n m false = true → Drives (.narrowWriteMerge n b ⟨err, f⟩) s n fun x => x.mergeEntry n id = none ∧ ∃ w, (x.sub n b).wq = [w] ∧ w.line = m.line ∧
        w.data = mergeBytes y m.data m.be ∧ w.poison = m.poison ∧ w.addr = m.addr ∧ w.credit = m.credit ∧ w.paced = m.paced) ∧
    (¬ on → Drives (.patrolRead n err again) s n fun x => x = s) ∧
    (∀ l, on → s.patrolAt n = some l → s.inQueue n l = true → onward l → Drives (.patrolRead n err again) s n (moved l)) ∧
    (∀ l, on → s.patrolAt n = some l → s.inQueue n l = false → s.bgFree n l = false → Drives (.patrolRead n err again) s n fun x => x = s) ∧
    (∀ l y, on → s.patrolAt n = some l → s.inQueue n l = false → s.bgFree n l = true → s.readNow n l err = .clean y → onward l →
      Drives (.patrolRead n err again) s n (moved l)) ∧
    (on → s.patrolAt n = none → Drives (.patrolRead n err again) s n fun x => (x.dram.chans.get n).patrol.line = 0 ∧
      x.flag (R.CH_PATROLSTAT_RUN n) = false ∧ x.rd (R.CH_PATROLSTAT_PROG n) = 0 ∧
        x.rd (R.CH_PASSGTC_GTCHI n) = s.gtc / 2 ^ 32 % 2 ^ 32)

/-- Marks, error injection, row repair and the retirement of a channel. A legal mask is taken, the first one degrading a Serving
channel; another is discarded with a record. Injection claims its merge entries; a raw write stores the registers' word, a
raw read loads them and its decode, a flip stores their exclusive or, each in the order of accesses to its line; none acts
while injection is off. A repair or retirement is discarded while one runs, refused with its status where the channel cannot
take it, and else begun; the end of a soft repair, which waits for the end of an alert sequence, has put the row on a spare
row and lists it. A retiring channel's next extent begins to be copied when a target is free, and is flipped to it once
every line is copied and no access of it is left. (R178, R183, R184, R186, R189, R199, R211, R212, Table 08-9, Table 08-18,
Table 09-9) -/
def Obligations.MarksRepairsAndRetirement : Prop :=
  ∀ (s : State) (p : Path) (n : Fin 16) (k : Fin 32) (val : BitVec 32) (ent : Fin 4),
    let ch := s.dram.chans.get n
    let reach := Reachable s p
    let busy := s.flag (R.CH_MAINT_BUSY n) = true
    let status := fun (x : State) (v : Nat) => x.rd (R.CH_MAINT_STATUS n) = v
    let c := s.maintCoord n
    let l := s.injLine n
    let waits := (s.writesWait n (· == l) || s.merging n l) = true
    let ready := reach ∧ s.mayInject n = true ∧ ¬ waits ∧ (∀ r ∈ (s.sub n (l % 2)).reads, r.line ≠ l) ∧ s.accessFree n l = true ∧
      ch.extCopy = none
    let injected := fun (x : State) => x.flag (R.CH_INJCTL_BUSY n) = false ∧ (x.dram.chans.get n).inj = none
    let alerted := fun (r : RowSave) => (s.sub n r.sub).alert ≠ .none ∨ s.escalating n = true
    let held := bufHeld s.claim.merge (n * 256) mergeOrder - s.claim.merge.get (n * 256 + 0x31)
    let dec := lineDecode (s.word n l) (s.maskOf n l) (s.rd (R.CH_ECCCTL_TLIM n))
    (∀ j, j < 10 → reach → fld val 9 0 = 2 ^ j → s.chanState n = 2 → Drives (.markWrite p n k val) s n fun x =>
      x.rd (R.CH_MARK_MASK n k) = 2 ^ j ∧ x.rd (R.CH_MARK_SRC n k) = 0 ∧ x.chanState n = 3) ∧
    (reach → s.flag R.CF_STAT_DEVLOST = false → maskLegal (s.flag (R.CH_CFG_WIDTH n)) (fld val 9 0) = false → Drives (.markWrite p n k val) s n fun x =>
      RecordedNow s x 0x0409 (R.CH_MARK n k)) ∧
    (reach → s.flag R.MG_LOCK_INJLK = false → Does (.injectionEnable p n ent) s fun t =>
      t.flag (R.CH_INJCTL_INJEN n) = decide (held + (ent + 1) ≤ 16) ∧ t.rd (R.CH_INJCTL_ENT n) = ent ∧ t.dram = s.dram) ∧
    (ready → Drives (.rawWrite p n) s n fun x => injected x ∧ x.word n l = s.injWord n ∧ ∀ j, j ≠ l → x.word n j = s.word n j) ∧
    (ready → Drives (.rawRead p n) s n fun x => injected x ∧ x.injWord n = s.word n l ∧ x.rd (R.CH_INJCTL_RESULT n) = dec.code ∧
      x.rd (R.CH_INJCTL_ERRS n) = dec.errs % 64 ∧ x.dram.lines = s.dram.lines) ∧
    (ready → Drives (.flip p n) s n fun x => injected x ∧ x.word n l = s.word n l ^^^ s.injWord n ∧ x.rd (R.CH_INJCTL_RESULT n) = dec.code) ∧
    (reach → s.mayInject n = true → waits → Drives (.flip p n) s n fun x => x.flag (R.CH_INJCTL_BUSY n) = true ∧
      x.dram.lines = s.dram.lines ∧ ∃ j, (x.dram.chans.get n).inj = some j ∧ j.op = 2 ∧ j.line = l ∧ j.word = s.injWord n ∧ j.at_ = none) ∧
    (reach → s.mayInject n = false → Drives (.rawWrite p n) s n (fun x => x = s) ∧ Drives (.rawRead p n) s n (fun x => x = s) ∧
      Drives (.flip p n) s n fun x => x = s) ∧
    (reach → busy → Drives (.softRepair p n) s n (fun x => x = s) ∧ Drives (.retireChannel p n) s n (fun x => x = s) ∧
      Drives (.listHardRepair p n) s n fun x => x = s) ∧
    (reach → ¬ busy → s.chanServes n = false → s.escalating n = false → Drives (.softRepair p n) s n (fun x => status x 0x23) ∧
      Drives (.retireChannel p n) s n (fun x => status x 0x23) ∧ Drives (.listHardRepair p n) s n fun x => status x 0x23) ∧
    (reach → ¬ busy → s.chanServes n = true → s.servesPaced n = true → Drives (.softRepair p n) s n fun x => status x 0x21 ∧
      c.rowKey ∈ (x.dram.chans.get n).repairs) ∧
    (reach → ¬ busy → s.chanTakes n = true → s.servesPaced n = false → ch.save = none →
      s.claim.retry.get ((n * 2 + c.sub) * 256 + 0x42) ≠ 0 → Drives (.softRepair p n) s n fun x => status x 0 ∧
        x.flag (R.CH_MAINT_BUSY n) = true ∧ (x.dram.chans.get n).save.map RowSave.coord = some c ∧
        (x.sub n c.sub).retry.getLast? = some (.repair (c.rank * 32 + c.bank) c.row)) ∧
    (reach → ¬ busy → s.chanTakes n = true → s.escalating n = false → s.retireStatus n = 0 →
      Drives (.retireChannel p n) s n fun x => status x 0 ∧ (x.chanState n = 4 ∨ x.chanState n = 5)) ∧
    (reach → ¬ busy → s.escalating n = true → Drives (.retireChannel p n) s n fun x => status x 0 ∧
      (x.dram.chans.get n).retireWait = some 0 ∧ x.chanState n = s.chanState n) ∧
    (reach → ¬ busy → s.chanServes n = true → Drives (.listHardRepair p n) s n fun x =>
      if s.hasSpare n c then status x 0 ∧ c.rowKey ∈ (x.dram.chans.get n).repairs else status x 0x20) ∧
    (ch.save = none → Drives (.softRepairComplete n true) s n fun x => x = s) ∧
    (∀ r, ch.save = some r → alerted r → Drives (.softRepairComplete n true) s n fun x => x = s) ∧
    (∀ r, ch.save = some r → ¬ alerted r → Drives (.softRepairComplete n true) s n fun x => x.flag (R.CH_MAINT_BUSY n) = false ∧
      (x.dram.chans.get n).save = none ∧ if s.hasSpare n r.coord then status x 0 ∧ r.coord.rowKey ∈ (x.dram.chans.get n).repairs ∧
        r.coord.rowKey ∈ (x.dram.chans.get n).softRows ∧ (x.dram.chans.get n).spares = ch.spares else status x 0x20) ∧
    (s.chanState n ≠ 4 ∨ ch.extCopy ≠ none → Drives (.extentTarget n) s n fun x => x = s) ∧
    (∀ e rest t y, s.chanState n = 4 → ch.extCopy = none → s.extentsToMove n = e :: rest → s.moveTarget n e = some (t, y) →
      Drives (.extentTarget n) s n fun x => (x.dram.chans.get n).extWait = false ∧ (x.dram.chans.get n).extCopy =
        some { ext := e, chan := t, target := y, left := s.linesWhere n (fun i => i / 32768 == e) }) ∧
    (∀ e rest, s.chanState n = 4 → ch.extCopy = none → s.extentsToMove n = e :: rest → s.moveTarget n e = none →
      Drives (.extentTarget n) s n fun x => (x.dram.chans.get n).extWait = true ∧ x.regs = s.regs) ∧
    (ch.extCopy = none → Drives (.extentFlip n) s n fun x => x = s) ∧
    (∀ e, ch.extCopy = some e → e.left ≠ [] ∨ s.extentBusy n e.ext = true → Drives (.extentFlip n) s n fun x => x = s) ∧
    (∀ e, ch.extCopy = some e → e.left = [] → s.extentBusy n e.ext = false → s.metaAt n e.ext = none → (s.ext n e.ext).kind = 1 →
      Drives (.extentFlip n) s n fun x => (x.dram.chans.get n).extCopy = none ∧
        (x.dram.chans.get n).redirect.get e.ext = 1 + e.chan * 2 ^ 19 + e.target ∧ x.tier = s.tier)

/-- Keys are installed, destroyed, activated and cached. A staged blob whose version or KEKSEL is not the path's ends with 0x14,
one that does not unwrap with 0x10, and one that passes every check of Table 07-8 fills its slot as Installed, notes its
sequence number and ends with 0; each leaves the staging words zero. A destroy of a slot that is not erasing and whose
domain is not valid zeroises it, with BUSY set; with ports open it is 0x13. DK6 and DK7 pending become DK0 and DK4, with the
counter at 0; none pending is 0x14. A key loaded into a pipeline is its most recent. A finished walk leaves the slot Empty.
(R148, R152, R153, R154, R155, R158, Table 07-8, Table 07-9) -/
def Obligations.KeySlotOperations : Prop :=
  ∀ (s : State) (p : Path) (dom : BitVec 14) (pipe : Fin 32) (slot : BitVec 14) (k : BitVec 256),
    let d := dom.toNat
    let b := s.stagedBlob p
    let keyOk := fun (pt : List Byte) => (ofLe 16 (pt.take 2)).toNat = d ∧
      s.eng.seq.get 0 < (ofLe 32 ((pt.drop 4).take 4)).toNat ∧
      (ofLe 256 ((pt.drop 8).take 32) : BitVec 256) ≠ ofLe 256 ((pt.drop 40).take 32)
    let e := s.entry d
    let act := KeyPathFree s p
    (act → b.getD 0 0 ≠ 1 → Does (.keyInstall p dom) s fun t => KeyDone t p d 0x14 ∧ t.eng = s.eng) ∧
    (act → p = .bar → b.getD 0 0 = 1 → b.getD 1 0 = 0 → s.eng.dk.get 0 = some k → Does (.keyInstall p dom) s fun t =>
      match kwUnwrap k ((b.drop 8).take 112) with
      | none => KeyDone t p d 0x10 ∧ t.eng = s.eng
      | some pt => keyOk pt → (s.slot d).st = 0 → KeyDone t p d 0 ∧ t.slot d = {
          st := 2, k1 := ofLe 256 ((pt.drop 8).take 32), k2 := ofLe 256 ((pt.drop 40).take 32),
          kt := ofLe 256 ((pt.drop 72).take 32) } ∧ t.eng.seq.get 0 = (ofLe 32 ((pt.drop 4).take 4)).toNat ∧
          ∀ q, q ≠ d → t.slot q = s.slot q) ∧
    (act → (s.slot d).st ≠ 3 → e.valid = false → Settles (.keyDestroy p dom) s fun x => (x.slot d).st = 3 ∧ (x.slot d).k1 = 0 ∧
      x.flag (R.SEC_KEYSTAT_BUSY.on p) = true ∧ x.rd (R.SEC_KEYSTAT_DOMAIN.on p) = d ∧
      x.eng.erases = s.eng.erases ++ [{ dom := d, entry := e, path := some p, port := none }]) ∧
    (act → e.valid = true → e.rdPorts ≠ 0 → Settles (.keyDestroy p dom) s fun x => KeyDone x p d 0x13 ∧ x.eng = s.eng) ∧
    (act → s.eng.dk.get 6 = some k → Does (.keyActivateDk6 p dom) s fun t => KeyDone t p d 0 ∧ t.eng.dk.get 0 = some k ∧
      t.eng.dk.get 6 = none ∧ t.eng.seq.get 0 = 0 ∧ t.eng.slots = s.eng.slots) ∧
    (act → s.eng.dk.get 6 = none → Does (.keyActivateDk6 p dom) s fun t => KeyDone t p d 0x14 ∧ t.eng = s.eng) ∧
    (act → s.eng.dk.get 7 = some k → Does (.keyActivateDk7 p dom) s fun t => KeyDone t p d 0 ∧ t.eng.dk.get 4 = some k ∧
      t.eng.dk.get 7 = none ∧ t.eng.seq.get 4 = 0 ∧ t.eng.slots = s.eng.slots) ∧
    (act → s.eng.dk.get 7 = none → Does (.keyActivateDk7 p dom) s fun t => KeyDone t p d 0x14 ∧ t.eng = s.eng) ∧
    ((s.eng.kcache.get pipe).length < 32 → Does (.keyCacheLoad pipe slot) s fun t =>
      t.eng.kcache.get pipe = slot.toNat :: (s.eng.kcache.get pipe).filter (· != slot.toNat) ∧ t.eng.slots = s.eng.slots) ∧
    (s.eraseOf d = none → Begins (.eraseWalkDone dom) s fun x => x = s) ∧
    (∀ x, s.eraseOf d = some x → x.dom = d → x.entry.valid = false → e.valid = false → x.path = none → x.port = none →
      s.walkReady d = true → s.tier.migs = [] → Begins (.eraseWalkDone dom) s fun y =>
        y.slot d = default ∧ y.eraseOf d = none ∧ y.tier = s.tier)

/-- Operations on a Kindling slice, and blocks leaving compressors, decompressors and fills. CLEAN and CLEAN_AND_INVALIDATE
start an operation of their scope on a slice, BUSY with no set visited, and are discarded while one runs. The visit of an
empty set counts it; the one after set 12,287 ends the operation. A way is taken out of service by its bit. A poisoned block
at the head of a compressor's queue is kept for its page's promotion; a fault sets CFAULT; an empty queue gives nothing, and
no encrypt pipeline in service lets nothing leave. A decoded block is ready in its fill with its 1,024 bytes; a parity fault
sets DFAULT. A fill that is not ready stays; a ready one whose block lies in a way already is dropped, and one that finds a
way is installed as Home Clean and gone. (R62, R63, R67, R68, R135, R136, R138, R139, R141, Table 03-5) -/
def Obligations.KindlingSlicesAndEngines : Prop :=
  ∀ (s : State) (p : Path) (n : Fin 16) (scope : Bool) (dom : BitVec 14) (ways : BitVec 16) (id : Nat),
    let idle := s.flag (R.KS_OPSTAT_BUSY n) = false
    let starts := fun (op : Nat) (t : State) => t.flag (R.KS_OPSTAT_BUSY n) = true ∧ t.rd (R.KS_OPSTAT_SETS n) = 0 ∧
      t.kind.op.get n = 1 + 2 * op + (if scope then 1 else 0) ∧ t.kind.opDom.get n = dom.toNat ∧ t.kind.opSet.get n = 0 ∧
      t.kind.lines = s.kind.lines
    let set := s.kind.opSet.get n
    let emptySet := ∀ w, w < 16 → (s.kLine n set w).st = .invalid
    (Reachable s p → idle → Does (.clean p n scope dom) s (starts 0)) ∧
    (Reachable s p → idle → Does (.cleanAndInvalidate p n scope dom) s (starts 1)) ∧
    (Reachable s p → ¬ idle → Does (.clean p n scope dom) s (fun t => t = s) ∧
      Does (.cleanAndInvalidate p n scope dom) s fun t => t = s) ∧
    (s.kind.op.get n = 0 → Settles (.kindlingSetVisit n) s fun x => x = s) ∧
    (s.kind.op.get n ≠ 0 → emptySet → set < 12287 → Settles (.kindlingSetVisit n) s fun x =>
      x.rd (R.KS_OPSTAT_SETS n) = set + 1 ∧ x.kind.opSet.get n = set + 1 ∧ x.kind.op.get n = s.kind.op.get n ∧
        x.kind.lines = s.kind.lines) ∧
    (s.kind.op.get n ≠ 0 → emptySet → set = 12287 → Settles (.kindlingSetVisit n) s fun x =>
      x.flag (R.KS_OPSTAT_BUSY n) = false ∧ x.rd (R.KS_OPSTAT_SETS n) = 12288 ∧ x.kind.op.get n = 0) ∧
    (Reachable s p → s.kind.lines = Tab.empty → s.kind.drain = [] → Settles (.wayDisable p n ways) s fun x =>
      x.rd (R.KS_WAYDIS_WAYS n) = ways.toNat ∧ x.kind = s.kind) ∧
    (s.eng.cq.get n = [] → Begins (.compressionDone n false) s fun x => x = s) ∧
    (∀ j q, s.eng.cq.get n = j :: q → s.noEncrypt j.entry.encrypt = true → Begins (.compressionDone n false) s fun x => x = s) ∧
    (∀ j q, s.eng.cq.get n = j :: q → s.noEncrypt j.entry.encrypt = false → j.poison = true → j.mig = none → j.first = none →
      j.place = .out → Begins (.compressionDone n false) s fun x => x.eng.czHeld = s.eng.czHeld ++ [j] ∧
        (x.eng.cq.get n).map (·.granule) = q.map (·.granule) ∧ x.rd (R.ENG_CZSTAT_CQ n) = q.length % 8) ∧
    (∀ j q, s.eng.cq.get n = j :: q → j.mig = none → j.first = some n.val → j.place = .out → Begins (.compressionDone n true) s fun x =>
      x.flag (R.ENG_CZSTAT_CFAULT n) = true ∧ x.flag (R.ENG_CZCTL_CDIS n) = true ∧ x.eng.czHeld = s.eng.czHeld ++ [j]) ∧
    (s.eng.dq.get n = [] → Begins (.decompressionDone n false) s fun x => x = s) ∧
    (∀ f b, s.eng.dq.get n = [id] → s.kind.fills = [f] → f.id = id → f.first = none → tbcDecode f.unit f.n = some b →
      Begins (.decompressionDone n false) s fun x => x.kind.fills = [{ f with out := b, ready := true }] ∧ x.eng.dq.get n = []) ∧
    (∀ f, s.fill id = some f → f.ready = false → Begins (.blockFill id) s fun x => x = s) ∧
    (∀ f, s.fill id = some f → f.ready = true → f.dirty = false → s.waitsOn f = [] → (s.kWay f.slice (f.granule * 1024)).isSome = true →
      Begins (.blockFill id) s fun x => x = s.dropFill id) ∧
    (∀ f y, s.fill id = some f → f.ready = true → f.dirty = false → s.waitsOn f = [] → s.kWay f.slice (f.granule * 1024) = none →
      s.hasWay f.slice f.entry = true → s.fillBlock f.slice f.entry f.granule .homeClean f.out = (true, y) →
      Begins (.blockFill id) s fun x => x = y.dropFill id) ∧
    (s.fill id = none → Begins (.blockFill id) s fun x => x = s)

/-- Domain entries change only by commits, which end with a status; capacity events and release candidates. A write of the
domain table's window is discarded with a BAD_VALUE record of its offset. A commit asked for while the path's operation is
in progress is discarded; one whose entry has SIZE 0 ends with 0x03 and nothing committed; one that has to wait waits; one
that passes every check commits its entry with GEN one higher; one with nothing to recall ends with 0. A copy gives the
staging words the committed entry. A held Add Capacity event is sent once. A release candidate in Reserve or below, with
RELEN, becomes Requested for the ports with a permission bit; a write of a TMREL entry makes it idle. (R40, R41, R52, R53,
R122, R123, R443, Table 02-5) -/
def Obligations.DomainCommitsAndCopies : Prop :=
  ∀ (s : State) (p : Path) (dom : BitVec 14) (off : BitVec 20) (val : BitVec 32) (port : Fin 32) (k : Fin 16),
    let d := dom.toNat
    let busy := s.flag (R.CHIP_DOMSTAT_BUSY.on p) = true
    let s1 := (s.set1 (R.CHIP_DOMSTAT_BUSY.on p)).wr (R.CHIP_DOMSTAT_DOMAIN.on p) d
    let e := s.stagedEntry p
    let new := cleanEntry (s.entry d) e
    let cand := s.rd (R.CHIP_TMREL_DOMAIN k)
    let ports := (List.range 32).filter fun q => (s.entry cand).rdPorts.testBit q || (s.entry cand).wrPorts.testBit q
    (Reachable s p → s.flag R.CF_STAT_DEVLOST = false → Does (.domainTableWrite p off val) s fun t => RecordedNow s t 0x0409 (0x100000 + off.toNat)) ∧
    (Reachable s p → busy → Settles (.domainCommit p dom) s fun x => x = s) ∧
    (Reachable s p → ¬ busy → (∀ c ∈ s.dom.commits, c.dom ≠ d) → e.valid = true → e.size = 0 → s1.commitWaits d new = false →
      Settles (.domainCommit p dom) s fun x => x.rd (R.CHIP_DOMSTAT_STATUS.on p) = 3 ∧
        x.rd (R.CHIP_DOMSTAT_DOMAIN.on p) = d ∧ x.flag (R.CHIP_DOMSTAT_BUSY.on p) = false ∧ x.dom = s.dom) ∧
    (Reachable s p → ¬ busy → s1.commitWaits d new = true → Settles (.domainCommit p dom) s fun x => x.dom.entries = s.dom.entries ∧
      x.flag (R.CHIP_DOMSTAT_BUSY.on p) = true ∧ ∃ c, x.dom.waiting = s.dom.waiting ++ [c] ∧ c.dom = d ∧ c.new = e ∧ c.path = some p) ∧
    (Reachable s p → ¬ busy → s1.commitWaits d new = false → s1.commitStatus d new false = 0 →
      Settles (.domainCommit p dom) s fun x => x.entry d = setFld new 399 384 (((s.entry d).gen + 1) % 65536) ∧
        (∀ q, q ≠ d → x.entry q = s.entry q) ∧ ∃ c ∈ x.dom.commits, c.dom = d ∧ c.new = x.entry d ∧ c.path = some p) ∧
    (Reachable s p → ¬ busy → Does (.domainCopyToStaging p dom) s fun t => t.stagedEntry p = s.entry d ∧ t.dom = s.dom ∧
      t.rd (R.CHIP_DOMSTAT_STATUS.on p) = 0 ∧ t.rd (R.CHIP_DOMSTAT_DOMAIN.on p) = d) ∧
    (Reachable s p → busy → Does (.domainCopyToStaging p dom) s fun t => t = s) ∧
    ((∀ c ∈ s.dom.commits, c.dom ≠ d) → Begins (.domainCommitComplete dom) s fun x => x = s) ∧
    (∀ c, s.dom.commits.find? (fun c => c.dom == d) = some c → c.inval = true → c.old.valid = false → c.src = 0 → c.path = some p →
      s.dom.waiting = [] → Begins (.domainCommitComplete dom) s fun x => (∀ y ∈ x.dom.commits, y.dom ≠ d) ∧
        x.dom.entries = s.dom.entries ∧ x.rd (R.CHIP_DOMSTAT_STATUS.on p) = 0 ∧ x.flag (R.CHIP_DOMSTAT_BUSY.on p) = false) ∧
    ((s.place port).on = true → (s.head port).flit ≠ 0 → (port.val, d) ∈ s.dom.decl → Does (.addCapacityEventSend port dom) s fun t =>
      t.out = .dcEvent port d true :: s.out ∧ (port.val, d) ∉ t.dom.decl) ∧
    ((port.val, d) ∉ s.dom.decl → Does (.addCapacityEventSend port dom) s fun t => t = s) ∧
    (s.pressure < 2 ∨ s.flag R.CHIP_TMCTL_RELEN = false → Settles .releaseCandidate s fun x => x = s) ∧
    (2 ≤ s.pressure → s.flag R.CHIP_TMCTL_RELEN = true → s.relCandidate k = true → (∀ i, i < k.val → s.relCandidate i = false) →
      ports ≠ [] → Settles .releaseCandidate s fun x => x.rd (R.CHIP_TMREL_RSTATE k) = 1 ∧
        x.dom.release = s.dom.release ++ [(k.val, cand, ports, ports)] ∧ x.dom.entries = s.dom.entries) ∧
    (Reachable s p → Does (.tmrelWrite p k val) s fun t => t.reg (R.CHIP_TMREL k) = setFld (setFld val 29 28 0) 27 14 0 ∧
      (∀ x ∈ t.dom.release, x.1 ≠ k.val) ∧ t.dom.entries = s.dom.entries)

/-- Heat epochs, sweeps and resync passes, compaction, and a migration's hold and flip. A new EPOCH starts the epoch count at 0
and every owner's resync pass; a reserved value is discarded with a record. The end of an epoch counts it. A sweep halves
the next owned entry's heat once per epoch passed, eight at most, and gives it the present epoch; a resync pass clears the
next one's EPOCH. Compaction acts in Reserve and Held on the sparsest extent. A written migration with nothing to copy again
holds its granules; its flip commits the entry of its kind and ends it. Other migrations stay. A sweep or a pass whose entry
in DRAM finds no place for its write waits. (R46, R107, R108, R109, R111, R113, R114, R494, Table 05-4) -/
def Obligations.HeatAndMigrations : Prop :=
  ∀ (s : State) (p : Path) (val : BitVec 32) (o : Fin 16) (mig : Nat),
    let place := s.tier.sweep.get o
    let r := s.tier.resync.get o
    let room := fun (k : Nat) => (s.tier.mcache.get (s.mapSet k)).length < 16
    let held := fun (k : Nat) => s.tier.inDram.get k = false ∧ room k
    let stuck := fun (k : Nat) => s.tier.inDram.get k = true ∧ s.metaRoom k = false
    (Reachable s p → legalWrite R.CHIP_TMCTL val = true → fld val 21 18 ≠ s.rd R.CHIP_TMCTL_EPOCH →
      Begins (.tmctlEpochWrite p val) s fun x => x.rd R.CHIP_TMCTL_EPOCH = fld val 21 18 ∧ x.tier.epoch = 0 ∧
        ∀ k, k < 16 → x.tier.resync.get k = 1) ∧
    (Reachable s p → legalWrite R.CHIP_TMCTL val = true → fld val 21 18 = s.rd R.CHIP_TMCTL_EPOCH →
      Begins (.tmctlEpochWrite p val) s fun x => x.tier = s.tier) ∧
    (Reachable s p → s.flag R.CF_STAT_DEVLOST = false → legalWrite R.CHIP_TMCTL val = false →
      Begins (.tmctlEpochWrite p val) s fun x => RecordedNow s x 0x0409 R.CHIP_TMCTL) ∧
    (s.tier.epoch < 2 ^ 64 - 1 → Does .heatEpochTick s fun t => t.tier.epoch = s.tier.epoch + 1 ∧ t.tier.pmap = s.tier.pmap ∧
      t.regs = s.regs) ∧
    (∀ k, r = 0 → s.nextOwned o place = some k → held k → Does (.heatSweep o) s fun t =>
      (t.page k).heat = (s.page k).heat / 2 ^ min ((s.tier.epoch + 256 - (s.page k).epoch) % 256) 8 ∧
        (t.page k).epoch = s.tier.epoch % 256 ∧ (∀ j, j ≠ k → t.page j = s.page j) ∧ t.tier.sweep.get o = k + 1) ∧
    (s.nextOwned o place = none → Does (.heatSweep o) s fun t => t.tier.pmap = s.tier.pmap ∧ t.tier.sweep.get o = 0) ∧
    (r = 0 → Does (.resyncPass o) s fun t => t = s) ∧
    (∀ k, s.nextOwned o place = some k → stuck k → Does (.heatSweep o) s fun t => t = s) ∧
    (∀ k, r ≠ 0 → s.nextOwned o (r - 1) = some k → stuck k → Does (.resyncPass o) s fun t => t = s) ∧
    (∀ k, r ≠ 0 → s.nextOwned o (r - 1) = some k → held k → Does (.resyncPass o) s fun t => (t.page k).epoch = 0 ∧
      (t.page k).heat = (s.page k).heat ∧ (∀ j, j ≠ k → t.page j = s.page j) ∧ t.tier.resync.get o = k + 2) ∧
    (r ≠ 0 → s.nextOwned o (r - 1) = none → Does (.resyncPass o) s fun t => t.tier.pmap = s.tier.pmap ∧
      t.tier.resync.get o = 0) ∧
    (s.pressure < 2 ∨ s.sparsest = none → Begins .tierCompaction s fun x => x = s) ∧
    (∀ c y, 2 ≤ s.pressure → s.sparsest = some (c, y) → Begins .tierCompaction s fun x => x = s.compactExtent c y .manager) ∧
    (s.mig mig = none → Begins (.migrationCopyComplete mig) s (fun x => x = s) ∧ Begins (.migrationFlip mig) s fun x => x = s) ∧
    (∀ m, s.mig mig = some m → m.phase = .written → s.migDead m = false → m.redo = 0 →
      (∀ g, g < 4 → s.granuleBusy m (m.dpa / 1024 + g) = false) → Begins (.migrationCopyComplete mig) s fun x =>
        x.mig mig = some { m with phase := .held } ∧ (∀ j, j ≠ mig → x.mig j = s.mig j) ∧ x.tier.pmap = s.tier.pmap) ∧
    (∀ m, s.mig mig = some m → m.phase = .written → s.migDead m = true → Begins (.migrationCopyComplete mig) s fun x =>
      x = s.migEnd m 0x68) ∧
    (∀ m g, s.mig mig = some m → m.phase = .written → s.migDead m = false → g < 4 → s.granuleBusy m (m.dpa / 1024 + g) = true →
      Begins (.migrationCopyComplete mig) s fun x => x = s) ∧
    (∀ m, s.mig mig = some m → m.phase ≠ .held → Begins (.migrationFlip mig) s fun x => x = s) ∧
    (∀ m, s.mig mig = some m → m.phase = .held → m.redo = 0 → room m.page → Begins (.migrationFlip mig) s fun x =>
      x.page m.page = s.flipEntry m (s.page m.page) ∧ x.mig mig = none ∧ (∀ j, j ≠ mig → x.mig j = s.mig j) ∧
        ∀ j, j ≠ m.page → s.tier.inDram.get j = false → x.page j = s.page j)

/-- A host's requests are decoded, refused or offered; admission and backing points grant them. A read, with or without a
CXL.cache or extended-metadata field, a full write and a narrow write to a domain that their port may access are offered for
admission to that domain's class; at an address that no committed decoder translates they are refused with a DECODE_FAULT
record, as is an opcode that is not offered with UNSUP_OPC. A speculative read has no effect but the record when it is not
offered. A port that is not open brings nothing, nor does a host without a credit (the model's reading, assumption 125). A
grant takes an accepted request first, or with regulation off the one that waits, to its home. A request that waits for
backing is served once its page is backed; a draw that Free does not allow moves the state back to Held. (R30, R31, R47,
R48, R50, R85, R120, R219, R299, R303) -/
def Obligations.HostRequestsAndGrants : Prop :=
  ∀ (s : State) (port : Fin 32) (tag : BitVec 16) (hpa : BitVec 64) (mv : MetaValue) (dec line : Nat) (offered poison ext : Bool) (be : BitVec 64)
    (data : Line) (u : Upset) (g : Fin 16) (d : Nat) (e : Entry),
    let at_ := hpaLine hpa
    let loose := s.biFor port line = none
    let undecoded := s.translate port at_ = none
    let asks := fun (w : Bool) => HostOpen s port ∧ s.m2sCredit port w = true
    let rd : Bool → Instr := fun o => .hostRead port tag hpa mv ext o u
    let wr : Bool → Instr := fun o => .hostWrite port tag hpa mv o poison data u
    let ptl : Bool → Instr := fun o => .hostNarrowWrite port tag hpa mv o be poison data u
    let q := s.rgl.admq.get g
    (s.portOpen port = false → Does (rd offered) s (fun t => t = s) ∧ Does (wr offered) s (fun t => t = s) ∧
      Does (ptl offered) s (fun t => t = s) ∧ Does (.memspecrd port hpa offered) s fun t => t = s) ∧
    (s.m2sCredit port false = false → Does (rd offered) s fun t => t = s) ∧
    (s.m2sCredit port true = false → Does (ptl offered) s fun t => t = s) ∧
    (MayAsk s port hpa dec line d e false → Settles (rd true) s fun x => Offered s x port dec (.hostRd mv) line d e) ∧
    (MayAsk s port hpa dec line d e true → loose → Settles (wr true) s fun x => Offered s x port dec (.hostWr mv) line d e) ∧
    (MayAsk s port hpa dec line d e true → Settles (ptl true) s fun x => Offered s x port dec (.hostPtl mv) line d e) ∧
    (asks false → undecoded → Settles (rd true) s fun x => HostRefused s x port 0x0401 at_) ∧
    (asks true → undecoded → Settles (wr true) s (fun x => HostRefused s x port 0x0401 at_) ∧
      Settles (ptl true) s fun x => HostRefused s x port 0x0401 at_) ∧
    (asks false → Settles (rd false) s fun x => HostRefused s x port 0x0403 at_) ∧
    (asks true → Settles (wr false) s (fun x => HostRefused s x port 0x0403 at_) ∧
      Settles (ptl false) s fun x => HostRefused s x port 0x0403 at_) ∧
    (HostOpen s port → Does (.memspecrd port hpa true) s (fun t => t = s) ∧ Does (.memspecrd port hpa false) s fun t =>
      ∃ z ∈ t.flt.ring, z.type = 0x0403 ∧ z.unit = port.val ∧ z.loc = hpa.toNat ∧ z.gtcN = s.gtc) ∧
    (∀ b, HostOpen s port → s.translate port at_ = some (dec, line) → s.biFor port line = some b → Settles (wr true) s fun x =>
      ∃ r : Req, x = (s.hostWriteback port line data poison).toHost r false 0 false 0 ∧ r.tag = tag.toNat ∧ r.agent = .host port) ∧
    (q = [] → Settles (.admissionGrant g) s fun x => x = s) ∧
    (s.serving = false → Settles (.admissionGrant g) s fun x => x.rgl.admq = s.rgl.admq ∧ x.coh = s.coh) ∧
    (∀ w, s.serving = true → q = [w] → w.accepted = true → s.heldBack w.req = false → s.mayAdmit g w = true → Settles (.admissionGrant g) s fun x =>
      ∃ y : State, x = y.grant g w 0 ∧ y.rgl.admq.get g = [] ∧ y.rgl.own = s.rgl.own ∧ y.rgl.pool = s.rgl.pool) ∧
    (∀ w, s.serving = true → q = [w] → w.accepted = false → s.heldBack w.req = false → s.mayAdmit g w = true → s.flag R.RGL_CTL_EN.com = false →
      Settles (.admissionGrant g) s fun x => ∃ y : State, x = y.grant g w 3 ∧ y.rgl.admq.get g = [] ∧ y.rgl.own = s.rgl.own) ∧
    (s.nextBacking = none → Settles .backingGrant s fun x => x = s) ∧
    (∀ n i t, s.nextBacking = some n → s.tier.waitq.get n = [i] → s.tier.overq.get n = [] → s.tx i = some t →
      s.pressure ≠ 3 → s.waitingDraw t = 0 → s.migHolds t.line = false → (s.page (t.req.entry.mapKey t.req.addr)).state = 1 →
      Settles .backingGrant s fun x => ∃ y : State, x = y.serveBacked { t with busy := true } ∧
        y.tier.waitq.get n = [] ∧ y.tier.nextSlice = (n + 1) % 16 ∧ y.coh = (s.updTx i fun t => { t with busy := true }).coh) ∧
    (∀ n i t, s.nextBacking = some n → s.tier.waitq.get n = [i] → s.tier.overq.get n = [] → s.tx i = some t → s.pressure ≠ 3 →
      s.migHolds t.line = false → 0 < s.waitingDraw t → s.mayDraw (s.waitingDraw t) = false →
      Settles .backingGrant s fun x => x = s.enterPressure 3) ∧
    (s.pressure = 3 → s.nextBacking.all (fun n => ((s.tier.waitq.get n).head?.bind s.tx).isSome) = true →
      Settles .backingGrant s fun x => x = s)

/-- A window's boundary, pools, commits of the regulator, the egress shaper and its samples. A boundary puts a waiting setting
in force, closes the class counters and gives every master its effective minimum. A rebalance moves the pools of regions
where no weight waits to those where one does, and keeps their sum. A commit that passes its checks, after the claims it
makes (the model's choice, assumption 102), waits for the boundary with status 0; one that fails leaves the setting and
tells its status; before READY it waits with BUSY set. A copy gives the path the settings last committed. A slot sends its
picked message once, in its host's direction, or nothing. A sample shows the depth and longest wait of each class, and
restarts the waits. (R217, R219, R220, R224, R225, R235, R236, R237, R238, R456, Table 10-10) -/
def Obligations.RegulationAndShaping : Prop :=
  ∀ (s : State) (p : Path) (x : Fin 32),
    let busy := s.flag (R.RGL_STAT_BUSY.on p) = true
    let staged := fun off => s.reg (pathOff p off)
    let check := (s.rglClaims s.domains staged).2.rglCheck staged
    let ready := s.flag R.CHIP_BOOTSTAT_READY = true
    let total := fun (s : State) => s.rgl.pool.get 0 + s.rgl.pool.get 1 + s.rgl.pool.get 2 + s.rgl.pool.get 3
    let q := s.rgl.egress.get x
    (s.rgl.owed = Tab.empty → Settles .windowStart s fun y => y.rgl.pending = none ∧ y.rgl.fresh = false ∧
      y.rgl.used = Tab.empty ∧ y.rgl.lastAdm = s.rgl.admitted ∧ y.rgl.admitted = Tab.empty ∧
      (∀ c, c < 64 → y.rd (R.RGL_CLSCNT_COUNT c) = min (s.rgl.used.get c) (2 ^ 25 - 1) ∧
        y.flag (R.RGL_CLSCNT_CAPHIT c) = s.rgl.capHit.get c) ∧
      ∀ m, m < 272 → y.rgl.effmin.get m = y.effminOf m y.sumMin (y.rd R.RGL_FLOOR_FLOOR - pacedTotal y.rdCom)) ∧
    (∀ off v, s.rgl.owed = Tab.empty → s.rgl.pending = some ⟨[(off, v)]⟩ → off < 2 ^ 28 → Settles .windowStart s fun y =>
      y.reg (3 * 2 ^ 28 + off) = v) ∧
    ((∀ r, r < 4 → s.waitingWeight r = 0) → Does .poolRebalance s fun t => t = s) ∧
    (∀ r, r < 4 → s.waitingWeight r ≠ 0 → Does .poolRebalance s fun t => total t = total s ∧
      (∀ i, i < 4 → s.waitingWeight i = 0 → t.rgl.pool.get i = 0) ∧ s.rgl.pool.get r ≤ t.rgl.pool.get r) ∧
    (Reachable s p → busy → Does (.regulatorCommit p) s (fun t => t = s) ∧ Does (.regulatorCopyToStaging p) s fun t => t = s) ∧
    (s.boot.hold = false → s.pathShut p = false → s.pow.target = none → s.rd R.PS_STAT_STATE = 0 → ¬ busy → ¬ ready →
      Does (.regulatorCommit p) s fun t => t.flag (R.RGL_STAT_BUSY.on p) = true ∧
      t.rgl.pending = s.rgl.pending ∧ ∃ q, t.rgl.queued = s.rgl.queued ++ [(p, q)] ∧ ∀ off ∈ stagedRgl, (off, staged off) ∈ q.cells) ∧
    (Reachable s p → ¬ busy → ready → Does (.regulatorCommit p) s fun t => t.rd (R.RGL_STAT_STATUS.on p) = check ∧
      (check = 0 → (∀ off ∈ stagedRgl, t.rglLatest off = staged off) ∧ t.rgl.effmin = s.rgl.effmin ∧
        ∀ off, t.reg (3 * 2 ^ 28 + off) = s.reg (3 * 2 ^ 28 + off)) ∧
      (check ≠ 0 → t.rgl = s.rgl ∧ t.claim = s.claim)) ∧
    (Reachable s p → ¬ busy → Does (.regulatorCopyToStaging p) s fun t =>
      (∀ off ∈ stagedRgl, t.reg (pathOff p off) = s.rglLatest off) ∧ t.rd (R.RGL_STAT_STATUS.on p) = 0 ∧ t.rgl = s.rgl) ∧
    (s.egressPick x = none → Does (.egressSend x) s fun t => t = s) ∧
    (∀ e h, s.egressPick x = some e → e.toHost = true → e.req.agent = .host h → (s.head h).flit = 0 → Does (.egressSend x) s fun t =>
      t = s) ∧
    (∀ e h, s.egressPick x = some e → e.toHost = true → e.req.agent = .host h → (s.head h).flit ≠ 0 → e.req.tr.on = false →
      e.credit = 0 → Does (.egressSend x) s fun t => t.rgl.egress.get x = q.erase e ∧
        t.out = (if e.isData then .hostData h e.req.tag e.data e.poison e.hostState else .hostCmp h e.req.tag) :: s.out ∧ t.coh = s.coh) ∧
    (∀ e, s.egressPick x = some e → e.toHost = false → e.req.tr.on = false → s.peerLost e.msg.dst = false →
      Does (.egressSend x) s fun t => t.rgl.egress.get x = q.erase e ∧ t.out = s.out ∧
        t.link.outq.get e.msg.dst = s.link.outq.get e.msg.dst ++ [e.msg]) ∧
    Does (.sample x) s (fun t => ∀ c, c < 64 →
      t.rd (R.SH_SAMP_DEPTH x c) = min (q.filter fun e => e.cls == c).length 0xFFF ∧
      t.rd (R.SH_SAMP_MAXDLY x c) = min (s.rgl.maxWait.get (bktKey x c) / 10) 0xFFFF ∧ t.rgl.maxWait.get (bktKey x c) = 0 ∧
      t.rgl.egress = s.rgl.egress)

/-- Requests of peers, snoops and their answers, and the responses counted at the home. A message to a lost device, or of a lost
peer, does nothing. Each request is refused with NO_DOMAIN or NOT_HOME and a record, or offered for admission as its
operation. A snoop of a line not cached is answered RspI; of a modified line with no host copies, SnpInv drops it and
answers RspIData, SnpS keeps it Shared and answers RspSData, SnpFwdS forwards it Shared as well, and SnpFwdCur forwards it
and keeps it. A snoop ordered behind a grant in flight is held. A response counts once for the transaction that awaits its
sender, its data first. (R49, R74, R83, R84, R85, R86, R88, R97, R387, Table 04-8) -/
def Obligations.RequestsSnoopsAndResponses : Prop :=
  ∀ (s : State) (src : Fin 16) (txn : BitVec 12) (addr : BitVec 44) (u : Upset) (be : BitVec 64) (data : Line) (poison ord : Bool)
    (rq : Fin 16) (rt : BitVec 12),
    let a := addr.toNat % 2 ^ 40 * 64
    let stays := fun (c : Instr) => Does c s fun t => t = s
    let notHeld := PeerOpen s src ∧ NoWork s a ∧ s.peerWay a = none
    let rspI := fun (c : Instr) => Settles c s fun x => Replies s x src fun m => m.opc = 0x40 ∧ m.txn = txn.toNat ∧ m.wbp = false
    (s.lost = true ∨ s.peerLost src = true → stays (.rds src txn addr u) ∧ stays (.rdown src txn addr u) ∧
      stays (.rdcur src txn addr u) ∧ stays (.wrcur src txn addr data u) ∧ stays (.wrptl src txn addr be data u) ∧
      stays (.prd src txn addr) ∧ stays (.pwr src txn addr be data) ∧ stays (.snpinv src txn addr ord) ∧
      stays (.snps src txn addr ord) ∧ stays (.snpfwds src txn addr ord rq rt) ∧ stays (.snpfwdcur src txn addr ord rq rt) ∧
      stays (.rspi src txn poison) ∧ stays (.rspidata src txn addr poison data)) ∧
    PeerAsks (.rds src txn addr u) s src txn addr .rdS ∧ PeerAsks (.rdown src txn addr u) s src txn addr .rdOwn ∧
    PeerAsks (.rdcur src txn addr u) s src txn addr .rdCur ∧ PeerAsks (.wrcur src txn addr data u) s src txn addr .wrCur ∧
    PeerAsks (.wrptl src txn addr be data u) s src txn addr .wrPtl ∧ PeerAsks (.prd src txn addr) s src txn addr .pRd ∧
    PeerAsks (.pwr src txn addr be data) s src txn addr .pWr ∧
    (notHeld → rspI (.snpinv src txn addr ord) ∧ rspI (.snps src txn addr ord) ∧ rspI (.snpfwds src txn addr ord rq rt) ∧
      rspI (.snpfwdcur src txn addr ord rq rt)) ∧
    (∀ d e w, PeerOpen s src → NoWork s a → s.peerWay a = some (d, e, w) → s.ownHosts (e.slice a) a false = [] →
      (s.kLine (e.slice a) (kSet a) w).st = .peerM →
      let l := s.kLine (e.slice a) (kSet a) w
      let kept := fun (y : State) => y.link = s.link ∧ y.kLine (e.slice a) (kSet a) w = { l with st := .peerS }
      let full := fun (opc : Nat) (m : Msg) => m.opc = opc ∧ m.txn = txn.toNat ∧ m.data = l.data ∧ m.poison = l.poison
      let fwd := fun (grant : Nat) (m : Msg) => m.opc = 0x61 ∧ m.dst = rq.val ∧ m.txn = rt.toNat ∧ m.grant = grant ∧ m.data = l.data ∧
        m.poison = l.poison
      Settles (.snpinv src txn addr ord) s (fun x => ∃ y : State, y.link = s.link ∧
        (y.kLine (e.slice a) (kSet a) w).st = .invalid ∧ Replies y x src (full 0x62)) ∧
      Settles (.snps src txn addr ord) s (fun x => ∃ y : State, kept y ∧ Replies y x src (full 0x63)) ∧
      Settles (.snpfwds src txn addr ord rq rt) s (fun x => ∃ (y : State) (f : Msg), kept y ∧ fwd 2 f ∧
        Replies (y.toPeer f) x src (full 0x64)) ∧
      Settles (.snpfwdcur src txn addr ord rq rt) s fun x => ∃ (y : State) (f : Msg), y.link = s.link ∧ y.kind.lines = s.kind.lines ∧
        fwd 0 f ∧ Replies (y.toPeer f) x src fun m => m.opc = 0x43 ∧ m.txn = txn.toNat) ∧
    (∀ t, t ∈ s.coh.reqs → PeerOpen s src → t.line / 64 = a / 64 → t.wait = .isd → Settles (.snpinv src txn addr true) s fun x =>
      (∀ v ∈ x.coh.reqs, v.line / 64 = a / 64 → v.wait = .isd → ∃ m, v.held = some m ∧ m.opc = 0x20 ∧ m.txn = txn.toNat) ∧
        x.kind = s.kind ∧ x.link = s.link) ∧
    Counts (.rspi src txn poison) s src txn false ∧ Counts (.rsps src txn) s src txn false ∧
    Counts (.rspfwds src txn) s src txn true ∧ Counts (.rspfwdcur src txn) s src txn true ∧
    CountsData (.rspidata src txn addr poison data) s src txn poison data false ∧
    CountsData (.rspsdata src txn addr poison data) s src txn poison data false ∧
    CountsData (.rspfwdsdata src txn addr poison data) s src txn poison data true

/-- Replies at the requester, writebacks and mirrors at the home and partner, paced replies, and hosts' answers. Cmp ends the
transaction it names, completing a host's write; Err refuses the waiting request with a record, and a write that had its
line Shared gives it up; line data serves its host, or is installed when granted E. A writeback is taken up as the home's
data and answered Cmp; a notice lowers its sender's line. A mirror write is taken into the partner's own page map, a mirror
read answered with the line, and either refused with NOT_HOME elsewhere, and without the domain's key; mirror data serves
the waiting read. Paced data or completion goes to its host. A host's answer to a back-invalidation counts for the recall or
transaction that asked; a conflict is acknowledged; a stall is flagged and recorded. (R57, R74, R77, R83, R85, R86, R90,
R234, R302, Table 04-7, Table 04-9) -/
def Obligations.RepliesWritebacksAndBackInvalidation : Prop :=
  ∀ (s : State) (src : Fin 16) (txn : BitVec 12) (addr : BitVec 44) (err : BitVec 8) (data : Line) (poison : Bool) (held : BitVec 4)
    (port : Fin 32) (dpa : Dpa),
    let a := addr.toNat % 2 ^ 40 * 64
    let line := dpa.toNat / 64 * 64
    let reach := PeerOpen s src
    let cmp := fun (m : Msg) => m.opc = 0x44 ∧ m.txn = txn.toNat
    let partner := fun (e : Entry) => e.repl = true ∧ e.replDev = s.devNum ∧ e.member 0 = src.val
    let keyless := fun (x : State) => x.coh = s.coh ∧ ∃ m, x.link.outq.get src = s.link.outq.get src ++ [m] ∧ m.opc = 0x45 ∧
      m.err = 1 ∧ m.txn = txn.toNat
    let paced := fun (t : ReqTrack) => t ∈ s.link.preqs ∧ t.txn = txn.toNat ∧ t.home = src.val ∧
      ∀ u ∈ s.link.preqs, u.txn = txn.toNat → u = t
    let freed := fun (y : State) (t : ReqTrack) => y.link.preqs = s.link.preqs.filter (fun u => u.txn != t.txn) ∧ y.coh = s.coh
    let answered := fun (y : State) b => y.coh.biOut = s.coh.biOut.erase b ∧ y.kind = s.kind
    let recorded := fun (y : State) (t : ReqTrack) => ∃ z ∈ y.flt.ring, z.type = 0x0402 ∧ z.unit = src.val ∧ z.loc = t.req.addr ∧
      z.gtcN = s.gtc
    let alone := ∀ t ∈ s.coh.reqs, t.txn ≠ txn.toNat
    let noMirror := ∀ x ∈ s.coh.mirOut, x.1 ≠ txn.toNat
    (∀ t, reach → Tracks s src txn t → t.wait = .iwa → Settles (.cmp src txn) s fun x => ∃ y : State,
      x = y.toHost t.req false 0 false 0 ∧ Freed s y t) ∧
    (∀ t, reach → Tracks s src txn t → t.wait = .mia ∨ t.wait = .evt → Settles (.cmp src txn) s fun x => Freed s x t) ∧
    (reach → alone → noMirror → Settles (.cmp src txn) s fun x => x.coh = s.coh) ∧
    (∀ t, reach → Tracks s src txn t → t.wait = .isd ∨ t.wait = .imd ∨ t.wait = .iwa → Settles (.err src txn err) s fun x =>
      ∃ y : State, x = (y.refuse t.req err.toNat 3).answerHeld t ∧ Freed s y t ∧ recorded y t) ∧
    (∀ t w, reach → Tracks s src txn t → t.wait = .smd → s.kWay t.req.slice t.req.addr = some w →
      s.ownHosts t.req.slice t.req.addr false = [] → Settles (.err src txn err) s fun x => ∃ y : State,
        x = (y.refuse t.req err.toNat 3).answerHeld t ∧ Freed s y t ∧ recorded y t ∧
          (y.kLine t.req.slice (kSet t.req.addr) w).st = .invalid) ∧
    Arrives (fun g => .data src txn (BitVec.ofNat 3 g) poison data) s src txn poison data ∧
    Arrives (fun g => .datafwd src txn (BitVec.ofNat 3 g) poison data) s src txn poison data ∧
    (reach → s.servedDomain a = none → s.coh.txs = [] → Settles (.wbdata src txn addr held poison data .none) s fun x =>
      Replies s x src cmp) ∧
    (reach → Settles (.wbdata src txn addr held poison data .none) s fun x => ∃ (y : State) (r m : Msg),
      x = (y.toPeer r).joinWb m ∧ r.dst = src.val ∧ cmp r ∧ m.src = src.val ∧ y.kind = (s.absorb a data poison).kind) ∧
    (reach → s.servedDomain a = none → Settles (.evictnotice src txn addr held .none) s fun x => Replies s x src cmp) ∧
    (∀ d e, reach → s.servedDomain a = some (d, e) → held ≠ 0 →
      dirLs (s.dirBits (e.slice a) a) (lineIn a) = dirPE → dirPtr (s.dirBits (e.slice a) a) (lineIn a) = src.val →
      Settles (.evictnotice src txn addr held .none) s fun x => Replies (s.dirLine (e.slice a) a dirU 0) x src cmp) ∧
    (reach → (s.servedDomain a).all (fun c => decide (¬ partner c.2)) = true → Settles (.mirwr src txn addr poison data) s (fun x =>
      RefusedPeer s x src txn.toNat a 2) ∧ Settles (.mirrd src txn addr) s fun x => RefusedPeer s x src txn.toNat a 2) ∧
    (∀ d e, reach → s.servedDomain a = some (d, e) → partner e → s.keyAbsent d e = true →
      Settles (.mirwr src txn addr poison data) s (fun x => keyless x) ∧ Settles (.mirrd src txn addr) s keyless) ∧
    (∀ d e, reach → s.servedDomain a = some (d, e) → partner e → s.keyAbsent d e = false →
      Settles (.mirwr src txn addr poison data) s fun x => ∃ (y : State) (t : HomeTx), x = y.doMirror t ∧ t.purpose = .mirIn ∧
        t.line = a ∧ t.req.addr = a ∧ t.req.dom = d ∧ t.req.entry = e ∧ t.req.data = data ∧ t.req.poison = poison ∧
        t.req.agent = .peer src ∧ t.req.tag = txn.toNat ∧ y.coh.txs = s.coh.txs ++ [t] ∧ y.kind = s.kind ∧ y.dram = s.dram ∧
        y.tier.pmap = s.tier.pmap) ∧
    (∀ d e, reach → s.servedDomain a = some (d, e) → partner e → s.keyAbsent d e = false → Settles (.mirrd src txn addr) s fun x => Replies s x src fun m =>
      m.opc = 0x65 ∧ m.txn = txn.toNat ∧ m.data = (s.lineNow d e a).1 ∧ m.poison = (s.lineNow d e a).2) ∧
    (∀ i t, reach → (txn.toNat, i, src.val) ∈ s.coh.mirOut → (∀ x ∈ s.coh.mirOut, x.1 = txn.toNat → x = (txn.toNat, i, src.val)) →
      s.tx i = some t → t.phase = .mirrorRead → Settles (.mirdata src txn poison data) s fun x => ∃ y : State,
        x = y.endMirrorRead t data poison ∧ y.coh = { s.coh with mirOut := s.coh.mirOut.erase (txn.toNat, i, src.val) }) ∧
    (reach → noMirror → Settles (.mirdata src txn poison data) s fun x => x.coh = s.coh) ∧
    (∀ t, reach → paced t → t.req.op.isWrite = false → Settles (.pdata src txn poison data) s fun x => ∃ y : State,
      x = y.toHost t.req true data poison 0 ∧ freed y t) ∧
    (∀ t, reach → paced t → t.req.op.isWrite = true → t.req.credit = 0 → Settles (.pcmp src txn) s fun x => ∃ y : State,
      x = y.toHost t.req false 0 false 0 ∧ freed y t) ∧
    (reach → (∀ t ∈ s.link.preqs, t.txn ≠ txn.toNat) → Settles (.pdata src txn poison data) s (fun x => x = s) ∧
      Settles (.pcmp src txn) s fun x => x = s) ∧
    (s.portOpen port = false → Does (.birspi port dpa .none) s (fun t => t = s) ∧ Does (.birsps port dpa) s (fun t => t = s) ∧
      Does (.biconflict port dpa) s fun t => t = s) ∧
    (HostOpen s port → s.biFor port dpa.toNat = none → Settles (.birspi port dpa .none) s (fun x => x = s) ∧
      Settles (.birsps port dpa) s (fun x => x = s) ∧ Does (.biconflict port dpa) s fun t => t = s) ∧
    (∀ b, HostOpen s port → s.biFor port dpa.toNat = some b → s.coh.recalls = [] → s.coh.txs = [] →
      Settles (.birspi port dpa .none) s (fun x => ∃ y : State, x = y.biDrain port ∧ answered y b) ∧
      Settles (.birsps port dpa) s fun x => ∃ y : State, x = y.biDrain port ∧ answered y b) ∧
    (∀ b rc, HostOpen s port → s.biFor port dpa.toNat = some b → s.coh.recalls = [rc] → rc.line / 64 = dpa.toNat / 64 →
      rc.ports = [port.val] →
      Settles (.birspi port dpa .none) s (fun x => ∃ y : State, x = (y.endRecall rc false).biDrain port ∧ answered y b) ∧
      Settles (.birsps port dpa) s fun x => ∃ y : State, x = (y.endRecall rc true).biDrain port ∧ answered y b) ∧
    (∀ b t, HostOpen s port → s.biFor port dpa.toNat = some b → b.2.2.1 = biInv → s.coh.recalls = [] → s.coh.txs = [t] →
      t.phase = .snoop → t.purpose = .serve → port.val ∈ t.ports → t.touches dpa.toNat = true → t.line / 256 = dpa.toNat / 256 →
      Settles (.birspi port dpa .none) s (fun x => ∃ (y : State) (v : HomeTx), x = (y.advance t.id).biDrain port ∧
        y.coh.txs = [v] ∧ v.ports = t.ports.erase port ∧ v.hostShared = t.hostShared ∧ v.id = t.id) ∧
      Settles (.birsps port dpa) s fun x => ∃ (y : State) (v : HomeTx), x = (y.advance t.id).biDrain port ∧
        y.coh.txs = [v] ∧ v.ports = t.ports.erase port ∧ v.hostShared = true ∧ v.id = t.id) ∧
    (∀ b, HostOpen s port → s.biFor port dpa.toNat = some b → Does (.biconflict port dpa) s fun t =>
      t = { s with out := .biAck port line :: s.out }) ∧
    (∀ b, s.flag R.CF_STAT_DEVLOST = false → s.biFor port dpa.toNat = some b → Does (.bistallExpiry port dpa) s fun t =>
      t.flag (R.PG_CXLSTAT_BISTL (s.place port).group) = true ∧ t.coh = s.coh ∧
        ∃ z ∈ t.flt.ring, z.type = 0x0104 ∧ z.unit = port.val ∧ z.loc = line ∧ z.gtcN = s.gtc) ∧
    (s.biFor port dpa.toNat = none → s.coh.biWait = [] → Does (.bistallExpiry port dpa) s fun t => t = s)

/-- A step runs the command at the front of the queue. With a command at the front of its queue, a step of the block is that
command's exec on the state with the rest of the queue, whatever the command answers. With none waiting, the block answers
the state one nanosecond later, its queue empty still: that is the model's choice (assumption 2).
(95_what_each_step_holds.md, 98_reader.md) -/
def Obligations.StepRunsFrontCommand : Prop :=
  ∀ (s : State) (c : Instr) (rest : List Instr),
    (s.pending = c :: rest → step s = exec c { s with pending := rest }) ∧
    (s.pending = [] → step s = .next s.tick)

/-- An unassigned offset of the control window reads 0 and takes no write. A read of an offset that no table assigns answers 0
and changes nothing. A write of 1, 2 or 4 bytes to it, through a path that can reach the registers, changes no register, and
the ring holds a BAD_VALUE record of now with the offset in LOC. No table assigns an offset of the home and directory space
of a region. What a register reads does not depend on a directory entry or a page map entry. (R472) -/
def Obligations.UnassignedOffsetsReadZero : Prop :=
  ∀ (s : State) (p : Path) (off : BitVec 28) (size : AccSize) (v : BitVec 64) (dir : Tab DirEntry) (map : Tab PageEntry),
    let o := off.toNat
    (regRow o = none → o / 2 ^ 20 ≠ 1 → s.regRead p o = (0, s) ∧
      (Reachable s p → s.flag R.CF_STAT_DEVLOST = false → size ≠ .b8 →
        Begins (.registerWrite p (.window off) size v) s fun x => RecordedNow s x 0x0409 o)) ∧
    (∀ (r : Fin 4) (x : Fin 0x40000), regRow (0x1000000 + 0x400000 * r.val + 0x200000 + x.val) = none) ∧
    (State.regRead { s with coh := { s.coh with dir := dir }, tier := { s.tier with pmap := map } } p o).1 = (s.regRead p o).1

/-- A Firewood page lies in 256-byte chunks over its channel set. For a channel set of 4, 8 or 16 channels that ends by channel
15, the line at byte q of a Firewood page lies in channel CHBASE + (k mod N) at the channel-local address FSTRIPE × 256 + ⌊k
/ N⌋ × 256 + (q mod 256), with k = ⌊q / 256⌋. Over the page, exactly the lines of 4,096 / N bytes from FSTRIPE × 256 on are
met in each channel of the set, and in no other channel. (R103) -/
def Obligations.FirewoodPagesLieInChunks : Prop :=
  ∀ (e : Entry) (p : PageEntry) (dpa : Nat), e.chSize ≤ 2 → e.chBase + e.chans ≤ 16 →
    let q := dpa % 4096
    let k := q / 256
    let x := firewoodLine e p dpa
    x.1 = e.chBase + k % e.chans ∧
    x.2 * 64 + q % 64 = p.fstripe * 256 + k / e.chans * 256 + q % 256 ∧
    ∀ c l, (∃ a, a / 4096 = dpa / 4096 ∧ firewoodLine e p a = (c, l)) ↔
      e.chBase ≤ c ∧ c < e.chBase + e.chans ∧ p.fstripe * 4 ≤ l ∧ l < p.fstripe * 4 + 64 / e.chans

/-- Every well-formed command is answered with a next state, from every state, and these by their unit's operation. Whatever
state the block is in, a well-formed command answers a next state, and so does a step with such a command at the front of
the queue or with an empty queue. No command faults in any state. The commands of the Kindling cache and the engines, the
messages of coherence, replication, paced traffic and back-invalidation, the operations on keys, the commands of the DRAM
channels, and those of the lanes and the Pennant links each complete in every state: the next state is the one their unit's
operation gives, with what goes on at once after it. (R494, 95_what_each_step_holds.md) -/
def Obligations.WellFormedCommandsAreAnswered : Prop :=
  (∀ (c : Instr) (s : State), c.wf = true → ∃ t, exec c s = .next t) ∧
  (∀ (c : Instr) (s : State) (f : Fault), exec c s ≠ .fault f) ∧
  (∀ s : State, (∀ c ∈ s.pending.head?, c.wf = true) → ∃ t, step s = .next t) ∧
  (∀ (fill : Nat) (s : State), exec (.blockFill fill) s = .next (s.installFill fill).finish) ∧
  (∀ (p : Path) (slice : Fin 16) (scope : Bool) (dom : BitVec 14) (s : State),
    exec (.clean p slice scope dom) s = .next (s.viaPath p (R.KS_OPCTL slice) fun s => s.startClean slice 0 scope dom.toNat) ∧
    exec (.cleanAndInvalidate p slice scope dom) s =
      .next (s.viaPath p (R.KS_OPCTL slice) fun s => s.startClean slice 1 scope dom.toNat)) ∧
  (∀ (slice : Fin 16) (s : State), exec (.kindlingSetVisit slice) s = .next (s.visitSet slice).settleAll) ∧
  (∀ (p : Path) (slice : Fin 16) (ways : BitVec 16) (s : State),
    exec (.wayDisable p slice ways) s = .next (s.viaPath p (R.KS_WAYDIS slice) fun s => s.writeWays slice ways.toNat).settleAll) ∧
  (∀ (src : Fin 16) (txn : BitVec 12) (addr : BitVec 44) (upset : Upset) (s : State),
    exec (.rds src txn addr upset) s = .next (s.take (mkMsg 0x01 src txn addr) fun s m => s.onRequest .rdS m upset) ∧
    exec (.rdown src txn addr upset) s = .next (s.take (mkMsg 0x02 src txn addr) fun s m => s.onRequest .rdOwn m upset) ∧
    exec (.rdcur src txn addr upset) s = .next (s.take (mkMsg 0x03 src txn addr) fun s m => s.onRequest .rdCur m upset)) ∧
  (∀ (src : Fin 16) (txn : BitVec 12) (addr : BitVec 44) (data : Line) (upset : Upset) (s : State),
    exec (.wrcur src txn addr data upset) s =
      .next (s.take { mkMsg 0x04 src txn addr with data := data, be := BitVec.allOnes 64 } fun s m => s.onRequest .wrCur m
        upset)) ∧
  (∀ (src : Fin 16) (txn : BitVec 12) (addr : BitVec 44) (be : BitVec 64) (data : Line) (upset : Upset) (s : State),
    exec (.wrptl src txn addr be data upset) s =
      .next (s.take { mkMsg 0x05 src txn addr with data := data, be := be } fun s m => s.onRequest .wrPtl m upset)) ∧
  (∀ (src : Fin 16) (txn : BitVec 12) (addr : BitVec 44) (ord : Bool) (s : State),
    exec (.snpinv src txn addr ord) s = .next (s.take { mkMsg 0x20 src txn addr with ord := ord } fun s m => s.onSnoop m) ∧
    exec (.snps src txn addr ord) s = .next (s.take { mkMsg 0x21 src txn addr with ord := ord } fun s m => s.onSnoop m)) ∧
  (∀ (src : Fin 16) (txn : BitVec 12) (addr : BitVec 44) (ord : Bool) (reqDev : Fin 16) (reqTxn : BitVec 12) (s : State),
    exec (.snpfwds src txn addr ord reqDev reqTxn) s =
      .next (s.take { mkMsg 0x22 src txn addr with ord := ord, reqDev := reqDev, reqTxn := reqTxn.toNat } fun s m => s.onSnoop
        m) ∧
    exec (.snpfwdcur src txn addr ord reqDev reqTxn) s =
      .next (s.take { mkMsg 0x23 src txn addr with ord := ord, reqDev := reqDev, reqTxn := reqTxn.toNat } fun s m => s.onSnoop
        m)) ∧
  (∀ (src : Fin 16) (txn : BitVec 12) (wbp : Bool) (s : State),
    exec (.rspi src txn wbp) s = .next (s.take { mkMsg 0x40 src txn 0 with wbp := wbp } fun s m => s.onResponse m false)) ∧
  (∀ (src : Fin 16) (txn : BitVec 12) (s : State),
    exec (.rsps src txn) s = .next (s.take (mkMsg 0x41 src txn 0) fun s m => s.onResponse m false) ∧
    exec (.rspfwds src txn) s = .next (s.take (mkMsg 0x42 src txn 0) fun s m => s.onResponse m true) ∧
    exec (.rspfwdcur src txn) s = .next (s.take (mkMsg 0x43 src txn 0) fun s m => s.onResponse m true) ∧
    exec (.cmp src txn) s = .next (s.take (mkMsg 0x44 src txn 0) fun s m => s.onCmp m) ∧
    exec (.pcmp src txn) s = .next (s.take (mkMsg 0xE1 src txn 0) fun s m => s.onPaced m)) ∧
  (∀ (src : Fin 16) (txn : BitVec 12) (addr : BitVec 44) (poison : Bool) (data : Line) (s : State),
    exec (.rspidata src txn addr poison data) s =
      .next (s.take { mkMsg 0x62 src txn addr with poison := poison, data := data } fun s m => s.onResponseData m false) ∧
    exec (.rspsdata src txn addr poison data) s =
      .next (s.take { mkMsg 0x63 src txn addr with poison := poison, data := data } fun s m => s.onResponseData m false) ∧
    exec (.rspfwdsdata src txn addr poison data) s =
      .next (s.take { mkMsg 0x64 src txn addr with poison := poison, data := data } fun s m => s.onResponseData m true) ∧
    exec (.mirwr src txn addr poison data) s =
      .next (s.take { mkMsg 0x82 src txn addr with poison := poison, data := data } fun s m => s.onMirWr m)) ∧
  (∀ (src : Fin 16) (txn : BitVec 12) (err : BitVec 8) (s : State),
    exec (.err src txn err) s = .next (s.take { mkMsg 0x45 src txn 0 with err := err.toNat } fun s m => s.onErr m)) ∧
  (∀ (src : Fin 16) (txn : BitVec 12) (grant : BitVec 3) (poison : Bool) (data : Line) (s : State),
    exec (.data src txn grant poison data) s =
      .next (s.take { mkMsg 0x60 src txn 0 with grant := grant.toNat, poison := poison, data := data } fun s m => s.onData m) ∧
    exec (.datafwd src txn grant poison data) s =
      .next (s.take { mkMsg 0x61 src txn 0 with grant := grant.toNat, poison := poison, data := data } fun s m => s.onData m)) ∧
  (∀ (src : Fin 16) (txn : BitVec 12) (addr : BitVec 44) (held : BitVec 4) (poison : Bool) (data : Line) (upset : Upset) (s :
    State),
    exec (.wbdata src txn addr held poison data upset) s =
      .next (s.take { mkMsg 0x80 src txn addr with held := held.toNat, poison := poison, data := data } fun s m => s.onWbData
        m upset)) ∧
  (∀ (src : Fin 16) (txn : BitVec 12) (addr : BitVec 44) (held : BitVec 4) (upset : Upset) (s : State),
    exec (.evictnotice src txn addr held upset) s =
      .next (s.take { mkMsg 0x81 src txn addr with held := held.toNat } fun s m => s.onEvictNotice m upset)) ∧
  (∀ (src : Fin 16) (txn : BitVec 12) (addr : BitVec 44) (s : State),
    exec (.mirrd src txn addr) s = .next (s.take (mkMsg 0xA2 src txn addr) fun s m => s.onMirRd m) ∧
    exec (.prd src txn addr) s = .next (s.take (mkMsg 0xC0 src txn addr) fun s m => s.onRequest .pRd m .none)) ∧
  (∀ (src : Fin 16) (txn : BitVec 12) (poison : Bool) (data : Line) (s : State),
    exec (.mirdata src txn poison data) s =
      .next (s.take { mkMsg 0x65 src txn 0 with poison := poison, data := data } fun s m => s.onMirData m) ∧
    exec (.pdata src txn poison data) s =
      .next (s.take { mkMsg 0xE0 src txn 0 with poison := poison, data := data } fun s m => s.onPaced m)) ∧
  (∀ (src : Fin 16) (txn : BitVec 12) (addr : BitVec 44) (be : BitVec 64) (data : Line) (s : State),
    exec (.pwr src txn addr be data) s =
      .next (s.take { mkMsg 0xC1 src txn addr with be := be, data := data } fun s m => s.onRequest .pWr m .none)) ∧
  (∀ (port : Fin 32) (dpa : Dpa) (upset : Upset) (s : State),
    exec (.birspi port dpa upset) s =
      .next (if s.portOpen port then (((s.hostFlit port).meetUpset dpa.toNat upset).onBiRsp port dpa.toNat false).settleAll
        else s)) ∧
  (∀ (port : Fin 32) (dpa : Dpa) (s : State),
    exec (.birsps port dpa) s =
      .next (if s.portOpen port then ((s.hostFlit port).onBiRsp port dpa.toNat true).settleAll else s) ∧
    exec (.biconflict port dpa) s =
      .next (if s.portOpen port && (s.biFor port dpa.toNat).isSome then (s.hostFlit port).send (.biAck port (dpa.toNat / 64 *
        64)) else s) ∧
    exec (.bistallExpiry port dpa) s =
      .next (if (s.biFor port dpa.toNat).isSome || s.coh.biWait.any (fun b => b.1 == port.val && b.2.1 / 64 == dpa.toNat / 64) then
        (s.set1 (R.PG_CXLSTAT_BISTL (s.place port).group)).log
          { type := 0x0104, sev := 1, level := 1, ukind := 9, unit := port, loc := dpa.toNat / 64 * 64 }
      else s)) ∧
  (∀ (engine : Fin 16) (fault : Bool) (s : State),
    exec (.compressionDone engine fault) s = .next (s.compressDone engine fault).finish ∧
    exec (.decompressionDone engine fault) s = .next (s.decompressDone engine fault).finish) ∧
  (∀ (pipe : Fin 32) (slot : BitVec 14) (s : State), exec (.keyCacheLoad pipe slot) s = .next (s.loadKey pipe slot.toNat)) ∧
  (∀ (p : Path) (dom : BitVec 14) (s : State),
    exec (.keyInstall p dom) s =
      .next (s.viaPath p R.SEC_KEYOP fun s => s.keyOp p dom.toNat fun s => s.installKey (kekOf p) dom.toNat (s.stagedBlob p)) ∧
    exec (.keyDestroy p dom) s =
      .next (s.viaPath p R.SEC_KEYOP fun s => s.keyOp p dom.toNat fun s => s.destroyKey dom.toNat (some p) none).settleAll ∧
    exec (.keyActivateDk6 p dom) s = .next (s.viaPath p R.SEC_KEYOP fun s => s.keyOp p dom.toNat fun s => s.activateKek 0) ∧
    exec (.keyActivateDk7 p dom) s = .next (s.viaPath p R.SEC_KEYOP fun s => s.keyOp p dom.toNat fun s => s.activateKek 4)) ∧
  (∀ (dom : BitVec 14) (s : State), exec (.eraseWalkDone dom) s = .next (s.eraseWalkDone dom.toNat).finish) ∧
  (∀ (chan : Fin 16) (sub : Fin 2) (fault : PipeFault) (s : State),
    exec (.commandIssue chan sub fault) s = .next ((s.issue chan sub fault).chanDone chan)) ∧
  (∀ (chan : Fin 16) (sub : Fin 2) (rank : Fin 16) (s : State),
    exec (.refreshDue chan sub rank) s = .next (s.refreshDue chan sub rank)) ∧
  (∀ (chan : Fin 16) (s : State),
    exec (.refreshWindowBoundary chan) s = .next (s.refreshBoundary chan) ∧
    exec (.extentTarget chan) s = .next ((s.nextExtent chan).chanDone chan) ∧
    exec (.extentFlip chan) s = .next ((s.flipExtent chan).chanDone chan)) ∧
  (∀ (chan : Fin 16) (rate : RefreshReport) (s : State), exec (.mr4Poll chan rate) s = .next ((s.mr4 chan rate).finish)) ∧
  (∀ (chan : Fin 16) (reading : Option (BitVec 8)) (s : State),
    exec (.thermalPoll chan reading) s = .next ((s.thermal chan reading).finish)) ∧
  (∀ (chan : Fin 16) (sub : Fin 2) (s : State),
    exec (.commandRetire chan sub) s = .next ((s.retireCmd chan sub).chanDone chan) ∧
    exec (.alertDeassert chan sub) s = .next ((s.alertOver chan sub).chanDone chan) ∧
    exec (.replayRetire chan sub) s = .next ((s.replayOver chan sub).chanDone chan) ∧
    exec (.channelShareExpiry chan sub) s = .next ((s.shareEnd chan sub).chanDone chan)) ∧
  (∀ (chan : Fin 16) (sub : Fin 2) (crc : Bool) (s : State),
    exec (.alertN chan sub crc) s = .next ((s.alert chan sub crc).chanDone chan)) ∧
  (∀ (chan : Fin 16) (sub : Fin 2) (pass : Bool) (s : State),
    exec (.trainingRestoreDone chan sub pass) s = .next ((s.restoreOver chan sub pass).chanDone chan) ∧
    exec (.lowerRateTrainingDone chan sub pass) s = .next ((s.lowerOver chan sub pass).chanDone chan)) ∧
  (∀ (chan : Fin 16) (sub : Fin 2) (err : CodeWord) (fault : PipeFault) (s : State),
    exec (.dramReadData chan sub err fault) s =
      (let t := match s.popInflight chan sub fun e => !e.use.isMerge && !s.deadRead chan sub e with
         | some (e, s) => s.firstRead chan sub e err fault
         | none => s
       .next (t.chanDone chan)) ∧
    exec (.rereadDone chan sub err fault) s = .next ((s.secondRead chan sub err fault).chanDone chan) ∧
    exec (.narrowWriteMerge chan sub ⟨err, fault⟩) s = .next ((s.mergeRead chan sub err fault).chanDone chan)) ∧
  (∀ (chan : Fin 16) (err : CodeWord) (again : CodeWord) (s : State),
    exec (.patrolRead chan err again) s = .next ((s.patrol chan err again).chanDone chan)) ∧
  (∀ (p : Path) (chan : Fin 16) (k : Fin 32) (val : BitVec 32) (s : State),
    exec (.markWrite p chan k val) s = .next ((s.viaPath p (R.CH_MARK chan k) fun s => s.writeMark chan k val).chanDone chan)) ∧
  (∀ (p : Path) (chan : Fin 16) (entries : Fin 4) (s : State),
    exec (.injectionEnable p chan entries) s =
      .next (s.viaPath p (R.CH_INJCTL chan) fun s => s.writeInjEnable chan entries true)) ∧
  (∀ (p : Path) (chan : Fin 16) (s : State),
    exec (.rawWrite p chan) s = .next ((s.viaPath p (R.CH_INJCTL chan) fun s => s.startInject chan 0).chanDone chan) ∧
    exec (.rawRead p chan) s = .next ((s.viaPath p (R.CH_INJCTL chan) fun s => s.startInject chan 1).chanDone chan) ∧
    exec (.flip p chan) s = .next ((s.viaPath p (R.CH_INJCTL chan) fun s => s.startInject chan 2).chanDone chan) ∧
    exec (.softRepair p chan) s = .next ((s.viaPath p (R.CH_MAINT chan) fun s => s.maintSoft chan).chanDone chan) ∧
    exec (.retireChannel p chan) s = .next ((s.viaPath p (R.CH_MAINT chan) fun s => s.maintRetire chan).chanDone chan) ∧
    exec (.listHardRepair p chan) s = .next ((s.viaPath p (R.CH_MAINT chan) fun s => s.maintList chan).chanDone chan)) ∧
  (∀ (chan : Fin 16) (pass : Bool) (s : State),
    exec (.softRepairComplete chan pass) s = .next ((s.endSoft chan pass).chanDone chan)) ∧
  (∀ (chan : Fin 16) (spd : Spd) (pass : Bool) (s : State),
    exec (.channelTrainingDone chan spd pass) s = .next ((s.trained chan spd pass).chanDone chan) ∧
    exec (.channelRestoreDone chan spd pass) s = .next ((s.restored chan spd pass).chanDone chan)) ∧
  (∀ (p : Path) (group : Fin 16) (val : BitVec 32) (s : State),
    exec (.serdesTestMode p group val) s = .next (s.writing p (R.PG_SDCTL group) val fun v s => s.writeSdctl group v).finish ∧
    exec (.retrain p group val) s =
      .next (s.writing p (R.PG_LKCTL group) (setFld val 31 31 1) fun v s => s.writeLkctl group v).finish ∧
    exec (.linkFullReset p group val) s =
      .next (s.writing p (R.PG_LKCTL group) (setFld val 30 30 1) fun v s => s.writeLkctl group v).finish) ∧
  (∀ (group : Fin 16) (lane : Fin 9) (count : BitVec 32) (s : State),
    exec (.symbolInterval group lane count) s = .next (s.symbolInterval group lane count.toNat).finish) ∧
  (∀ (group : Fin 16) (lane : Fin 9) (s : State),
    exec (.laneFault group lane) s = .next (s.laneFault group lane).finish ∧
    exec (.laneClassified group lane) s = .next (s.laneClassified group lane).finish ∧
    exec (.prbsLock group lane) s = .next (if s.checks group lane then s.set1 (R.PG_LN_PRBSCTL_LOCK group lane) else s)) ∧
  (∀ (group : Fin 16) (lane : Fin 9) (ctle : Fin 41) (vga : Fin 32) (s : State),
    exec (.adaptReeval group lane ctle vga) s =
      (let st := s.laneSt group lane
       .next (if s.rd (R.PG_LN_RXEQ_ADAPT group lane) == 0 && (st == 3 || st == 4) then
         (s.wr (R.PG_LN_RXEQ_CTLE group lane) ctle).wr (R.PG_LN_RXEQ_VGA group lane) vga
       else s))) ∧
  (∀ (p : Path) (group : Fin 16) (lane : Fin 9) (val : BitVec 32) (s : State),
    exec (.prbsGen p group lane val) s =
      .next (s.writing p (R.PG_LN_PRBSCTL group lane) val fun v s => s.writePrbsctl group lane v false) ∧
    exec (.marginRun p group lane val) s =
      .next (s.writing p (R.PG_LN_MARGCTL group lane) val fun v s => s.writeMargctl group lane v) ∧
    exec (.detection p group lane val) s =
      .next (s.writing p (R.PG_LN_DETECT group lane) val fun v s => s.writeDetect group lane v)) ∧
  (∀ (p : Path) (group : Fin 16) (lane : Fin 9) (val : BitVec 32) (err : Bool) (s : State),
    exec (.prbsClear p group lane val err) s =
      .next (s.writing p (R.PG_LN_PRBSCTL group lane) (setFld val 31 31 1) fun v s => s.writePrbsctl group lane v err)) ∧
  (∀ (group : Fin 16) (lane : Fin 9) (bits errs : BitVec 48) (s : State),
    exec (.prbsLockLoss group lane bits errs) s =
      .next (if s.checks group lane && s.flag (R.PG_LN_PRBSCTL_LOCK group lane) then
        let s := s.prbsCount group lane bits.toNat errs.toNat
        let s := (s.satAdd (R.PG_LN_PRBSCTL_LOSSCNT group lane) 1).clr (R.PG_LN_PRBSCTL_LOCK group lane)
        if s.laneSt group lane == 4 then s.set1 (R.PG_SDSTAT_SPAREFLT group) else s
      else s)) ∧
  (∀ (p : Path) (group : Fin 16) (lane : Fin 9) (bits errs : BitVec 48) (s : State),
    exec (.prbsSnapshotRead p group lane bits errs) s =
      (let off := R.PG_LN_PRBSERR group lane
       .next (s.reading p off fun s =>
         let s := if s.checks group lane then s.prbsCount group lane bits.toNat errs.toNat else s
         let s := s.latchPrbs group lane
         (s.reg off, s)))) ∧
  (∀ (group : Fin 16) (lane : Fin 9) (errs : BitVec 32) (s : State),
    exec (.marginRunDone group lane errs) s =
      .next (if s.flag (R.PG_LN_MARGSTAT_BUSY group lane) && !(s.laneOf group lane).margHost then
        let s := (s.clr (R.PG_LN_MARGSTAT_BUSY group lane)).wr (R.PG_LN_MARGSTAT_RESULT group lane) 1
        s.wr (R.PG_LN_MARGSTAT_ERRS group lane) (min errs.toNat (2 ^ 24 - 1))
      else s)) ∧
  (∀ (group : Fin 16) (lane : Fin 9) (start : Bool) (s : State),
    exec (.laneMarginCommand group lane start) s =
      (let busy := s.flag (R.PG_LN_MARGSTAT_BUSY group lane)
       let held := (s.laneOf group lane).margHost
       .next (if s.pgMode group == 1 && decide (s.rd (R.PG_SDSTAT_RATECUR group) ≥ 3) && s.laneSt group lane == 3 then
         if start && !busy then
           ((s.set1 (R.PG_LN_MARGSTAT_BUSY group lane)).updLane group lane fun x => { x with margHost := true }).send
             (.margin group lane marginReport)
         else if !start && held then
           (s.clr (R.PG_LN_MARGSTAT_BUSY group lane)).updLane group lane fun x => { x with margHost := false }
         else s
       else s))) ∧
  (∀ (group : Fin 16) (lane : Fin 9) (tx : TxResult) (rx : RxResult) (s : State),
    exec (.detectionDone group lane tx rx) s =
      .next (if s.flag (R.PG_LN_DETECT_BUSY group lane) then
        let s := (s.clr (R.PG_LN_DETECT_BUSY group lane)).wr (R.PG_LN_DETECT_TXRES group lane) (txCode tx)
        let s := s.wr (R.PG_LN_DETECT_RXRES group lane) (rxCode rx)
        ((s.detected group lane (txCode tx) (rxCode rx)).afterDetect group lane).finish
      else s)) ∧
  (∀ (group : Fin 16) (s : State),
    exec (.detectionRepeat group) s = .next (if s.alone group then s.startLanes group else s) ∧
    exec (.flitSend group) s = .next (s.flitSlot group).finish ∧
    exec (.skipFlit group) s = .next (s.skipSlot group) ∧
    exec (.alignmentMarker group) s = .next (s.markerSlot group) ∧
    exec (.replayTimerExpiry group) s =
      .next (if (s.linkEnd group).rwait then s.updEnd group fun e => { e with nakDue := true } else s) ∧
    exec (.linkStateTimeout group) s = .next (s.stateTimeout group).finish ∧
    exec (.linkDownTimeout group) s = .next (s.downTimeout group).finish) ∧
  (∀ (group : Fin 16) (lanes : BitVec 9) (s : State),
    exec (.pennantPatternDetect group lanes) s =
      .next (if s.pgMode group == 2 && s.flag (R.PG_SDCTL_WAKEEN group) &&
          decide ((bitsOf 9 lanes).length ≥ s.rd (R.PG_SDCTL_WAKEMIN group) + 1) then
        (s.set1 (R.PG_SDSTAT_WAKEDET group)).wake 3
      else s)) ∧
  (∀ (group : Fin 16) (lane : Fin 9) (block : BitVec 256) (skewed : Bool) (s : State),
    exec (.markerReceive group lane block skewed) s = .next (s.onMarker group lane block skewed).finish) ∧
  (∀ (group : Fin 16) (raw : BitVec 2048) (full : Bool) (s : State),
    exec (.flitReceive group raw full) s = .next (s.flitIn group raw full).finish) ∧
  (∀ (group : Fin 16) (lane : Fin 9) (block : BitVec 256) (s : State),
    exec (.trainingBlockReceive group lane block) s = .next (s.trainIn group lane block).finish) ∧
  (∀ (src : Fin 16) (sender receiver : Fin 16) (e : BitVec 12) (ev : Bool) (s : State),
    exec (.linkrecover src sender receiver e ev) s =
      .next (if s.lost || s.peerLost src then s else s.linkRecover src receiver e.toNat ev).finish) ∧
  (∀ (src : Fin 16) (pqr pqw : BitVec 4) (s : State),
    exec (.pcrinit src pqr pqw) s = .next (if s.lost || s.peerLost src then s else s.onPcrInit src pqr.toNat pqw.toNat).finish) ∧
  (∀ (p : Path) (dev : Fin 16) (val : BitVec 32) (s : State),
    exec (.peerlimWrite p dev val) s = .next (s.viaPath p (R.CHIP_PEERLIM dev) fun s => s.writePeerlim dev val)) ∧
  (∀ (group : Fin 16) (lane : Fin 9) (pol : Bool) (ctle : Fin 41) (vga : Fin 32) (taps : BitVec 128) (s : State),
    exec (.laneActive group lane pol ctle vga taps) s = .next (s.laneActive group lane pol ctle vga taps))

/-- Every step of the cores' plain work keeps the cores' invariant. From every state that meets CoreInv, a step answers a next
state, and that state meets CoreInv: each core's PC stays a multiple of 4 and its status register shows it, whatever the
instructions compute, branch to, fault on or end; no request is left waiting; and the tables of registers stay in canonical
form. Every run from such a state is safe. (R317, R318, R322, R333, R338, R343, Table 14-14) -/
def Obligations.CoreWorkKeepsItsInvariant : Prop :=
  (∀ s : State, CoreInv s → ∃ t, step s = .next t ∧ CoreInv t) ∧ ∀ s : State, CoreInv s → Safe s

/-- What the block holds at reset. At reset the GTC is 0, no command waits, no memory line, key, descriptor, record or page is
held, every register reads its Reset value and the tables' values stand in it, the ROM programs are on G0, G1, G2 and GA
with their registers 0, and every core is idle. CoreInv holds. That reset is power-on with the supplies not yet valid is the
model's choice (assumption 1). (R317, R453, Table 08-12, Table 08-15, Table 10-5, Table 10-12, Table 11-7, Table 12-13,
Table 15-1, Table 19-11, 21_startup_reset_clocks.md, 23_register_map.md) -/
def Obligations.ResetState : Prop :=
  let s := State.reset
  s.gtc = 0 ∧ s.pending = [] ∧ s.flt.ring = [] ∧ s.dram = default ∧ s.eng = default ∧ s.ring = default ∧ s.peat = default ∧
    s.tier = default ∧ s.coh = default ∧ s.kind = default ∧
    (∀ off, s.reg off = regReset (off % 2 ^ 28)) ∧
    (∀ k : Fin 9, s.coreSt k = 0 ∧ (∀ r, s.g k r = 0) ∧ (s.gcore k).host = false ∧
      (s.gcore k).prog = if k.val ≤ 2 then k.val + 1 else if k = 8 then 4 else 0) ∧
    s.rd R.CHIP_TMCTL_EPOCH = 10 ∧ s.rd R.CHIP_CZCTL_MAXSECT = 15 ∧ s.rd R.CHIP_RSTCTL_DRAINLIM = 10 ∧
    s.rd R.FD_WIN_OVOFF = 80 ∧ s.rd R.PS_CTL_PTOLVAL = 50 ∧ s.rd R.RGL_CTL_WINDOW = 10 ∧ s.rd R.MG_ID_DEVID = 0x0128 ∧
    (∀ n : Fin 16, s.rd (R.CH_SCHED_HIWM n) = 48 ∧ s.rd (R.CH_SCHED_LOWM n) = 16 ∧ s.rd (R.CH_RHTHRESH_THRESH n) = 1024) ∧
    (∀ g : Fin 16, s.rd (R.PG_LKCTL_MAXRPL g) = 8 ∧ s.rd (R.PG_SDCTL_ERRTH g) = 64) ∧
    (∀ x : Fin 32, s.rd (R.SH_CTL_SAMPLE x) = 99) ∧ CoreInv s
end

