-- ==== Sys2Proof/Laws/Flit.lean ====
section
/-!
SUPPORT. The Reed-Solomon decoder and the flit check on words that have no error, and the byte lists of words.
-/
namespace Sys2Proof.Machine

/-- A word whose syndromes are zero decodes to itself, with nothing corrected. -/
theorem rsDecode_clean {t : Nat} {w : List Byte} {er : List Nat} {e : Nat}
    (h : (rsSyndromes t w).all (· == 0) = true) : rsDecode t w er e = some (w, 0) := by
  simp only [rsDecode, h, if_true]

/-- A flit whose two code words have zero syndromes is taken as it is. -/
theorem flitCorrect_clean {bytes : List Byte} (hl : 248 ≤ bytes.length)
    (h : ∀ h, h < 2 → (rsSyndromes 4 ((List.range 4).map (fun j => bytes.getD (248 + h + 2 * j) 0) ++ flitWord h bytes)).all
      (· == 0) = true) : flitCorrect bytes = some (bytes.take 248, 0) := by
  simp only [flitCorrect, rsDecode_clean (h 0 (by omega)), rsDecode_clean (h 1 (by omega)), Option.some.injEq, Prod.mk.injEq,
    Nat.add_zero, and_true]
  refine List.ext_getElem (by simp [hl]) fun i h1 h2 => ?_
  have hi : i < 248 := by simpa using h1
  have hw : ∀ h, ((List.map (fun j => bytes.getD (248 + h + 2 * j) 0) (List.range 4)) ++ flitWord h bytes).getD (4 + i / 2) 0 =
      bytes.getD (2 * (i / 2) + h) 0 := by
    intro h
    have h4 : (List.map (fun j => bytes.getD (248 + h + 2 * j) 0) (List.range 4)).length = 4 := by simp
    rw [List.getD_eq_getElem?_getD, List.getElem?_append_right (by rw [h4]; omega), h4, flitWord, List.getElem?_map,
      List.getElem?_range (by omega)]
    simp
  have hb : bytes.getD i 0 = bytes[i] := by
    rw [List.getD_eq_getElem?_getD, List.getElem?_eq_getElem (by omega)]; rfl
  rw [List.getElem_map, List.getElem_range, List.getElem_take]
  split
  · next h => rw [hw 0, show 2 * (i / 2) + 0 = i by simp at h; omega, hb]
  · next h => rw [hw 1, show 2 * (i / 2) + 1 = i by simp at h; omega, hb]

/-- `leBytes n` gives n bytes. -/
theorem leBytes_length {w : Nat} (n : Nat) (x : BitVec w) : (leBytes n x).length = n := by
  induction n generalizing x with
  | zero => rfl
  | succ n ih => simp [leBytes, ih]

/-- The bytes of zero. -/
theorem leBytes_zero {w : Nat} (n : Nat) : leBytes n (0 : BitVec w) = List.replicate n 0 := by
  induction n with
  | zero => rfl
  | succ n ih => simpa [leBytes, List.replicate_succ] using ih

end Sys2Proof.Machine
end

