-- ==== Sys2Proof/Laws/Tab.lean ====
section
/-!
SUPPORT. The laws of tables: what is read after a write, and that every operation keeps the canonical form.
-/
namespace Sys2Proof.Machine

theorem cellGet_cellIns_same {α : Type} (d : α) (l : List (Nat × α)) (i : Nat) (v : α) (h : ∀ c ∈ l, c.1 ≠ i) :
    cellGet d (cellIns l i v) i = v := by
  induction l with
  | nil => simp [cellIns, cellGet]
  | cons c t ih =>
    have hc : i ≠ c.1 := fun e => h c (by simp) e.symm
    simp only [cellIns]
    split
    · simp [cellGet]
    · simp only [cellGet, if_neg hc]
      exact ih fun c hc => h c (by simp [hc])

theorem cellGet_cellIns_other {α : Type} (d : α) (l : List (Nat × α)) (i j : Nat) (v : α) (h : j ≠ i) :
    cellGet d (cellIns l i v) j = cellGet d l j := by
  induction l with
  | nil => simp [cellIns, cellGet, h]
  | cons c t ih =>
    simp only [cellIns]
    split
    · simp [cellGet, h]
    · simp [cellGet, ih]

theorem cellGet_absent {α : Type} (d : α) (l : List (Nat × α)) (i : Nat) (h : ∀ c ∈ l, c.1 ≠ i) : cellGet d l i = d := by
  induction l with
  | nil => rfl
  | cons c t ih =>
    have hc : i ≠ c.1 := fun e => h c (by simp) e.symm
    simp only [cellGet, if_neg hc]
    exact ih fun c hc => h c (by simp [hc])

theorem cellGet_filter_other {α : Type} (d : α) (l : List (Nat × α)) (i j : Nat) (h : j ≠ i) :
    cellGet d (l.filter fun c => c.1 != i) j = cellGet d l j := by
  induction l with
  | nil => rfl
  | cons c t ih =>
    by_cases hc : c.1 = i
    · have hj : j ≠ c.1 := fun e => h (e.trans hc)
      simp [hc, cellGet, ih, h]
    · simp [hc, cellGet, ih]

/-- What has been put at a key is read there. -/
theorem cellGet_cellPut_same {α : Type} [DecidableEq α] (d : α) (l : List (Nat × α)) (i : Nat) (v : α) :
    cellGet d (cellPut d l i v) i = v := by
  have h : ∀ c ∈ l.filter fun c => c.1 != i, c.1 ≠ i := by intro c hc; simpa using (List.mem_filter.mp hc).2
  simp only [cellPut]
  split
  · next e => rw [cellGet_absent d _ i h, e]
  · exact cellGet_cellIns_same d _ i v h

/-- Every other key reads as before. -/
theorem cellGet_cellPut_other {α : Type} [DecidableEq α] (d : α) (l : List (Nat × α)) (i j : Nat) (v : α) (h : j ≠ i) :
    cellGet d (cellPut d l i v) j = cellGet d l j := by
  simp only [cellPut]
  split
  · exact cellGet_filter_other d l i j h
  · rw [cellGet_cellIns_other d _ i j v h, cellGet_filter_other d l i j h]

@[simp] theorem Tab.getD_putD_same {α : Type} [DecidableEq α] (d : α) (t : Tab α) (i : Nat) (v : α) :
    (t.putD d i v).getD d i = v := cellGet_cellPut_same d t.cells i v

theorem Tab.getD_putD_other {α : Type} [DecidableEq α] (d : α) (t : Tab α) (i j : Nat) (v : α) (h : j ≠ i) :
    (t.putD d i v).getD d j = t.getD d j := cellGet_cellPut_other d t.cells i j v h

@[simp] theorem Tab.get_put_same {α : Type} [DecidableEq α] [Inhabited α] (t : Tab α) (i : Nat) (v : α) :
    (t.put i v).get i = v := Tab.getD_putD_same default t i v

theorem Tab.get_put_other {α : Type} [DecidableEq α] [Inhabited α] (t : Tab α) (i j : Nat) (v : α) (h : j ≠ i) :
    (t.put i v).get j = t.get j := Tab.getD_putD_other default t i j v h

@[simp] theorem Tab.get_upd_same {α : Type} [DecidableEq α] [Inhabited α] (t : Tab α) (i : Nat) (f : α → α) :
    (t.upd i f).get i = f (t.get i) := Tab.get_put_same t i _

theorem Tab.get_upd_other {α : Type} [DecidableEq α] [Inhabited α] (t : Tab α) (i j : Nat) (f : α → α) (h : j ≠ i) :
    (t.upd i f).get j = t.get j := Tab.get_put_other t i j _ h

/-! ### The canonical form -/

theorem risingKeys_cons {α : Type} (c : Nat × α) (t : List (Nat × α)) :
    risingKeys (c :: t) = true ↔ (∀ x ∈ t, c.1 < x.1) ∧ risingKeys t = true := by
  induction t generalizing c with
  | nil => simp [risingKeys]
  | cons x t ih =>
    simp only [risingKeys, Bool.and_eq_true, decide_eq_true_eq, List.mem_cons, forall_eq_or_imp]
    constructor
    · rintro ⟨h, r⟩
      exact ⟨⟨h, fun y hy => Nat.lt_trans h ((ih x).mp r |>.1 y hy)⟩, r⟩
    · rintro ⟨⟨h, -⟩, r⟩; exact ⟨h, r⟩

theorem risingKeys_filter {α : Type} (p : Nat × α → Bool) (l : List (Nat × α)) (h : risingKeys l = true) :
    risingKeys (l.filter p) = true := by
  induction l with
  | nil => rfl
  | cons c t ih =>
    obtain ⟨hl, ht⟩ := (risingKeys_cons c t).mp h
    by_cases hp : p c = true
    · rw [List.filter_cons_of_pos hp, risingKeys_cons]
      exact ⟨fun x hx => hl x (List.mem_filter.mp hx).1, ih ht⟩
    · rw [List.filter_cons_of_neg hp]; exact ih ht

theorem mem_cellIns {α : Type} (l : List (Nat × α)) (i : Nat) (v : α) (x : Nat × α) :
    x ∈ cellIns l i v ↔ x = (i, v) ∨ x ∈ l := by
  induction l with
  | nil => simp [cellIns]
  | cons c t ih =>
    simp only [cellIns]
    split
    · simp
    · simp only [List.mem_cons, ih]
      constructor
      · rintro (h | h | h)
        · exact .inr (.inl h)
        · exact .inl h
        · exact .inr (.inr h)
      · rintro (h | h | h)
        · exact .inr (.inl h)
        · exact .inl h
        · exact .inr (.inr h)

theorem risingKeys_cellIns {α : Type} (l : List (Nat × α)) (i : Nat) (v : α) (h : risingKeys l = true)
    (hi : ∀ c ∈ l, c.1 ≠ i) : risingKeys (cellIns l i v) = true := by
  induction l with
  | nil => rfl
  | cons c t ih =>
    obtain ⟨hl, ht⟩ := (risingKeys_cons c t).mp h
    have hc : c.1 ≠ i := hi c (by simp)
    simp only [cellIns]
    split
    · next g =>
      rw [risingKeys_cons]
      refine ⟨fun x hx => ?_, h⟩
      rcases List.mem_cons.mp hx with rfl | hx
      · exact g
      · exact Nat.lt_trans g (hl x hx)
    · next g =>
      rw [risingKeys_cons]
      refine ⟨fun x hx => ?_, ih ht fun c hc => hi c (by simp [hc])⟩
      rcases (mem_cellIns t i v x).mp hx with rfl | hx
      · exact Nat.lt_of_le_of_ne (Nat.not_lt.mp g) hc
      · exact hl x hx

/-- A write keeps the canonical form, whatever each key reads as when it is unlisted. -/
theorem Tab.wfD_putD {α : Type} [DecidableEq α] (d : Nat → α) (t : Tab α) (i : Nat) (v : α) (h : t.wfD d = true) :
    (t.putD (d i) i v).wfD d = true := by
  simp only [Tab.wfD, Bool.and_eq_true, List.all_eq_true, decide_eq_true_eq, Tab.putD, cellPut] at h ⊢
  have hf : ∀ c ∈ t.cells.filter fun c => c.1 != i, c.1 ≠ i := by intro c hc; simpa using (List.mem_filter.mp hc).2
  split
  · exact ⟨risingKeys_filter _ _ h.1, fun c hc => h.2 c (List.mem_filter.mp hc).1⟩
  · next e =>
    refine ⟨risingKeys_cellIns _ _ _ (risingKeys_filter _ _ h.1) hf, fun c hc => ?_⟩
    rcases (mem_cellIns _ _ _ _).mp hc with rfl | hc
    · exact e
    · exact h.2 c (List.mem_filter.mp hc).1

/-- A write keeps the canonical form. -/
theorem Tab.wf_put {α : Type} [DecidableEq α] [Inhabited α] (t : Tab α) (i : Nat) (v : α) (h : t.wf = true) :
    (t.put i v).wf = true := Tab.wfD_putD (fun _ => default) t i v h

theorem Tab.wf_upd {α : Type} [DecidableEq α] [Inhabited α] (t : Tab α) (i : Nat) (f : α → α) (h : t.wf = true) :
    (t.upd i f).wf = true := Tab.wf_put t i _ h

/-- Unlisting keys keeps the canonical form. -/
theorem Tab.wfD_drop {α : Type} [DecidableEq α] (d : Nat → α) (t : Tab α) (p : Nat → Bool) (h : t.wfD d = true) :
    (t.drop p).wfD d = true := by
  simp only [Tab.wfD, Bool.and_eq_true, List.all_eq_true, Tab.drop] at h ⊢
  exact ⟨risingKeys_filter _ _ h.1, fun c hc => h.2 c (List.mem_filter.mp hc).1⟩

theorem Tab.wf_empty {α : Type} [DecidableEq α] [Inhabited α] : (Tab.empty : Tab α).wf = true := rfl

end Sys2Proof.Machine
end

