-- ==== Sys2Proof/Laws/State.lean ====
section
/-!
SUPPORT. The laws of fields and registers, and what each update of the state leaves as it was: one lemma per field per update.
-/
namespace Sys2Proof.Machine

/-! ### Fields of words -/

/-- A field written is read back. -/
theorem fld_setFld_same {w : Nat} (x : BitVec w) (hi lo v : Nat) (h : lo ≤ hi) (hw : hi < w) :
    fld (setFld x hi lo v) hi lo = v % 2 ^ (hi - lo + 1) := by
  have e : (setFld x hi lo v).extractLsb' lo (hi - lo + 1) = BitVec.ofNat (hi - lo + 1) v := by
    apply BitVec.eq_of_getLsbD_eq
    intro i hi'
    have h1 : lo + i < w := by omega
    have h2 : ¬ lo + i < lo := by omega
    have h3 : i < w := by omega
    have h4 : (BitVec.ofNat w v).getLsbD i = (BitVec.ofNat (hi - lo + 1) v).getLsbD i := by
      rw [BitVec.getLsbD_ofNat, BitVec.getLsbD_ofNat]; simp only [h3, hi', decide_true]
    simpa [setFld, hi', h1, h2, h3, ← BitVec.getLsbD_eq_getElem] using h4
  rw [fld, e, BitVec.toNat_ofNat]

/-- A field that a write does not touch is read as before. -/
theorem fld_setFld_other {w : Nat} (x : BitVec w) (hi lo hi' lo' v : Nat) (h : lo ≤ hi) (h' : lo' ≤ hi')
    (d : hi < lo' ∨ hi' < lo) : fld (setFld x hi lo v) hi' lo' = fld x hi' lo' := by
  have e : (setFld x hi lo v).extractLsb' lo' (hi' - lo' + 1) = x.extractLsb' lo' (hi' - lo' + 1) := by
    apply BitVec.eq_of_getLsbD_eq
    intro i hi2
    simp only [setFld, BitVec.getLsbD_extractLsb', hi2, decide_true, Bool.true_and, BitVec.getLsbD_or, BitVec.getLsbD_and,
      BitVec.getLsbD_not, BitVec.getLsbD_shiftLeft, BitVec.getLsbD_setWidth, BitVec.getLsbD_allOnes]
    by_cases hx : lo' + i < w
    · rcases d with d | d
      · have : ¬ lo' + i - lo < hi - lo + 1 := by omega
        simp [hx, this]
      · have : lo' + i < lo := by omega
        simp [hx, this]
    · have hg : x.getLsbD (lo' + i) = false := BitVec.getLsbD_of_ge _ _ (by omega)
      simp [hx, hg]
  rw [fld, fld, e]

/-! ### Registers -/

theorem find_cellIns_same {α : Type} (l : List (Nat × α)) (i : Nat) (v : α) (h : ∀ c ∈ l, c.1 ≠ i) :
    (cellIns l i v).find? (fun c => c.1 == i) = some (i, v) := by
  induction l with
  | nil => simp [cellIns]
  | cons c t ih =>
    have hc : c.1 ≠ i := h c (by simp)
    simp only [cellIns]
    split
    · simp
    · simpa [hc] using ih fun c hc => h c (by simp [hc])

theorem find_cellIns_other {α : Type} (l : List (Nat × α)) (i j : Nat) (v : α) (h : j ≠ i) :
    (cellIns l i v).find? (fun c => c.1 == j) = l.find? (fun c => c.1 == j) := by
  induction l with
  | nil => simp [cellIns, Ne.symm h]
  | cons c t ih =>
    simp only [cellIns]
    split
    · rw [List.find?_cons_of_neg (by simpa using Ne.symm h)]
    · simp only [List.find?_cons, ih]

theorem find_filter_same {α : Type} (l : List (Nat × α)) (i : Nat) :
    (l.filter fun c => c.1 != i).find? (fun c => c.1 == i) = none := by
  rw [List.find?_eq_none]
  intro c hc
  simpa using (List.mem_filter.mp hc).2

theorem find_filter_other {α : Type} (l : List (Nat × α)) (i j : Nat) (h : j ≠ i) :
    (l.filter fun c => c.1 != i).find? (fun c => c.1 == j) = l.find? (fun c => c.1 == j) := by
  rw [List.find?_filter]
  congr 1
  funext c
  by_cases hc : c.1 = j <;> simp_all

/-- A register written is read back. -/
@[simp] theorem State.reg_setReg_same (s : State) (off : Nat) (v : BitVec 32) : (s.setReg off v).reg off = v := by
  have h : ∀ c ∈ s.regs.cells.filter fun c => c.1 != off, c.1 ≠ off := by
    intro c hc; simpa using (List.mem_filter.mp hc).2
  simp only [State.reg, State.setReg, Tab.putD, cellPut]
  split
  · next c hc =>
    split at hc
    · rw [find_filter_same] at hc; cases hc
    · rw [find_cellIns_same _ _ _ h] at hc; cases hc; rfl
  · next hc =>
    split at hc
    · next e => exact e.symm
    · rw [find_cellIns_same _ _ _ h] at hc; cases hc

/-- Every other register is read as before. -/
theorem State.reg_setReg_other (s : State) (off off' : Nat) (v : BitVec 32) (h : off' ≠ off) :
    (s.setReg off v).reg off' = s.reg off' := by
  have e : (s.setReg off v).regs.cells.find? (fun c => c.1 == off') = s.regs.cells.find? (fun c => c.1 == off') := by
    simp only [State.setReg, Tab.putD, cellPut]
    split
    · exact find_filter_other _ _ _ h
    · rw [find_cellIns_other _ _ _ _ h, find_filter_other _ _ _ h]
  simp only [State.reg, e]

/-- A state whose registers are the same reads them the same. -/
theorem State.reg_congr {s t : State} (h : t.regs = s.regs) (off : Nat) : t.reg off = s.reg off := by
  simp only [State.reg, h]

theorem State.rd_congr {s t : State} (h : t.regs = s.regs) (f : Fld) : t.rd f = s.rd f := by
  simp only [State.rd, State.reg, h]

/-- A field written is read back. -/
theorem State.rd_wr_same (s : State) (f : Fld) (v : Nat) (h : f.lo ≤ f.hi) (hw : f.hi < 32) :
    (s.wr f v).rd f = v % 2 ^ (f.hi - f.lo + 1) := by
  simp only [State.rd, State.wr, State.reg_setReg_same]
  exact fld_setFld_same _ _ _ _ h hw

/-- A field of another register, or of other bits, is read as before. -/
theorem State.rd_wr_other (s : State) (f g : Fld) (v : Nat) (hf : f.lo ≤ f.hi) (hg : g.lo ≤ g.hi)
    (d : g.off ≠ f.off ∨ f.hi < g.lo ∨ g.hi < f.lo) : (s.wr f v).rd g = s.rd g := by
  by_cases h : g.off = f.off
  · simp only [State.rd, State.wr, h, State.reg_setReg_same]
    exact fld_setFld_other _ _ _ _ _ _ hf hg (by rcases d with d | d; exact absurd h d; exact d)
  · simp only [State.rd, State.wr, State.reg_setReg_other _ _ _ _ h]

/-- The registers keep their canonical form under a write: an offset reads as its Reset value when unlisted. -/
theorem State.regs_wf_setReg (s : State) (off : Nat) (v : BitVec 32)
    (h : s.regs.wfD (fun o => regReset (o % 2 ^ 28)) = true) :
    (s.setReg off v).regs.wfD (fun o => regReset (o % 2 ^ 28)) = true :=
  Tab.wfD_putD (fun o => regReset (o % 2 ^ 28)) s.regs off v h

/-! ### Cores, heads and entries -/

@[simp] theorem State.gcore_updCore_same (s : State) (k : Nat) (f : GCore → GCore) :
    (s.updCore k f).gcore k = f (s.gcore k) := Tab.get_upd_same _ _ _
theorem State.gcore_updCore_other (s : State) (k j : Nat) (f : GCore → GCore) (h : j ≠ k) :
    (s.updCore k f).gcore j = s.gcore j := Tab.get_upd_other _ _ _ _ h
@[simp] theorem State.head_updHead_same (s : State) (p : Nat) (f : Head → Head) :
    (s.updHead p f).head p = f (s.head p) := Tab.get_upd_same _ _ _
theorem State.head_updHead_other (s : State) (p q : Nat) (f : Head → Head) (h : q ≠ p) :
    (s.updHead p f).head q = s.head q := Tab.get_upd_other _ _ _ _ h
@[simp] theorem State.entry_setEntry_same (s : State) (d : Nat) (e : Entry) : (s.setEntry d e).entry d = e :=
  Tab.getD_putD_same _ _ _ _
theorem State.entry_setEntry_other (s : State) (d j : Nat) (e : Entry) (h : j ≠ d) :
    (s.setEntry d e).entry j = s.entry j := Tab.getD_putD_other _ _ _ _ _ h

/-! ### What the write of a register leaves -/

@[simp] theorem State.setReg_gtc (s : State) (off : Nat) (v : BitVec 32) : (s.setReg off v).gtc = s.gtc := rfl
@[simp] theorem State.setReg_freeCtr (s : State) (off : Nat) (v : BitVec 32) : (s.setReg off v).freeCtr = s.freeCtr := rfl
@[simp] theorem State.setReg_out (s : State) (off : Nat) (v : BitVec 32) : (s.setReg off v).out = s.out := rfl
@[simp] theorem State.setReg_dom (s : State) (off : Nat) (v : BitVec 32) : (s.setReg off v).dom = s.dom := rfl
@[simp] theorem State.setReg_kind (s : State) (off : Nat) (v : BitVec 32) : (s.setReg off v).kind = s.kind := rfl
@[simp] theorem State.setReg_coh (s : State) (off : Nat) (v : BitVec 32) : (s.setReg off v).coh = s.coh := rfl
@[simp] theorem State.setReg_mesh (s : State) (off : Nat) (v : BitVec 32) : (s.setReg off v).mesh = s.mesh := rfl
@[simp] theorem State.setReg_tier (s : State) (off : Nat) (v : BitVec 32) : (s.setReg off v).tier = s.tier := rfl
@[simp] theorem State.setReg_eng (s : State) (off : Nat) (v : BitVec 32) : (s.setReg off v).eng = s.eng := rfl
@[simp] theorem State.setReg_dram (s : State) (off : Nat) (v : BitVec 32) : (s.setReg off v).dram = s.dram := rfl
@[simp] theorem State.setReg_claim (s : State) (off : Nat) (v : BitVec 32) : (s.setReg off v).claim = s.claim := rfl
@[simp] theorem State.setReg_flt (s : State) (off : Nat) (v : BitVec 32) : (s.setReg off v).flt = s.flt := rfl
@[simp] theorem State.setReg_ctr (s : State) (off : Nat) (v : BitVec 32) : (s.setReg off v).ctr = s.ctr := rfl
@[simp] theorem State.setReg_rgl (s : State) (off : Nat) (v : BitVec 32) : (s.setReg off v).rgl = s.rgl := rfl
@[simp] theorem State.setReg_host (s : State) (off : Nat) (v : BitVec 32) : (s.setReg off v).host = s.host := rfl
@[simp] theorem State.setReg_lane (s : State) (off : Nat) (v : BitVec 32) : (s.setReg off v).lane = s.lane := rfl
@[simp] theorem State.setReg_link (s : State) (off : Nat) (v : BitVec 32) : (s.setReg off v).link = s.link := rfl
@[simp] theorem State.setReg_core (s : State) (off : Nat) (v : BitVec 32) : (s.setReg off v).core = s.core := rfl
@[simp] theorem State.setReg_ring (s : State) (off : Nat) (v : BitVec 32) : (s.setReg off v).ring = s.ring := rfl
@[simp] theorem State.setReg_peat (s : State) (off : Nat) (v : BitVec 32) : (s.setReg off v).peat = s.peat := rfl
@[simp] theorem State.setReg_feed (s : State) (off : Nat) (v : BitVec 32) : (s.setReg off v).feed = s.feed := rfl
@[simp] theorem State.setReg_pow (s : State) (off : Nat) (v : BitVec 32) : (s.setReg off v).pow = s.pow := rfl
@[simp] theorem State.setReg_boot (s : State) (off : Nat) (v : BitVec 32) : (s.setReg off v).boot = s.boot := rfl
@[simp] theorem State.setReg_mgmt (s : State) (off : Nat) (v : BitVec 32) : (s.setReg off v).mgmt = s.mgmt := rfl
@[simp] theorem State.setReg_pending (s : State) (off : Nat) (v : BitVec 32) : (s.setReg off v).pending = s.pending := rfl

/-! ### What the write of a field leaves -/

@[simp] theorem State.wr_gtc (s : State) (f : Fld) (v : Nat) : (s.wr f v).gtc = s.gtc := rfl
@[simp] theorem State.wr_freeCtr (s : State) (f : Fld) (v : Nat) : (s.wr f v).freeCtr = s.freeCtr := rfl
@[simp] theorem State.wr_out (s : State) (f : Fld) (v : Nat) : (s.wr f v).out = s.out := rfl
@[simp] theorem State.wr_dom (s : State) (f : Fld) (v : Nat) : (s.wr f v).dom = s.dom := rfl
@[simp] theorem State.wr_kind (s : State) (f : Fld) (v : Nat) : (s.wr f v).kind = s.kind := rfl
@[simp] theorem State.wr_coh (s : State) (f : Fld) (v : Nat) : (s.wr f v).coh = s.coh := rfl
@[simp] theorem State.wr_mesh (s : State) (f : Fld) (v : Nat) : (s.wr f v).mesh = s.mesh := rfl
@[simp] theorem State.wr_tier (s : State) (f : Fld) (v : Nat) : (s.wr f v).tier = s.tier := rfl
@[simp] theorem State.wr_eng (s : State) (f : Fld) (v : Nat) : (s.wr f v).eng = s.eng := rfl
@[simp] theorem State.wr_dram (s : State) (f : Fld) (v : Nat) : (s.wr f v).dram = s.dram := rfl
@[simp] theorem State.wr_claim (s : State) (f : Fld) (v : Nat) : (s.wr f v).claim = s.claim := rfl
@[simp] theorem State.wr_flt (s : State) (f : Fld) (v : Nat) : (s.wr f v).flt = s.flt := rfl
@[simp] theorem State.wr_ctr (s : State) (f : Fld) (v : Nat) : (s.wr f v).ctr = s.ctr := rfl
@[simp] theorem State.wr_rgl (s : State) (f : Fld) (v : Nat) : (s.wr f v).rgl = s.rgl := rfl
@[simp] theorem State.wr_host (s : State) (f : Fld) (v : Nat) : (s.wr f v).host = s.host := rfl
@[simp] theorem State.wr_lane (s : State) (f : Fld) (v : Nat) : (s.wr f v).lane = s.lane := rfl
@[simp] theorem State.wr_link (s : State) (f : Fld) (v : Nat) : (s.wr f v).link = s.link := rfl
@[simp] theorem State.wr_core (s : State) (f : Fld) (v : Nat) : (s.wr f v).core = s.core := rfl
@[simp] theorem State.wr_ring (s : State) (f : Fld) (v : Nat) : (s.wr f v).ring = s.ring := rfl
@[simp] theorem State.wr_peat (s : State) (f : Fld) (v : Nat) : (s.wr f v).peat = s.peat := rfl
@[simp] theorem State.wr_feed (s : State) (f : Fld) (v : Nat) : (s.wr f v).feed = s.feed := rfl
@[simp] theorem State.wr_pow (s : State) (f : Fld) (v : Nat) : (s.wr f v).pow = s.pow := rfl
@[simp] theorem State.wr_boot (s : State) (f : Fld) (v : Nat) : (s.wr f v).boot = s.boot := rfl
@[simp] theorem State.wr_mgmt (s : State) (f : Fld) (v : Nat) : (s.wr f v).mgmt = s.mgmt := rfl
@[simp] theorem State.wr_pending (s : State) (f : Fld) (v : Nat) : (s.wr f v).pending = s.pending := rfl

/-! ### What the setting of a bit leaves -/

@[simp] theorem State.set1_gtc (s : State) (f : Fld) : (s.set1 f).gtc = s.gtc := rfl
@[simp] theorem State.set1_freeCtr (s : State) (f : Fld) : (s.set1 f).freeCtr = s.freeCtr := rfl
@[simp] theorem State.set1_out (s : State) (f : Fld) : (s.set1 f).out = s.out := rfl
@[simp] theorem State.set1_dom (s : State) (f : Fld) : (s.set1 f).dom = s.dom := rfl
@[simp] theorem State.set1_kind (s : State) (f : Fld) : (s.set1 f).kind = s.kind := rfl
@[simp] theorem State.set1_coh (s : State) (f : Fld) : (s.set1 f).coh = s.coh := rfl
@[simp] theorem State.set1_mesh (s : State) (f : Fld) : (s.set1 f).mesh = s.mesh := rfl
@[simp] theorem State.set1_tier (s : State) (f : Fld) : (s.set1 f).tier = s.tier := rfl
@[simp] theorem State.set1_eng (s : State) (f : Fld) : (s.set1 f).eng = s.eng := rfl
@[simp] theorem State.set1_dram (s : State) (f : Fld) : (s.set1 f).dram = s.dram := rfl
@[simp] theorem State.set1_claim (s : State) (f : Fld) : (s.set1 f).claim = s.claim := rfl
@[simp] theorem State.set1_flt (s : State) (f : Fld) : (s.set1 f).flt = s.flt := rfl
@[simp] theorem State.set1_ctr (s : State) (f : Fld) : (s.set1 f).ctr = s.ctr := rfl
@[simp] theorem State.set1_rgl (s : State) (f : Fld) : (s.set1 f).rgl = s.rgl := rfl
@[simp] theorem State.set1_host (s : State) (f : Fld) : (s.set1 f).host = s.host := rfl
@[simp] theorem State.set1_lane (s : State) (f : Fld) : (s.set1 f).lane = s.lane := rfl
@[simp] theorem State.set1_link (s : State) (f : Fld) : (s.set1 f).link = s.link := rfl
@[simp] theorem State.set1_core (s : State) (f : Fld) : (s.set1 f).core = s.core := rfl
@[simp] theorem State.set1_ring (s : State) (f : Fld) : (s.set1 f).ring = s.ring := rfl
@[simp] theorem State.set1_peat (s : State) (f : Fld) : (s.set1 f).peat = s.peat := rfl
@[simp] theorem State.set1_feed (s : State) (f : Fld) : (s.set1 f).feed = s.feed := rfl
@[simp] theorem State.set1_pow (s : State) (f : Fld) : (s.set1 f).pow = s.pow := rfl
@[simp] theorem State.set1_boot (s : State) (f : Fld) : (s.set1 f).boot = s.boot := rfl
@[simp] theorem State.set1_mgmt (s : State) (f : Fld) : (s.set1 f).mgmt = s.mgmt := rfl
@[simp] theorem State.set1_pending (s : State) (f : Fld) : (s.set1 f).pending = s.pending := rfl

/-! ### What the clearing of a field leaves -/

@[simp] theorem State.clr_gtc (s : State) (f : Fld) : (s.clr f).gtc = s.gtc := rfl
@[simp] theorem State.clr_freeCtr (s : State) (f : Fld) : (s.clr f).freeCtr = s.freeCtr := rfl
@[simp] theorem State.clr_out (s : State) (f : Fld) : (s.clr f).out = s.out := rfl
@[simp] theorem State.clr_dom (s : State) (f : Fld) : (s.clr f).dom = s.dom := rfl
@[simp] theorem State.clr_kind (s : State) (f : Fld) : (s.clr f).kind = s.kind := rfl
@[simp] theorem State.clr_coh (s : State) (f : Fld) : (s.clr f).coh = s.coh := rfl
@[simp] theorem State.clr_mesh (s : State) (f : Fld) : (s.clr f).mesh = s.mesh := rfl
@[simp] theorem State.clr_tier (s : State) (f : Fld) : (s.clr f).tier = s.tier := rfl
@[simp] theorem State.clr_eng (s : State) (f : Fld) : (s.clr f).eng = s.eng := rfl
@[simp] theorem State.clr_dram (s : State) (f : Fld) : (s.clr f).dram = s.dram := rfl
@[simp] theorem State.clr_claim (s : State) (f : Fld) : (s.clr f).claim = s.claim := rfl
@[simp] theorem State.clr_flt (s : State) (f : Fld) : (s.clr f).flt = s.flt := rfl
@[simp] theorem State.clr_ctr (s : State) (f : Fld) : (s.clr f).ctr = s.ctr := rfl
@[simp] theorem State.clr_rgl (s : State) (f : Fld) : (s.clr f).rgl = s.rgl := rfl
@[simp] theorem State.clr_host (s : State) (f : Fld) : (s.clr f).host = s.host := rfl
@[simp] theorem State.clr_lane (s : State) (f : Fld) : (s.clr f).lane = s.lane := rfl
@[simp] theorem State.clr_link (s : State) (f : Fld) : (s.clr f).link = s.link := rfl
@[simp] theorem State.clr_core (s : State) (f : Fld) : (s.clr f).core = s.core := rfl
@[simp] theorem State.clr_ring (s : State) (f : Fld) : (s.clr f).ring = s.ring := rfl
@[simp] theorem State.clr_peat (s : State) (f : Fld) : (s.clr f).peat = s.peat := rfl
@[simp] theorem State.clr_feed (s : State) (f : Fld) : (s.clr f).feed = s.feed := rfl
@[simp] theorem State.clr_pow (s : State) (f : Fld) : (s.clr f).pow = s.pow := rfl
@[simp] theorem State.clr_boot (s : State) (f : Fld) : (s.clr f).boot = s.boot := rfl
@[simp] theorem State.clr_mgmt (s : State) (f : Fld) : (s.clr f).mgmt = s.mgmt := rfl
@[simp] theorem State.clr_pending (s : State) (f : Fld) : (s.clr f).pending = s.pending := rfl

/-! ### What the raising of a count leaves -/

@[simp] theorem State.satAdd_gtc (s : State) (f : Fld) (n : Nat) : (s.satAdd f n).gtc = s.gtc := rfl
@[simp] theorem State.satAdd_freeCtr (s : State) (f : Fld) (n : Nat) : (s.satAdd f n).freeCtr = s.freeCtr := rfl
@[simp] theorem State.satAdd_out (s : State) (f : Fld) (n : Nat) : (s.satAdd f n).out = s.out := rfl
@[simp] theorem State.satAdd_dom (s : State) (f : Fld) (n : Nat) : (s.satAdd f n).dom = s.dom := rfl
@[simp] theorem State.satAdd_kind (s : State) (f : Fld) (n : Nat) : (s.satAdd f n).kind = s.kind := rfl
@[simp] theorem State.satAdd_coh (s : State) (f : Fld) (n : Nat) : (s.satAdd f n).coh = s.coh := rfl
@[simp] theorem State.satAdd_mesh (s : State) (f : Fld) (n : Nat) : (s.satAdd f n).mesh = s.mesh := rfl
@[simp] theorem State.satAdd_tier (s : State) (f : Fld) (n : Nat) : (s.satAdd f n).tier = s.tier := rfl
@[simp] theorem State.satAdd_eng (s : State) (f : Fld) (n : Nat) : (s.satAdd f n).eng = s.eng := rfl
@[simp] theorem State.satAdd_dram (s : State) (f : Fld) (n : Nat) : (s.satAdd f n).dram = s.dram := rfl
@[simp] theorem State.satAdd_claim (s : State) (f : Fld) (n : Nat) : (s.satAdd f n).claim = s.claim := rfl
@[simp] theorem State.satAdd_flt (s : State) (f : Fld) (n : Nat) : (s.satAdd f n).flt = s.flt := rfl
@[simp] theorem State.satAdd_ctr (s : State) (f : Fld) (n : Nat) : (s.satAdd f n).ctr = s.ctr := rfl
@[simp] theorem State.satAdd_rgl (s : State) (f : Fld) (n : Nat) : (s.satAdd f n).rgl = s.rgl := rfl
@[simp] theorem State.satAdd_host (s : State) (f : Fld) (n : Nat) : (s.satAdd f n).host = s.host := rfl
@[simp] theorem State.satAdd_lane (s : State) (f : Fld) (n : Nat) : (s.satAdd f n).lane = s.lane := rfl
@[simp] theorem State.satAdd_link (s : State) (f : Fld) (n : Nat) : (s.satAdd f n).link = s.link := rfl
@[simp] theorem State.satAdd_core (s : State) (f : Fld) (n : Nat) : (s.satAdd f n).core = s.core := rfl
@[simp] theorem State.satAdd_ring (s : State) (f : Fld) (n : Nat) : (s.satAdd f n).ring = s.ring := rfl
@[simp] theorem State.satAdd_peat (s : State) (f : Fld) (n : Nat) : (s.satAdd f n).peat = s.peat := rfl
@[simp] theorem State.satAdd_feed (s : State) (f : Fld) (n : Nat) : (s.satAdd f n).feed = s.feed := rfl
@[simp] theorem State.satAdd_pow (s : State) (f : Fld) (n : Nat) : (s.satAdd f n).pow = s.pow := rfl
@[simp] theorem State.satAdd_boot (s : State) (f : Fld) (n : Nat) : (s.satAdd f n).boot = s.boot := rfl
@[simp] theorem State.satAdd_mgmt (s : State) (f : Fld) (n : Nat) : (s.satAdd f n).mgmt = s.mgmt := rfl
@[simp] theorem State.satAdd_pending (s : State) (f : Fld) (n : Nat) : (s.satAdd f n).pending = s.pending := rfl

/-! ### What a sent output leaves -/

@[simp] theorem State.send_gtc (s : State) (o : Output) : (s.send o).gtc = s.gtc := rfl
@[simp] theorem State.send_regs (s : State) (o : Output) : (s.send o).regs = s.regs := rfl
@[simp] theorem State.send_freeCtr (s : State) (o : Output) : (s.send o).freeCtr = s.freeCtr := rfl
@[simp] theorem State.send_dom (s : State) (o : Output) : (s.send o).dom = s.dom := rfl
@[simp] theorem State.send_kind (s : State) (o : Output) : (s.send o).kind = s.kind := rfl
@[simp] theorem State.send_coh (s : State) (o : Output) : (s.send o).coh = s.coh := rfl
@[simp] theorem State.send_mesh (s : State) (o : Output) : (s.send o).mesh = s.mesh := rfl
@[simp] theorem State.send_tier (s : State) (o : Output) : (s.send o).tier = s.tier := rfl
@[simp] theorem State.send_eng (s : State) (o : Output) : (s.send o).eng = s.eng := rfl
@[simp] theorem State.send_dram (s : State) (o : Output) : (s.send o).dram = s.dram := rfl
@[simp] theorem State.send_claim (s : State) (o : Output) : (s.send o).claim = s.claim := rfl
@[simp] theorem State.send_flt (s : State) (o : Output) : (s.send o).flt = s.flt := rfl
@[simp] theorem State.send_ctr (s : State) (o : Output) : (s.send o).ctr = s.ctr := rfl
@[simp] theorem State.send_rgl (s : State) (o : Output) : (s.send o).rgl = s.rgl := rfl
@[simp] theorem State.send_host (s : State) (o : Output) : (s.send o).host = s.host := rfl
@[simp] theorem State.send_lane (s : State) (o : Output) : (s.send o).lane = s.lane := rfl
@[simp] theorem State.send_link (s : State) (o : Output) : (s.send o).link = s.link := rfl
@[simp] theorem State.send_core (s : State) (o : Output) : (s.send o).core = s.core := rfl
@[simp] theorem State.send_ring (s : State) (o : Output) : (s.send o).ring = s.ring := rfl
@[simp] theorem State.send_peat (s : State) (o : Output) : (s.send o).peat = s.peat := rfl
@[simp] theorem State.send_feed (s : State) (o : Output) : (s.send o).feed = s.feed := rfl
@[simp] theorem State.send_pow (s : State) (o : Output) : (s.send o).pow = s.pow := rfl
@[simp] theorem State.send_boot (s : State) (o : Output) : (s.send o).boot = s.boot := rfl
@[simp] theorem State.send_mgmt (s : State) (o : Output) : (s.send o).mgmt = s.mgmt := rfl
@[simp] theorem State.send_pending (s : State) (o : Output) : (s.send o).pending = s.pending := rfl

/-! ### What a changed core leaves -/

@[simp] theorem State.updCore_gtc (s : State) (k : Nat) (f : GCore → GCore) : (s.updCore k f).gtc = s.gtc := rfl
@[simp] theorem State.updCore_regs (s : State) (k : Nat) (f : GCore → GCore) : (s.updCore k f).regs = s.regs := rfl
@[simp] theorem State.updCore_freeCtr (s : State) (k : Nat) (f : GCore → GCore) : (s.updCore k f).freeCtr = s.freeCtr := rfl
@[simp] theorem State.updCore_out (s : State) (k : Nat) (f : GCore → GCore) : (s.updCore k f).out = s.out := rfl
@[simp] theorem State.updCore_dom (s : State) (k : Nat) (f : GCore → GCore) : (s.updCore k f).dom = s.dom := rfl
@[simp] theorem State.updCore_kind (s : State) (k : Nat) (f : GCore → GCore) : (s.updCore k f).kind = s.kind := rfl
@[simp] theorem State.updCore_coh (s : State) (k : Nat) (f : GCore → GCore) : (s.updCore k f).coh = s.coh := rfl
@[simp] theorem State.updCore_mesh (s : State) (k : Nat) (f : GCore → GCore) : (s.updCore k f).mesh = s.mesh := rfl
@[simp] theorem State.updCore_tier (s : State) (k : Nat) (f : GCore → GCore) : (s.updCore k f).tier = s.tier := rfl
@[simp] theorem State.updCore_eng (s : State) (k : Nat) (f : GCore → GCore) : (s.updCore k f).eng = s.eng := rfl
@[simp] theorem State.updCore_dram (s : State) (k : Nat) (f : GCore → GCore) : (s.updCore k f).dram = s.dram := rfl
@[simp] theorem State.updCore_claim (s : State) (k : Nat) (f : GCore → GCore) : (s.updCore k f).claim = s.claim := rfl
@[simp] theorem State.updCore_flt (s : State) (k : Nat) (f : GCore → GCore) : (s.updCore k f).flt = s.flt := rfl
@[simp] theorem State.updCore_ctr (s : State) (k : Nat) (f : GCore → GCore) : (s.updCore k f).ctr = s.ctr := rfl
@[simp] theorem State.updCore_rgl (s : State) (k : Nat) (f : GCore → GCore) : (s.updCore k f).rgl = s.rgl := rfl
@[simp] theorem State.updCore_host (s : State) (k : Nat) (f : GCore → GCore) : (s.updCore k f).host = s.host := rfl
@[simp] theorem State.updCore_lane (s : State) (k : Nat) (f : GCore → GCore) : (s.updCore k f).lane = s.lane := rfl
@[simp] theorem State.updCore_link (s : State) (k : Nat) (f : GCore → GCore) : (s.updCore k f).link = s.link := rfl
@[simp] theorem State.updCore_ring (s : State) (k : Nat) (f : GCore → GCore) : (s.updCore k f).ring = s.ring := rfl
@[simp] theorem State.updCore_peat (s : State) (k : Nat) (f : GCore → GCore) : (s.updCore k f).peat = s.peat := rfl
@[simp] theorem State.updCore_feed (s : State) (k : Nat) (f : GCore → GCore) : (s.updCore k f).feed = s.feed := rfl
@[simp] theorem State.updCore_pow (s : State) (k : Nat) (f : GCore → GCore) : (s.updCore k f).pow = s.pow := rfl
@[simp] theorem State.updCore_boot (s : State) (k : Nat) (f : GCore → GCore) : (s.updCore k f).boot = s.boot := rfl
@[simp] theorem State.updCore_mgmt (s : State) (k : Nat) (f : GCore → GCore) : (s.updCore k f).mgmt = s.mgmt := rfl
@[simp] theorem State.updCore_pending (s : State) (k : Nat) (f : GCore → GCore) : (s.updCore k f).pending = s.pending := rfl

/-! ### What a changed head leaves -/

@[simp] theorem State.updHead_gtc (s : State) (p : Nat) (f : Head → Head) : (s.updHead p f).gtc = s.gtc := rfl
@[simp] theorem State.updHead_regs (s : State) (p : Nat) (f : Head → Head) : (s.updHead p f).regs = s.regs := rfl
@[simp] theorem State.updHead_freeCtr (s : State) (p : Nat) (f : Head → Head) : (s.updHead p f).freeCtr = s.freeCtr := rfl
@[simp] theorem State.updHead_out (s : State) (p : Nat) (f : Head → Head) : (s.updHead p f).out = s.out := rfl
@[simp] theorem State.updHead_dom (s : State) (p : Nat) (f : Head → Head) : (s.updHead p f).dom = s.dom := rfl
@[simp] theorem State.updHead_kind (s : State) (p : Nat) (f : Head → Head) : (s.updHead p f).kind = s.kind := rfl
@[simp] theorem State.updHead_coh (s : State) (p : Nat) (f : Head → Head) : (s.updHead p f).coh = s.coh := rfl
@[simp] theorem State.updHead_mesh (s : State) (p : Nat) (f : Head → Head) : (s.updHead p f).mesh = s.mesh := rfl
@[simp] theorem State.updHead_tier (s : State) (p : Nat) (f : Head → Head) : (s.updHead p f).tier = s.tier := rfl
@[simp] theorem State.updHead_eng (s : State) (p : Nat) (f : Head → Head) : (s.updHead p f).eng = s.eng := rfl
@[simp] theorem State.updHead_dram (s : State) (p : Nat) (f : Head → Head) : (s.updHead p f).dram = s.dram := rfl
@[simp] theorem State.updHead_claim (s : State) (p : Nat) (f : Head → Head) : (s.updHead p f).claim = s.claim := rfl
@[simp] theorem State.updHead_flt (s : State) (p : Nat) (f : Head → Head) : (s.updHead p f).flt = s.flt := rfl
@[simp] theorem State.updHead_ctr (s : State) (p : Nat) (f : Head → Head) : (s.updHead p f).ctr = s.ctr := rfl
@[simp] theorem State.updHead_rgl (s : State) (p : Nat) (f : Head → Head) : (s.updHead p f).rgl = s.rgl := rfl
@[simp] theorem State.updHead_lane (s : State) (p : Nat) (f : Head → Head) : (s.updHead p f).lane = s.lane := rfl
@[simp] theorem State.updHead_link (s : State) (p : Nat) (f : Head → Head) : (s.updHead p f).link = s.link := rfl
@[simp] theorem State.updHead_core (s : State) (p : Nat) (f : Head → Head) : (s.updHead p f).core = s.core := rfl
@[simp] theorem State.updHead_ring (s : State) (p : Nat) (f : Head → Head) : (s.updHead p f).ring = s.ring := rfl
@[simp] theorem State.updHead_peat (s : State) (p : Nat) (f : Head → Head) : (s.updHead p f).peat = s.peat := rfl
@[simp] theorem State.updHead_feed (s : State) (p : Nat) (f : Head → Head) : (s.updHead p f).feed = s.feed := rfl
@[simp] theorem State.updHead_pow (s : State) (p : Nat) (f : Head → Head) : (s.updHead p f).pow = s.pow := rfl
@[simp] theorem State.updHead_boot (s : State) (p : Nat) (f : Head → Head) : (s.updHead p f).boot = s.boot := rfl
@[simp] theorem State.updHead_mgmt (s : State) (p : Nat) (f : Head → Head) : (s.updHead p f).mgmt = s.mgmt := rfl
@[simp] theorem State.updHead_pending (s : State) (p : Nat) (f : Head → Head) : (s.updHead p f).pending = s.pending := rfl

/-! ### What a committed entry leaves -/

@[simp] theorem State.setEntry_gtc (s : State) (d : Nat) (e : Entry) : (s.setEntry d e).gtc = s.gtc := rfl
@[simp] theorem State.setEntry_regs (s : State) (d : Nat) (e : Entry) : (s.setEntry d e).regs = s.regs := rfl
@[simp] theorem State.setEntry_freeCtr (s : State) (d : Nat) (e : Entry) : (s.setEntry d e).freeCtr = s.freeCtr := rfl
@[simp] theorem State.setEntry_out (s : State) (d : Nat) (e : Entry) : (s.setEntry d e).out = s.out := rfl
@[simp] theorem State.setEntry_kind (s : State) (d : Nat) (e : Entry) : (s.setEntry d e).kind = s.kind := rfl
@[simp] theorem State.setEntry_coh (s : State) (d : Nat) (e : Entry) : (s.setEntry d e).coh = s.coh := rfl
@[simp] theorem State.setEntry_mesh (s : State) (d : Nat) (e : Entry) : (s.setEntry d e).mesh = s.mesh := rfl
@[simp] theorem State.setEntry_tier (s : State) (d : Nat) (e : Entry) : (s.setEntry d e).tier = s.tier := rfl
@[simp] theorem State.setEntry_eng (s : State) (d : Nat) (e : Entry) : (s.setEntry d e).eng = s.eng := rfl
@[simp] theorem State.setEntry_dram (s : State) (d : Nat) (e : Entry) : (s.setEntry d e).dram = s.dram := rfl
@[simp] theorem State.setEntry_claim (s : State) (d : Nat) (e : Entry) : (s.setEntry d e).claim = s.claim := rfl
@[simp] theorem State.setEntry_flt (s : State) (d : Nat) (e : Entry) : (s.setEntry d e).flt = s.flt := rfl
@[simp] theorem State.setEntry_ctr (s : State) (d : Nat) (e : Entry) : (s.setEntry d e).ctr = s.ctr := rfl
@[simp] theorem State.setEntry_rgl (s : State) (d : Nat) (e : Entry) : (s.setEntry d e).rgl = s.rgl := rfl
@[simp] theorem State.setEntry_host (s : State) (d : Nat) (e : Entry) : (s.setEntry d e).host = s.host := rfl
@[simp] theorem State.setEntry_lane (s : State) (d : Nat) (e : Entry) : (s.setEntry d e).lane = s.lane := rfl
@[simp] theorem State.setEntry_link (s : State) (d : Nat) (e : Entry) : (s.setEntry d e).link = s.link := rfl
@[simp] theorem State.setEntry_core (s : State) (d : Nat) (e : Entry) : (s.setEntry d e).core = s.core := rfl
@[simp] theorem State.setEntry_ring (s : State) (d : Nat) (e : Entry) : (s.setEntry d e).ring = s.ring := rfl
@[simp] theorem State.setEntry_peat (s : State) (d : Nat) (e : Entry) : (s.setEntry d e).peat = s.peat := rfl
@[simp] theorem State.setEntry_feed (s : State) (d : Nat) (e : Entry) : (s.setEntry d e).feed = s.feed := rfl
@[simp] theorem State.setEntry_pow (s : State) (d : Nat) (e : Entry) : (s.setEntry d e).pow = s.pow := rfl
@[simp] theorem State.setEntry_boot (s : State) (d : Nat) (e : Entry) : (s.setEntry d e).boot = s.boot := rfl
@[simp] theorem State.setEntry_mgmt (s : State) (d : Nat) (e : Entry) : (s.setEntry d e).mgmt = s.mgmt := rfl
@[simp] theorem State.setEntry_pending (s : State) (d : Nat) (e : Entry) : (s.setEntry d e).pending = s.pending := rfl

end Sys2Proof.Machine
end

