-- ==== Sys2Proof/Laws/Grihar.lean ====
section
/-!
SUPPORT. What fetching one instruction does around its meaning, said once for every row, and the frames of a core's registers,
flags, PC and step.
-/
namespace Sys2Proof.Machine

/-- Every general register but g0 reads back what is written; g0 reads 0 (R317). -/
theorem GCore.reg_setReg (c : GCore) (r q : Nat) (v : BitVec 64) :
    (c.setReg r v).reg q = if q = r ∧ r ≠ 0 then v else c.reg q := by
  unfold GCore.setReg
  by_cases hr : r = 0
  · simp [hr]
  · simp only [hr, if_false, GCore.reg]
    by_cases hq : q = r
    · subst hq; simp [hr]
    · simp [hq, Tab.get_put_other]

/-- g0 reads 0 (R317). -/
@[simp] theorem GCore.reg_zero (c : GCore) : c.reg 0 = 0 := rfl

/-- A register write changes the register file only. -/
theorem GCore.setReg_frame (c : GCore) (r : Nat) (v : BitVec 64) : ∃ g, c.setReg r v = { c with g := g } := by
  unfold GCore.setReg; split
  · exact ⟨c.g, rfl⟩
  · exact ⟨_, rfl⟩

/-- A flag write changes the flags only. -/
theorem GCore.setFlag_frame (c : GCore) (i : Nat) (v : Bool) : ∃ f, c.setFlag i v = { c with f := f } := by
  unfold GCore.setFlag; split
  · exact ⟨c.f, rfl⟩
  · exact ⟨_, rfl⟩

/-- Setting a PC changes that core's PC and its status register only. -/
theorem State.setPc_frame (s : State) (k pc : Nat) : s.setPc k pc =
    { s.updCore k (fun c => { c with pc := pc }) with
      regs := (s.wr (corePc k) (pc % 2 ^ 18)).regs } := rfl

/-- The core after a step: its PC and clock count, all else as the meaning left it. -/
theorem State.gcore_gStep (s : State) (k clk pc : Nat) :
    (s.gStep k clk pc).gcore k = { s.gcore k with pc := pc, ckclk := (s.gcore k).ckclk + clk } := by
  show (((s.updCore k _).updCore k _).gcore k) = _
  simp

/-- A step of one core leaves the others as they are. -/
theorem State.gcore_gStep_other (s : State) (k j clk pc : Nat) (h : j ≠ k) : (s.gStep k clk pc).gcore j = s.gcore j := by
  show (((s.updCore k _).updCore k _).gcore j) = _
  simp [State.gcore_updCore_other, h]

/-- A step changes the cores and one status register only. -/
theorem State.gStep_frame (s : State) (k clk pc : Nat) : s.gStep k clk pc =
    { s with regs := (s.gStep k clk pc).regs, core := { s.core with cores := (s.gStep k clk pc).core.cores } } := rfl

/-- What one fetched instruction can end in: the word is no word of the row; nothing, where the core does not run or its image
holds another word; a fault of Table 14-13; the next word after one clock, where the predicate fails; or its meaning. -/
theorem State.gRun_cases (s : State) (k : Nat) (w : BitVec 32) (upset : Bool) (row : Nat) (body : State → GRes) :
    s.gRun k w upset row body = .refused .illFormed ∨ s.gRun k w upset row body = .next s ∨
    (∃ cause addr, s.gRun k w upset row body = .next (s.gFault k cause addr)) ∨
    s.gRun k w upset row body = .next (s.gStep k 1 ((s.gcore k).pc + 4)) ∨
    (∃ s' clk pc, body s = .go s' clk pc ∧
      s.gRun k w upset row body = .next (s'.gStep k clk (pc.getD ((s.gcore k).pc + 4)))) ∨
    (∃ s', body s = .own s' ∧ s.gRun k w upset row body = .next s') := by
  unfold State.gRun
  dsimp only
  by_cases h1 : (!gBelongs row w) = true
  · exact .inl (if_pos h1)
  rw [if_neg h1]
  refine .inr ?_
  by_cases h2 : (s.coreSt k != 1) = true
  · exact .inl (if_pos h2)
  rw [if_neg h2]
  by_cases h3 : (s.gcore k).pc ≥ (s.gcore k).imageLen
  · exact .inr (.inl ⟨_, _, if_pos h3⟩)
  rw [if_neg h3]
  by_cases h4 : upset = true
  · exact .inr (.inl ⟨_, _, if_pos h4⟩)
  rw [if_neg h4]
  by_cases h5 : ((s.gcore k).host && (s.gcore k).imem.get ((s.gcore k).pc / 4) != w) = true
  · exact .inl (if_pos h5)
  rw [if_neg h5]
  by_cases h6 : ((s.gcore k).ckclk > checkLimit k ||
      ((s.gcore k).ckclk == checkLimit k && !(gCheckpoint w && (s.gcore k).flag (gFlag w) != gNeg w))) = true
  · exact .inr (.inl ⟨_, _, if_pos h6⟩)
  rw [if_neg h6]
  by_cases h7 : gIllegal w = true
  · exact .inr (.inl ⟨_, _, if_pos h7⟩)
  rw [if_neg h7]
  by_cases h8 : ((s.gcore k).flag (gFlag w) == gNeg w) = true
  · exact .inr (.inr (.inl (if_pos h8)))
  rw [if_neg h8]
  cases hb : body s with
  | go s' clk pc => exact .inr (.inr (.inr (.inl ⟨s', clk, pc, rfl, rfl⟩)))
  | fault cause addr => exact .inr (.inl ⟨_, _, rfl⟩)
  | own s' => exact .inr (.inr (.inr (.inr ⟨s', rfl, rfl⟩)))

/-- A running core whose image holds a legal word of the row at its PC, within the checkpoint limit and with the predicate met,
does what the row's meaning says (R318 to R322, R333, R338). -/
theorem State.gRun_runs {s : State} {k : Nat} {w : BitVec 32} {row : Nat} (body : State → GRes)
    (legal : gIllegal w = false) (hrow : gRow w = row) (runs : s.coreSt k = 1)
    (inside : (s.gcore k).pc < (s.gcore k).imageLen)
    (holds : (s.gcore k).host = true → (s.gcore k).imem.get ((s.gcore k).pc / 4) = w)
    (early : (s.gcore k).ckclk < checkLimit k) (met : (s.gcore k).flag (gFlag w) ≠ gNeg w) :
    s.gRun k w false row body = (match body s with
      | .go s' clk pc => .next (s'.gStep k clk (pc.getD ((s.gcore k).pc + 4)))
      | .fault cause addr => .next (s.gFault k cause addr)
      | .own s' => .next s') := by
  have hb : gBelongs row w = true := by simp [gBelongs, hrow]
  have e1 : ¬ ((s.gcore k).pc ≥ (s.gcore k).imageLen) := by omega
  have e2 : ((s.gcore k).host && (s.gcore k).imem.get ((s.gcore k).pc / 4) != w) = false := by
    cases hh : (s.gcore k).host
    · rfl
    · simp [holds hh]
  have e3 : ((s.gcore k).ckclk == checkLimit k) = false := by simp; omega
  have e4 : ¬ ((s.gcore k).ckclk > checkLimit k) := by omega
  have e5 : ((s.gcore k).flag (gFlag w) == gNeg w) = false := by simpa using met
  simp only [State.gRun, hb, legal, e1, e2, e3, e4, runs, e5]
  cases body s <;> simp

/-- An illegal word faults with cause 1, whatever row carries it (R338). -/
theorem State.gRun_illegal {s : State} {k : Nat} {w : BitVec 32} {row : Nat} (body : State → GRes)
    (illegal : gIllegal w = true) (runs : s.coreSt k = 1) (inside : (s.gcore k).pc < (s.gcore k).imageLen)
    (holds : (s.gcore k).host = true → (s.gcore k).imem.get ((s.gcore k).pc / 4) = w)
    (early : (s.gcore k).ckclk < checkLimit k) : s.gRun k w false row body = .next (s.gFault k 1 0) := by
  have hb : gBelongs row w = true := by simp [gBelongs, illegal]
  have e1 : ¬ ((s.gcore k).pc ≥ (s.gcore k).imageLen) := by omega
  have e2 : ((s.gcore k).host && (s.gcore k).imem.get ((s.gcore k).pc / 4) != w) = false := by
    cases hh : (s.gcore k).host
    · rfl
    · simp [holds hh]
  have e3 : ((s.gcore k).ckclk == checkLimit k) = false := by simp; omega
  have e4 : ¬ ((s.gcore k).ckclk > checkLimit k) := by omega
  simp [State.gRun, hb, illegal, e1, e2, e3, e4, runs]

/-- A core that does not run does nothing with a word. -/
theorem State.gRun_still {s : State} {k : Nat} {w : BitVec 32} {row : Nat} {upset : Bool} (body : State → GRes)
    (hb : gBelongs row w = true) (still : s.coreSt k ≠ 1) : s.gRun k w upset row body = .next s := by
  simp [State.gRun, hb, still]

end Sys2Proof.Machine
end

