-- ==== Sys2Proof/Laws/Ops.lean ====
section
/-!
SUPPORT. What each shared operation can do, said once: events, records, refused writes, counters, claims, wakes and the gate
that every register access passes.
-/
namespace Sys2Proof.Machine

/-- The state with only its registers changed. -/
theorem State.wr_frame (s : State) (f : Fld) (v : Nat) : s.wr f v = { s with regs := (s.wr f v).regs } := rfl
theorem State.set1_frame (s : State) (f : Fld) : s.set1 f = { s with regs := (s.set1 f).regs } := rfl
theorem State.clr_frame (s : State) (f : Fld) : s.clr f = { s with regs := (s.clr f).regs } := rfl
theorem State.satAdd_frame (s : State) (f : Fld) (n : Nat) : s.satAdd f n = { s with regs := (s.satAdd f n).regs } := rfl

/-- An event changes only the programs' pending entries. -/
theorem State.event_frame (s : State) (code arg : Nat) :
    ∃ pend, s.event code arg = { s with core := { s.core with pend := pend } } := ⟨_, rfl⟩

/-- An event of one program changes only the pending entries. -/
theorem State.eventFor_frame (s : State) (prog code arg : Nat) :
    ∃ pend, s.eventFor prog code arg = { s with core := { s.core with pend := pend } } := by
  unfold State.eventFor; split
  · exact ⟨_, rfl⟩
  · exact ⟨s.core.pend, rfl⟩

/-- A fault noted changes only a status register of its region. -/
theorem State.noteFault_frame (s : State) (r : Record) : ∃ regs, s.noteFault r = { s with regs := regs } := by
  unfold State.noteFault
  split
  · split
    · exact ⟨s.regs, rfl⟩
    · split
      · exact ⟨_, rfl⟩
      · split
        · exact ⟨_, rfl⟩
        · exact ⟨s.regs, rfl⟩
  · exact ⟨s.regs, rfl⟩

/-- A record added changes registers, the ring, the store and pending entries only. -/
theorem State.addRecord_frame (s : State) (r : Record) : ∃ regs flt pend,
    s.addRecord r = { s with regs := regs, flt := flt, core := { s.core with pend := pend } } := by
  unfold State.addRecord
  by_cases hd : s.flag R.CF_STAT_DEVLOST = true <;> by_cases hs : r.sev ≥ 2 <;> simp only [hd, hs] <;> exact ⟨_, _, _, rfl⟩

/-- A record logged changes registers, the ring, the store and pending entries only (R381, R383). -/
theorem State.log_frame (s : State) (r : Record) : ∃ regs flt pend,
    s.log r = { s with regs := regs, flt := flt, core := { s.core with pend := pend } } := by
  obtain ⟨g, hg⟩ := s.noteFault_frame r
  unfold State.log
  rw [hg]
  dsimp only
  split
  · exact ⟨_, _, s.core.pend, rfl⟩
  · obtain ⟨a, b, c, h⟩ := State.addRecord_frame { s with regs := g } r
    exact ⟨a, b, c, h⟩

/-- A refused value changes nothing but what its record changes (R472, R494). -/
theorem State.badValue_frame (s : State) (off : Nat) : ∃ regs flt pend,
    s.badValue off = { s with regs := regs, flt := flt, core := { s.core with pend := pend } } := s.log_frame _

/-- A locked write changes nothing but what its record changes (R16, R467). -/
theorem State.lockViolation_frame (s : State) (off : Nat) : ∃ regs flt pend,
    s.lockViolation off = { s with regs := regs, flt := flt, core := { s.core with pend := pend } } := s.log_frame _

/-- A wake changes registers and the power island only. -/
theorem State.wake_frame (s : State) (src : Nat) : ∃ regs pow, s.wake src = { s with regs := regs, pow := pow } := by
  unfold State.wake
  dsimp only
  split
  · exact ⟨s.regs, s.pow, rfl⟩
  · split
    · split
      · exact ⟨_, _, rfl⟩
      · exact ⟨s.regs, s.pow, rfl⟩
    · exact ⟨_, _, rfl⟩

/-- A path's access wakes, or changes nothing. -/
theorem State.wakeFor_frame (s : State) (p : Path) (off : Nat) :
    ∃ regs pow, s.wakeFor p off = { s with regs := regs, pow := pow } := by
  unfold State.wakeFor; split
  · exact ⟨s.regs, s.pow, rfl⟩
  · exact s.wake_frame 4

/-- What the gate of a path lets a write do: nothing while the main die is held, a record while the path is shut, its
effect otherwise, on a state in which only a wake and the note of an early write have happened. -/
theorem State.viaPath_cases (s : State) (p : Path) (off : Nat) (f : State → State) :
    (s.boot.hold = true ∧ s.viaPath p off f = s) ∨
    (s.boot.hold = false ∧ s.pathShut p = true ∧ s.viaPath p off f = s.lockViolation off) ∨
    (s.boot.hold = false ∧ s.pathShut p = false ∧ s.viaPath p off f = f ((s.wakeFor p off).noteEarly p off)) := by
  unfold State.viaPath
  cases s.boot.hold <;> cases s.pathShut p <;> simp

/-- A read answers the value once, after a wake; nothing answers while the main die is held. -/
theorem State.reading_cases (s : State) (p : Path) (off : Nat) (f : State → BitVec 32 × State) :
    (s.boot.hold = true ∧ s.reading p off f = s) ∨
    (s.boot.hold = false ∧ s.reading p off f = (f (s.wakeFor p off)).2.send (.readData p off (f (s.wakeFor p off)).1)) := by
  unfold State.reading
  cases s.boot.hold <;> simp

/-- A counter's increment changes its count and registers only (R366). -/
theorem State.bump_frame (s : State) (bank k n : Nat) (sat : Bool) :
    ∃ regs cnt, s.bump bank k n sat = { s with regs := regs, ctr := { s.ctr with count := cnt } } := by
  unfold State.bump
  split
  · exact ⟨s.regs, s.ctr.count, rfl⟩
  · dsimp only
    generalize hb : decide ((s.ctr.count.get (bank * 128 + k)).toNat + n ≥ 2 ^ 48) = b
    cases b <;> exact ⟨_, _, rfl⟩

/-- A fold of counter increments changes counts and registers only. -/
theorem State.foldl_ctr_frame {α : Type} (g : State → α → State)
    (hg : ∀ s a, ∃ regs cnt, g s a = { s with regs := regs, ctr := { s.ctr with count := cnt } }) (l : List α) (s : State) :
    ∃ regs cnt, l.foldl g s = { s with regs := regs, ctr := { s.ctr with count := cnt } } := by
  induction l generalizing s with
  | nil => exact ⟨s.regs, s.ctr.count, rfl⟩
  | cons a l ih =>
    obtain ⟨r1, c1, h1⟩ := hg s a
    obtain ⟨r2, c2, h2⟩ := ih (g s a)
    exact ⟨r2, c2, by rw [List.foldl_cons, h2, h1]⟩

/-- Events counted change counts and registers only (R362 to R366). -/
theorem State.count_frame (s : State) (bank unit code n : Nat) (dom cls : Option Nat) :
    ∃ regs cnt, s.count bank unit code n dom cls = { s with regs := regs, ctr := { s.ctr with count := cnt } } := by
  unfold State.count
  obtain ⟨r1, c1, h1⟩ := State.foldl_ctr_frame (fun (s : State) i =>
    if ctrSelects (s.reg (ctlOff bank i)) (s.reg (filtOff bank i)) bank 0 code unit dom cls then
      s.bump bank i n (bit (s.reg (ctlOff bank i)) 29) else s)
    (fun s a => by
      dsimp only
      split
      · exact s.bump_frame ..
      · exact ⟨s.regs, s.ctr.count, rfl⟩) (s.enabledCtrs bank) s
  rw [h1]
  dsimp only
  split
  · exact ⟨r1, c1, rfl⟩
  · obtain ⟨r2, c2, h2⟩ := State.foldl_ctr_frame
      (fun (s : State) i => if fixedEvents.getD i 0 == code then s.bump bank (64 + i) n false else s)
      (fun s a => by
        dsimp only
        split
        · exact s.bump_frame ..
        · exact ⟨s.regs, s.ctr.count, rfl⟩) (List.range 16) { s with regs := r1, ctr := { s.ctr with count := c1 } }
    exact ⟨r2, c2, h2⟩

/-- A denied claim changes registers, counts, records and pending entries only (R34, R36). -/
theorem State.denyClaim_frame (s : State) (res claimant shown named : Nat) : ∃ regs cnt flt pend,
    s.denyClaim res claimant shown named =
      { s with regs := regs, ctr := { s.ctr with count := cnt }, flt := flt, core := { s.core with pend := pend } } := by
  unfold State.denyClaim
  dsimp only
  generalize hx : (((((s.set1 R.CHIP_CLAIMSTAT_DENIED).satAdd R.CHIP_CLAIMSTAT_COUNT 1).wr R.CHIP_CLAIMSTAT_RESOURCE res).wr
    R.CHIP_CLAIMSTAT_CLAIMANT claimant).wr R.CHIP_CLAIMSTAT_HOLDER shown) = x
  have e : x = { s with regs := x.regs } := by rw [← hx]; rfl
  obtain ⟨a, b, c, h⟩ := x.log_frame { type := 0x040B, level := 3, ukind := 7, detail := BitVec.ofNat 128 (res + claimant * 256 + named * 65536) }
  rw [h]
  obtain ⟨r, n, h'⟩ := State.count_frame { x with regs := a, flt := b, core := { x.core with pend := c } } 4 0 0x84 1 none none
  rw [h', e]
  exact ⟨_, _, _, _, rfl⟩

/-- A step with no command waiting lets a nanosecond pass. -/
theorem step_idle (s : State) (h : s.pending = []) : step s = .next s.tick := by
  unfold step; rw [h]

end Sys2Proof.Machine
end

