-- ==== Sys2Proof/Laws/Units.lean ====
section
/-!
SUPPORT. The laws of the units' own updates: what a changed channel, subchannel, bank, transaction, fill, migration, link end, lane or
ring reads as, and what it leaves as it was.
-/
namespace Sys2Proof.Machine

/-! ### Read after write -/

@[simp] theorem State.sub_updSub_same (s : State) (n b : Nat) (f : Sub → Sub) : (s.updSub n b f).sub n b = f (s.sub n b) :=
  Tab.get_upd_same _ _ _
theorem State.sub_updSub_other (s : State) (n b m c : Nat) (f : Sub → Sub) (h : m * 2 + c ≠ n * 2 + b) :
    (s.updSub n b f).sub m c = s.sub m c := Tab.get_upd_other _ _ _ _ h
@[simp] theorem State.chan_updChan_same (s : State) (n : Nat) (f : Chan → Chan) :
    (s.updChan n f).dram.chans.get n = f (s.dram.chans.get n) := Tab.get_upd_same _ _ _
theorem State.chan_updChan_other (s : State) (n m : Nat) (f : Chan → Chan) (h : m ≠ n) :
    (s.updChan n f).dram.chans.get m = s.dram.chans.get m := Tab.get_upd_other _ _ _ _ h
@[simp] theorem State.bank_updBank_same (s : State) (n b r k : Nat) (f : Bank → Bank) :
    (s.updBank n b r k f).bank n b r k = f (s.bank n b r k) := Tab.get_upd_same _ _ _
theorem State.bank_updBank_other (s : State) (n b r k m c q j : Nat) (f : Bank → Bank) (h : bankKey m c q j ≠ bankKey n b r k) :
    (s.updBank n b r k f).bank m c q j = s.bank m c q j := Tab.get_upd_other _ _ _ _ h
@[simp] theorem State.linkEnd_updEnd_same (s : State) (g : Nat) (f : LinkEnd → LinkEnd) :
    (s.updEnd g f).linkEnd g = f (s.linkEnd g) := Tab.get_upd_same _ _ _
theorem State.linkEnd_updEnd_other (s : State) (g h : Nat) (f : LinkEnd → LinkEnd) (d : h ≠ g) :
    (s.updEnd g f).linkEnd h = s.linkEnd h := Tab.get_upd_other _ _ _ _ d
@[simp] theorem State.laneOf_updLane_same (s : State) (g l : Nat) (f : Lane → Lane) :
    (s.updLane g l f).laneOf g l = f (s.laneOf g l) := Tab.get_upd_same _ _ _
theorem State.laneOf_updLane_other (s : State) (g l h m : Nat) (f : Lane → Lane) (d : h * 16 + m ≠ g * 16 + l) :
    (s.updLane g l f).laneOf h m = s.laneOf h m := Tab.get_upd_other _ _ _ _ d
@[simp] theorem State.ring_updRing_same (s : State) (k : Nat) (f : Ring → Ring) :
    (s.updRing k f).ring.rings.get k = f (s.ring.rings.get k) := Tab.get_upd_same _ _ _
theorem State.ring_updRing_other (s : State) (k j : Nat) (f : Ring → Ring) (h : j ≠ k) :
    (s.updRing k f).ring.rings.get j = s.ring.rings.get j := Tab.get_upd_other _ _ _ _ h

/-! ### What a changed subchannel leaves -/

@[simp] theorem State.updSub_gtc (s : State) (n b : Nat) (f : Sub → Sub) : (s.updSub n b f).gtc = s.gtc := rfl
@[simp] theorem State.updSub_regs (s : State) (n b : Nat) (f : Sub → Sub) : (s.updSub n b f).regs = s.regs := rfl
@[simp] theorem State.updSub_freeCtr (s : State) (n b : Nat) (f : Sub → Sub) : (s.updSub n b f).freeCtr = s.freeCtr := rfl
@[simp] theorem State.updSub_out (s : State) (n b : Nat) (f : Sub → Sub) : (s.updSub n b f).out = s.out := rfl
@[simp] theorem State.updSub_dom (s : State) (n b : Nat) (f : Sub → Sub) : (s.updSub n b f).dom = s.dom := rfl
@[simp] theorem State.updSub_kind (s : State) (n b : Nat) (f : Sub → Sub) : (s.updSub n b f).kind = s.kind := rfl
@[simp] theorem State.updSub_coh (s : State) (n b : Nat) (f : Sub → Sub) : (s.updSub n b f).coh = s.coh := rfl
@[simp] theorem State.updSub_mesh (s : State) (n b : Nat) (f : Sub → Sub) : (s.updSub n b f).mesh = s.mesh := rfl
@[simp] theorem State.updSub_tier (s : State) (n b : Nat) (f : Sub → Sub) : (s.updSub n b f).tier = s.tier := rfl
@[simp] theorem State.updSub_eng (s : State) (n b : Nat) (f : Sub → Sub) : (s.updSub n b f).eng = s.eng := rfl
@[simp] theorem State.updSub_claim (s : State) (n b : Nat) (f : Sub → Sub) : (s.updSub n b f).claim = s.claim := rfl
@[simp] theorem State.updSub_flt (s : State) (n b : Nat) (f : Sub → Sub) : (s.updSub n b f).flt = s.flt := rfl
@[simp] theorem State.updSub_ctr (s : State) (n b : Nat) (f : Sub → Sub) : (s.updSub n b f).ctr = s.ctr := rfl
@[simp] theorem State.updSub_rgl (s : State) (n b : Nat) (f : Sub → Sub) : (s.updSub n b f).rgl = s.rgl := rfl
@[simp] theorem State.updSub_host (s : State) (n b : Nat) (f : Sub → Sub) : (s.updSub n b f).host = s.host := rfl
@[simp] theorem State.updSub_lane (s : State) (n b : Nat) (f : Sub → Sub) : (s.updSub n b f).lane = s.lane := rfl
@[simp] theorem State.updSub_link (s : State) (n b : Nat) (f : Sub → Sub) : (s.updSub n b f).link = s.link := rfl
@[simp] theorem State.updSub_core (s : State) (n b : Nat) (f : Sub → Sub) : (s.updSub n b f).core = s.core := rfl
@[simp] theorem State.updSub_ring (s : State) (n b : Nat) (f : Sub → Sub) : (s.updSub n b f).ring = s.ring := rfl
@[simp] theorem State.updSub_peat (s : State) (n b : Nat) (f : Sub → Sub) : (s.updSub n b f).peat = s.peat := rfl
@[simp] theorem State.updSub_feed (s : State) (n b : Nat) (f : Sub → Sub) : (s.updSub n b f).feed = s.feed := rfl
@[simp] theorem State.updSub_pow (s : State) (n b : Nat) (f : Sub → Sub) : (s.updSub n b f).pow = s.pow := rfl
@[simp] theorem State.updSub_boot (s : State) (n b : Nat) (f : Sub → Sub) : (s.updSub n b f).boot = s.boot := rfl
@[simp] theorem State.updSub_mgmt (s : State) (n b : Nat) (f : Sub → Sub) : (s.updSub n b f).mgmt = s.mgmt := rfl
@[simp] theorem State.updSub_pending (s : State) (n b : Nat) (f : Sub → Sub) : (s.updSub n b f).pending = s.pending := rfl

/-! ### What a changed channel leaves -/

@[simp] theorem State.updChan_gtc (s : State) (n : Nat) (f : Chan → Chan) : (s.updChan n f).gtc = s.gtc := rfl
@[simp] theorem State.updChan_regs (s : State) (n : Nat) (f : Chan → Chan) : (s.updChan n f).regs = s.regs := rfl
@[simp] theorem State.updChan_freeCtr (s : State) (n : Nat) (f : Chan → Chan) : (s.updChan n f).freeCtr = s.freeCtr := rfl
@[simp] theorem State.updChan_out (s : State) (n : Nat) (f : Chan → Chan) : (s.updChan n f).out = s.out := rfl
@[simp] theorem State.updChan_dom (s : State) (n : Nat) (f : Chan → Chan) : (s.updChan n f).dom = s.dom := rfl
@[simp] theorem State.updChan_kind (s : State) (n : Nat) (f : Chan → Chan) : (s.updChan n f).kind = s.kind := rfl
@[simp] theorem State.updChan_coh (s : State) (n : Nat) (f : Chan → Chan) : (s.updChan n f).coh = s.coh := rfl
@[simp] theorem State.updChan_mesh (s : State) (n : Nat) (f : Chan → Chan) : (s.updChan n f).mesh = s.mesh := rfl
@[simp] theorem State.updChan_tier (s : State) (n : Nat) (f : Chan → Chan) : (s.updChan n f).tier = s.tier := rfl
@[simp] theorem State.updChan_eng (s : State) (n : Nat) (f : Chan → Chan) : (s.updChan n f).eng = s.eng := rfl
@[simp] theorem State.updChan_claim (s : State) (n : Nat) (f : Chan → Chan) : (s.updChan n f).claim = s.claim := rfl
@[simp] theorem State.updChan_flt (s : State) (n : Nat) (f : Chan → Chan) : (s.updChan n f).flt = s.flt := rfl
@[simp] theorem State.updChan_ctr (s : State) (n : Nat) (f : Chan → Chan) : (s.updChan n f).ctr = s.ctr := rfl
@[simp] theorem State.updChan_rgl (s : State) (n : Nat) (f : Chan → Chan) : (s.updChan n f).rgl = s.rgl := rfl
@[simp] theorem State.updChan_host (s : State) (n : Nat) (f : Chan → Chan) : (s.updChan n f).host = s.host := rfl
@[simp] theorem State.updChan_lane (s : State) (n : Nat) (f : Chan → Chan) : (s.updChan n f).lane = s.lane := rfl
@[simp] theorem State.updChan_link (s : State) (n : Nat) (f : Chan → Chan) : (s.updChan n f).link = s.link := rfl
@[simp] theorem State.updChan_core (s : State) (n : Nat) (f : Chan → Chan) : (s.updChan n f).core = s.core := rfl
@[simp] theorem State.updChan_ring (s : State) (n : Nat) (f : Chan → Chan) : (s.updChan n f).ring = s.ring := rfl
@[simp] theorem State.updChan_peat (s : State) (n : Nat) (f : Chan → Chan) : (s.updChan n f).peat = s.peat := rfl
@[simp] theorem State.updChan_feed (s : State) (n : Nat) (f : Chan → Chan) : (s.updChan n f).feed = s.feed := rfl
@[simp] theorem State.updChan_pow (s : State) (n : Nat) (f : Chan → Chan) : (s.updChan n f).pow = s.pow := rfl
@[simp] theorem State.updChan_boot (s : State) (n : Nat) (f : Chan → Chan) : (s.updChan n f).boot = s.boot := rfl
@[simp] theorem State.updChan_mgmt (s : State) (n : Nat) (f : Chan → Chan) : (s.updChan n f).mgmt = s.mgmt := rfl
@[simp] theorem State.updChan_pending (s : State) (n : Nat) (f : Chan → Chan) : (s.updChan n f).pending = s.pending := rfl

/-! ### What a changed bank leaves -/

@[simp] theorem State.updBank_gtc (s : State) (n b r k : Nat) (f : Bank → Bank) : (s.updBank n b r k f).gtc = s.gtc := rfl
@[simp] theorem State.updBank_regs (s : State) (n b r k : Nat) (f : Bank → Bank) : (s.updBank n b r k f).regs = s.regs := rfl
@[simp] theorem State.updBank_freeCtr (s : State) (n b r k : Nat) (f : Bank → Bank) :
    (s.updBank n b r k f).freeCtr = s.freeCtr := rfl
@[simp] theorem State.updBank_out (s : State) (n b r k : Nat) (f : Bank → Bank) : (s.updBank n b r k f).out = s.out := rfl
@[simp] theorem State.updBank_dom (s : State) (n b r k : Nat) (f : Bank → Bank) : (s.updBank n b r k f).dom = s.dom := rfl
@[simp] theorem State.updBank_kind (s : State) (n b r k : Nat) (f : Bank → Bank) : (s.updBank n b r k f).kind = s.kind := rfl
@[simp] theorem State.updBank_coh (s : State) (n b r k : Nat) (f : Bank → Bank) : (s.updBank n b r k f).coh = s.coh := rfl
@[simp] theorem State.updBank_mesh (s : State) (n b r k : Nat) (f : Bank → Bank) : (s.updBank n b r k f).mesh = s.mesh := rfl
@[simp] theorem State.updBank_tier (s : State) (n b r k : Nat) (f : Bank → Bank) : (s.updBank n b r k f).tier = s.tier := rfl
@[simp] theorem State.updBank_eng (s : State) (n b r k : Nat) (f : Bank → Bank) : (s.updBank n b r k f).eng = s.eng := rfl
@[simp] theorem State.updBank_claim (s : State) (n b r k : Nat) (f : Bank → Bank) : (s.updBank n b r k f).claim = s.claim := rfl
@[simp] theorem State.updBank_flt (s : State) (n b r k : Nat) (f : Bank → Bank) : (s.updBank n b r k f).flt = s.flt := rfl
@[simp] theorem State.updBank_ctr (s : State) (n b r k : Nat) (f : Bank → Bank) : (s.updBank n b r k f).ctr = s.ctr := rfl
@[simp] theorem State.updBank_rgl (s : State) (n b r k : Nat) (f : Bank → Bank) : (s.updBank n b r k f).rgl = s.rgl := rfl
@[simp] theorem State.updBank_host (s : State) (n b r k : Nat) (f : Bank → Bank) : (s.updBank n b r k f).host = s.host := rfl
@[simp] theorem State.updBank_lane (s : State) (n b r k : Nat) (f : Bank → Bank) : (s.updBank n b r k f).lane = s.lane := rfl
@[simp] theorem State.updBank_link (s : State) (n b r k : Nat) (f : Bank → Bank) : (s.updBank n b r k f).link = s.link := rfl
@[simp] theorem State.updBank_core (s : State) (n b r k : Nat) (f : Bank → Bank) : (s.updBank n b r k f).core = s.core := rfl
@[simp] theorem State.updBank_ring (s : State) (n b r k : Nat) (f : Bank → Bank) : (s.updBank n b r k f).ring = s.ring := rfl
@[simp] theorem State.updBank_peat (s : State) (n b r k : Nat) (f : Bank → Bank) : (s.updBank n b r k f).peat = s.peat := rfl
@[simp] theorem State.updBank_feed (s : State) (n b r k : Nat) (f : Bank → Bank) : (s.updBank n b r k f).feed = s.feed := rfl
@[simp] theorem State.updBank_pow (s : State) (n b r k : Nat) (f : Bank → Bank) : (s.updBank n b r k f).pow = s.pow := rfl
@[simp] theorem State.updBank_boot (s : State) (n b r k : Nat) (f : Bank → Bank) : (s.updBank n b r k f).boot = s.boot := rfl
@[simp] theorem State.updBank_mgmt (s : State) (n b r k : Nat) (f : Bank → Bank) : (s.updBank n b r k f).mgmt = s.mgmt := rfl
@[simp] theorem State.updBank_pending (s : State) (n b r k : Nat) (f : Bank → Bank) :
    (s.updBank n b r k f).pending = s.pending := rfl

/-! ### What a changed home transaction leaves -/

@[simp] theorem State.updTx_gtc (s : State) (i : Nat) (f : HomeTx → HomeTx) : (s.updTx i f).gtc = s.gtc := rfl
@[simp] theorem State.updTx_regs (s : State) (i : Nat) (f : HomeTx → HomeTx) : (s.updTx i f).regs = s.regs := rfl
@[simp] theorem State.updTx_freeCtr (s : State) (i : Nat) (f : HomeTx → HomeTx) : (s.updTx i f).freeCtr = s.freeCtr := rfl
@[simp] theorem State.updTx_out (s : State) (i : Nat) (f : HomeTx → HomeTx) : (s.updTx i f).out = s.out := rfl
@[simp] theorem State.updTx_dom (s : State) (i : Nat) (f : HomeTx → HomeTx) : (s.updTx i f).dom = s.dom := rfl
@[simp] theorem State.updTx_kind (s : State) (i : Nat) (f : HomeTx → HomeTx) : (s.updTx i f).kind = s.kind := rfl
@[simp] theorem State.updTx_mesh (s : State) (i : Nat) (f : HomeTx → HomeTx) : (s.updTx i f).mesh = s.mesh := rfl
@[simp] theorem State.updTx_tier (s : State) (i : Nat) (f : HomeTx → HomeTx) : (s.updTx i f).tier = s.tier := rfl
@[simp] theorem State.updTx_eng (s : State) (i : Nat) (f : HomeTx → HomeTx) : (s.updTx i f).eng = s.eng := rfl
@[simp] theorem State.updTx_dram (s : State) (i : Nat) (f : HomeTx → HomeTx) : (s.updTx i f).dram = s.dram := rfl
@[simp] theorem State.updTx_claim (s : State) (i : Nat) (f : HomeTx → HomeTx) : (s.updTx i f).claim = s.claim := rfl
@[simp] theorem State.updTx_flt (s : State) (i : Nat) (f : HomeTx → HomeTx) : (s.updTx i f).flt = s.flt := rfl
@[simp] theorem State.updTx_ctr (s : State) (i : Nat) (f : HomeTx → HomeTx) : (s.updTx i f).ctr = s.ctr := rfl
@[simp] theorem State.updTx_rgl (s : State) (i : Nat) (f : HomeTx → HomeTx) : (s.updTx i f).rgl = s.rgl := rfl
@[simp] theorem State.updTx_host (s : State) (i : Nat) (f : HomeTx → HomeTx) : (s.updTx i f).host = s.host := rfl
@[simp] theorem State.updTx_lane (s : State) (i : Nat) (f : HomeTx → HomeTx) : (s.updTx i f).lane = s.lane := rfl
@[simp] theorem State.updTx_link (s : State) (i : Nat) (f : HomeTx → HomeTx) : (s.updTx i f).link = s.link := rfl
@[simp] theorem State.updTx_core (s : State) (i : Nat) (f : HomeTx → HomeTx) : (s.updTx i f).core = s.core := rfl
@[simp] theorem State.updTx_ring (s : State) (i : Nat) (f : HomeTx → HomeTx) : (s.updTx i f).ring = s.ring := rfl
@[simp] theorem State.updTx_peat (s : State) (i : Nat) (f : HomeTx → HomeTx) : (s.updTx i f).peat = s.peat := rfl
@[simp] theorem State.updTx_feed (s : State) (i : Nat) (f : HomeTx → HomeTx) : (s.updTx i f).feed = s.feed := rfl
@[simp] theorem State.updTx_pow (s : State) (i : Nat) (f : HomeTx → HomeTx) : (s.updTx i f).pow = s.pow := rfl
@[simp] theorem State.updTx_boot (s : State) (i : Nat) (f : HomeTx → HomeTx) : (s.updTx i f).boot = s.boot := rfl
@[simp] theorem State.updTx_mgmt (s : State) (i : Nat) (f : HomeTx → HomeTx) : (s.updTx i f).mgmt = s.mgmt := rfl
@[simp] theorem State.updTx_pending (s : State) (i : Nat) (f : HomeTx → HomeTx) : (s.updTx i f).pending = s.pending := rfl

/-! ### What a changed block fill leaves -/

@[simp] theorem State.updFill_gtc (s : State) (i : Nat) (f : Fill → Fill) : (s.updFill i f).gtc = s.gtc := rfl
@[simp] theorem State.updFill_regs (s : State) (i : Nat) (f : Fill → Fill) : (s.updFill i f).regs = s.regs := rfl
@[simp] theorem State.updFill_freeCtr (s : State) (i : Nat) (f : Fill → Fill) : (s.updFill i f).freeCtr = s.freeCtr := rfl
@[simp] theorem State.updFill_out (s : State) (i : Nat) (f : Fill → Fill) : (s.updFill i f).out = s.out := rfl
@[simp] theorem State.updFill_dom (s : State) (i : Nat) (f : Fill → Fill) : (s.updFill i f).dom = s.dom := rfl
@[simp] theorem State.updFill_coh (s : State) (i : Nat) (f : Fill → Fill) : (s.updFill i f).coh = s.coh := rfl
@[simp] theorem State.updFill_mesh (s : State) (i : Nat) (f : Fill → Fill) : (s.updFill i f).mesh = s.mesh := rfl
@[simp] theorem State.updFill_tier (s : State) (i : Nat) (f : Fill → Fill) : (s.updFill i f).tier = s.tier := rfl
@[simp] theorem State.updFill_eng (s : State) (i : Nat) (f : Fill → Fill) : (s.updFill i f).eng = s.eng := rfl
@[simp] theorem State.updFill_dram (s : State) (i : Nat) (f : Fill → Fill) : (s.updFill i f).dram = s.dram := rfl
@[simp] theorem State.updFill_claim (s : State) (i : Nat) (f : Fill → Fill) : (s.updFill i f).claim = s.claim := rfl
@[simp] theorem State.updFill_flt (s : State) (i : Nat) (f : Fill → Fill) : (s.updFill i f).flt = s.flt := rfl
@[simp] theorem State.updFill_ctr (s : State) (i : Nat) (f : Fill → Fill) : (s.updFill i f).ctr = s.ctr := rfl
@[simp] theorem State.updFill_rgl (s : State) (i : Nat) (f : Fill → Fill) : (s.updFill i f).rgl = s.rgl := rfl
@[simp] theorem State.updFill_host (s : State) (i : Nat) (f : Fill → Fill) : (s.updFill i f).host = s.host := rfl
@[simp] theorem State.updFill_lane (s : State) (i : Nat) (f : Fill → Fill) : (s.updFill i f).lane = s.lane := rfl
@[simp] theorem State.updFill_link (s : State) (i : Nat) (f : Fill → Fill) : (s.updFill i f).link = s.link := rfl
@[simp] theorem State.updFill_core (s : State) (i : Nat) (f : Fill → Fill) : (s.updFill i f).core = s.core := rfl
@[simp] theorem State.updFill_ring (s : State) (i : Nat) (f : Fill → Fill) : (s.updFill i f).ring = s.ring := rfl
@[simp] theorem State.updFill_peat (s : State) (i : Nat) (f : Fill → Fill) : (s.updFill i f).peat = s.peat := rfl
@[simp] theorem State.updFill_feed (s : State) (i : Nat) (f : Fill → Fill) : (s.updFill i f).feed = s.feed := rfl
@[simp] theorem State.updFill_pow (s : State) (i : Nat) (f : Fill → Fill) : (s.updFill i f).pow = s.pow := rfl
@[simp] theorem State.updFill_boot (s : State) (i : Nat) (f : Fill → Fill) : (s.updFill i f).boot = s.boot := rfl
@[simp] theorem State.updFill_mgmt (s : State) (i : Nat) (f : Fill → Fill) : (s.updFill i f).mgmt = s.mgmt := rfl
@[simp] theorem State.updFill_pending (s : State) (i : Nat) (f : Fill → Fill) : (s.updFill i f).pending = s.pending := rfl

/-! ### What a changed migration leaves -/

@[simp] theorem State.updMig_gtc (s : State) (i : Nat) (f : Mig → Mig) : (s.updMig i f).gtc = s.gtc := rfl
@[simp] theorem State.updMig_regs (s : State) (i : Nat) (f : Mig → Mig) : (s.updMig i f).regs = s.regs := rfl
@[simp] theorem State.updMig_freeCtr (s : State) (i : Nat) (f : Mig → Mig) : (s.updMig i f).freeCtr = s.freeCtr := rfl
@[simp] theorem State.updMig_out (s : State) (i : Nat) (f : Mig → Mig) : (s.updMig i f).out = s.out := rfl
@[simp] theorem State.updMig_dom (s : State) (i : Nat) (f : Mig → Mig) : (s.updMig i f).dom = s.dom := rfl
@[simp] theorem State.updMig_kind (s : State) (i : Nat) (f : Mig → Mig) : (s.updMig i f).kind = s.kind := rfl
@[simp] theorem State.updMig_coh (s : State) (i : Nat) (f : Mig → Mig) : (s.updMig i f).coh = s.coh := rfl
@[simp] theorem State.updMig_mesh (s : State) (i : Nat) (f : Mig → Mig) : (s.updMig i f).mesh = s.mesh := rfl
@[simp] theorem State.updMig_eng (s : State) (i : Nat) (f : Mig → Mig) : (s.updMig i f).eng = s.eng := rfl
@[simp] theorem State.updMig_dram (s : State) (i : Nat) (f : Mig → Mig) : (s.updMig i f).dram = s.dram := rfl
@[simp] theorem State.updMig_claim (s : State) (i : Nat) (f : Mig → Mig) : (s.updMig i f).claim = s.claim := rfl
@[simp] theorem State.updMig_flt (s : State) (i : Nat) (f : Mig → Mig) : (s.updMig i f).flt = s.flt := rfl
@[simp] theorem State.updMig_ctr (s : State) (i : Nat) (f : Mig → Mig) : (s.updMig i f).ctr = s.ctr := rfl
@[simp] theorem State.updMig_rgl (s : State) (i : Nat) (f : Mig → Mig) : (s.updMig i f).rgl = s.rgl := rfl
@[simp] theorem State.updMig_host (s : State) (i : Nat) (f : Mig → Mig) : (s.updMig i f).host = s.host := rfl
@[simp] theorem State.updMig_lane (s : State) (i : Nat) (f : Mig → Mig) : (s.updMig i f).lane = s.lane := rfl
@[simp] theorem State.updMig_link (s : State) (i : Nat) (f : Mig → Mig) : (s.updMig i f).link = s.link := rfl
@[simp] theorem State.updMig_core (s : State) (i : Nat) (f : Mig → Mig) : (s.updMig i f).core = s.core := rfl
@[simp] theorem State.updMig_ring (s : State) (i : Nat) (f : Mig → Mig) : (s.updMig i f).ring = s.ring := rfl
@[simp] theorem State.updMig_peat (s : State) (i : Nat) (f : Mig → Mig) : (s.updMig i f).peat = s.peat := rfl
@[simp] theorem State.updMig_feed (s : State) (i : Nat) (f : Mig → Mig) : (s.updMig i f).feed = s.feed := rfl
@[simp] theorem State.updMig_pow (s : State) (i : Nat) (f : Mig → Mig) : (s.updMig i f).pow = s.pow := rfl
@[simp] theorem State.updMig_boot (s : State) (i : Nat) (f : Mig → Mig) : (s.updMig i f).boot = s.boot := rfl
@[simp] theorem State.updMig_mgmt (s : State) (i : Nat) (f : Mig → Mig) : (s.updMig i f).mgmt = s.mgmt := rfl
@[simp] theorem State.updMig_pending (s : State) (i : Nat) (f : Mig → Mig) : (s.updMig i f).pending = s.pending := rfl

/-! ### What a changed end of a link leaves -/

@[simp] theorem State.updEnd_gtc (s : State) (g : Nat) (f : LinkEnd → LinkEnd) : (s.updEnd g f).gtc = s.gtc := rfl
@[simp] theorem State.updEnd_regs (s : State) (g : Nat) (f : LinkEnd → LinkEnd) : (s.updEnd g f).regs = s.regs := rfl
@[simp] theorem State.updEnd_freeCtr (s : State) (g : Nat) (f : LinkEnd → LinkEnd) : (s.updEnd g f).freeCtr = s.freeCtr := rfl
@[simp] theorem State.updEnd_out (s : State) (g : Nat) (f : LinkEnd → LinkEnd) : (s.updEnd g f).out = s.out := rfl
@[simp] theorem State.updEnd_dom (s : State) (g : Nat) (f : LinkEnd → LinkEnd) : (s.updEnd g f).dom = s.dom := rfl
@[simp] theorem State.updEnd_kind (s : State) (g : Nat) (f : LinkEnd → LinkEnd) : (s.updEnd g f).kind = s.kind := rfl
@[simp] theorem State.updEnd_coh (s : State) (g : Nat) (f : LinkEnd → LinkEnd) : (s.updEnd g f).coh = s.coh := rfl
@[simp] theorem State.updEnd_mesh (s : State) (g : Nat) (f : LinkEnd → LinkEnd) : (s.updEnd g f).mesh = s.mesh := rfl
@[simp] theorem State.updEnd_tier (s : State) (g : Nat) (f : LinkEnd → LinkEnd) : (s.updEnd g f).tier = s.tier := rfl
@[simp] theorem State.updEnd_eng (s : State) (g : Nat) (f : LinkEnd → LinkEnd) : (s.updEnd g f).eng = s.eng := rfl
@[simp] theorem State.updEnd_dram (s : State) (g : Nat) (f : LinkEnd → LinkEnd) : (s.updEnd g f).dram = s.dram := rfl
@[simp] theorem State.updEnd_claim (s : State) (g : Nat) (f : LinkEnd → LinkEnd) : (s.updEnd g f).claim = s.claim := rfl
@[simp] theorem State.updEnd_flt (s : State) (g : Nat) (f : LinkEnd → LinkEnd) : (s.updEnd g f).flt = s.flt := rfl
@[simp] theorem State.updEnd_ctr (s : State) (g : Nat) (f : LinkEnd → LinkEnd) : (s.updEnd g f).ctr = s.ctr := rfl
@[simp] theorem State.updEnd_rgl (s : State) (g : Nat) (f : LinkEnd → LinkEnd) : (s.updEnd g f).rgl = s.rgl := rfl
@[simp] theorem State.updEnd_host (s : State) (g : Nat) (f : LinkEnd → LinkEnd) : (s.updEnd g f).host = s.host := rfl
@[simp] theorem State.updEnd_lane (s : State) (g : Nat) (f : LinkEnd → LinkEnd) : (s.updEnd g f).lane = s.lane := rfl
@[simp] theorem State.updEnd_core (s : State) (g : Nat) (f : LinkEnd → LinkEnd) : (s.updEnd g f).core = s.core := rfl
@[simp] theorem State.updEnd_ring (s : State) (g : Nat) (f : LinkEnd → LinkEnd) : (s.updEnd g f).ring = s.ring := rfl
@[simp] theorem State.updEnd_peat (s : State) (g : Nat) (f : LinkEnd → LinkEnd) : (s.updEnd g f).peat = s.peat := rfl
@[simp] theorem State.updEnd_feed (s : State) (g : Nat) (f : LinkEnd → LinkEnd) : (s.updEnd g f).feed = s.feed := rfl
@[simp] theorem State.updEnd_pow (s : State) (g : Nat) (f : LinkEnd → LinkEnd) : (s.updEnd g f).pow = s.pow := rfl
@[simp] theorem State.updEnd_boot (s : State) (g : Nat) (f : LinkEnd → LinkEnd) : (s.updEnd g f).boot = s.boot := rfl
@[simp] theorem State.updEnd_mgmt (s : State) (g : Nat) (f : LinkEnd → LinkEnd) : (s.updEnd g f).mgmt = s.mgmt := rfl
@[simp] theorem State.updEnd_pending (s : State) (g : Nat) (f : LinkEnd → LinkEnd) : (s.updEnd g f).pending = s.pending := rfl

/-! ### What a changed lane leaves -/

@[simp] theorem State.updLane_gtc (s : State) (g l : Nat) (f : Lane → Lane) : (s.updLane g l f).gtc = s.gtc := rfl
@[simp] theorem State.updLane_regs (s : State) (g l : Nat) (f : Lane → Lane) : (s.updLane g l f).regs = s.regs := rfl
@[simp] theorem State.updLane_freeCtr (s : State) (g l : Nat) (f : Lane → Lane) : (s.updLane g l f).freeCtr = s.freeCtr := rfl
@[simp] theorem State.updLane_out (s : State) (g l : Nat) (f : Lane → Lane) : (s.updLane g l f).out = s.out := rfl
@[simp] theorem State.updLane_dom (s : State) (g l : Nat) (f : Lane → Lane) : (s.updLane g l f).dom = s.dom := rfl
@[simp] theorem State.updLane_kind (s : State) (g l : Nat) (f : Lane → Lane) : (s.updLane g l f).kind = s.kind := rfl
@[simp] theorem State.updLane_coh (s : State) (g l : Nat) (f : Lane → Lane) : (s.updLane g l f).coh = s.coh := rfl
@[simp] theorem State.updLane_mesh (s : State) (g l : Nat) (f : Lane → Lane) : (s.updLane g l f).mesh = s.mesh := rfl
@[simp] theorem State.updLane_tier (s : State) (g l : Nat) (f : Lane → Lane) : (s.updLane g l f).tier = s.tier := rfl
@[simp] theorem State.updLane_eng (s : State) (g l : Nat) (f : Lane → Lane) : (s.updLane g l f).eng = s.eng := rfl
@[simp] theorem State.updLane_dram (s : State) (g l : Nat) (f : Lane → Lane) : (s.updLane g l f).dram = s.dram := rfl
@[simp] theorem State.updLane_claim (s : State) (g l : Nat) (f : Lane → Lane) : (s.updLane g l f).claim = s.claim := rfl
@[simp] theorem State.updLane_flt (s : State) (g l : Nat) (f : Lane → Lane) : (s.updLane g l f).flt = s.flt := rfl
@[simp] theorem State.updLane_ctr (s : State) (g l : Nat) (f : Lane → Lane) : (s.updLane g l f).ctr = s.ctr := rfl
@[simp] theorem State.updLane_rgl (s : State) (g l : Nat) (f : Lane → Lane) : (s.updLane g l f).rgl = s.rgl := rfl
@[simp] theorem State.updLane_host (s : State) (g l : Nat) (f : Lane → Lane) : (s.updLane g l f).host = s.host := rfl
@[simp] theorem State.updLane_link (s : State) (g l : Nat) (f : Lane → Lane) : (s.updLane g l f).link = s.link := rfl
@[simp] theorem State.updLane_core (s : State) (g l : Nat) (f : Lane → Lane) : (s.updLane g l f).core = s.core := rfl
@[simp] theorem State.updLane_ring (s : State) (g l : Nat) (f : Lane → Lane) : (s.updLane g l f).ring = s.ring := rfl
@[simp] theorem State.updLane_peat (s : State) (g l : Nat) (f : Lane → Lane) : (s.updLane g l f).peat = s.peat := rfl
@[simp] theorem State.updLane_feed (s : State) (g l : Nat) (f : Lane → Lane) : (s.updLane g l f).feed = s.feed := rfl
@[simp] theorem State.updLane_pow (s : State) (g l : Nat) (f : Lane → Lane) : (s.updLane g l f).pow = s.pow := rfl
@[simp] theorem State.updLane_boot (s : State) (g l : Nat) (f : Lane → Lane) : (s.updLane g l f).boot = s.boot := rfl
@[simp] theorem State.updLane_mgmt (s : State) (g l : Nat) (f : Lane → Lane) : (s.updLane g l f).mgmt = s.mgmt := rfl
@[simp] theorem State.updLane_pending (s : State) (g l : Nat) (f : Lane → Lane) : (s.updLane g l f).pending = s.pending := rfl

/-! ### What a changed ring leaves -/

@[simp] theorem State.updRing_gtc (s : State) (k : Nat) (f : Ring → Ring) : (s.updRing k f).gtc = s.gtc := rfl
@[simp] theorem State.updRing_regs (s : State) (k : Nat) (f : Ring → Ring) : (s.updRing k f).regs = s.regs := rfl
@[simp] theorem State.updRing_freeCtr (s : State) (k : Nat) (f : Ring → Ring) : (s.updRing k f).freeCtr = s.freeCtr := rfl
@[simp] theorem State.updRing_out (s : State) (k : Nat) (f : Ring → Ring) : (s.updRing k f).out = s.out := rfl
@[simp] theorem State.updRing_dom (s : State) (k : Nat) (f : Ring → Ring) : (s.updRing k f).dom = s.dom := rfl
@[simp] theorem State.updRing_kind (s : State) (k : Nat) (f : Ring → Ring) : (s.updRing k f).kind = s.kind := rfl
@[simp] theorem State.updRing_coh (s : State) (k : Nat) (f : Ring → Ring) : (s.updRing k f).coh = s.coh := rfl
@[simp] theorem State.updRing_mesh (s : State) (k : Nat) (f : Ring → Ring) : (s.updRing k f).mesh = s.mesh := rfl
@[simp] theorem State.updRing_tier (s : State) (k : Nat) (f : Ring → Ring) : (s.updRing k f).tier = s.tier := rfl
@[simp] theorem State.updRing_eng (s : State) (k : Nat) (f : Ring → Ring) : (s.updRing k f).eng = s.eng := rfl
@[simp] theorem State.updRing_dram (s : State) (k : Nat) (f : Ring → Ring) : (s.updRing k f).dram = s.dram := rfl
@[simp] theorem State.updRing_claim (s : State) (k : Nat) (f : Ring → Ring) : (s.updRing k f).claim = s.claim := rfl
@[simp] theorem State.updRing_flt (s : State) (k : Nat) (f : Ring → Ring) : (s.updRing k f).flt = s.flt := rfl
@[simp] theorem State.updRing_ctr (s : State) (k : Nat) (f : Ring → Ring) : (s.updRing k f).ctr = s.ctr := rfl
@[simp] theorem State.updRing_rgl (s : State) (k : Nat) (f : Ring → Ring) : (s.updRing k f).rgl = s.rgl := rfl
@[simp] theorem State.updRing_host (s : State) (k : Nat) (f : Ring → Ring) : (s.updRing k f).host = s.host := rfl
@[simp] theorem State.updRing_lane (s : State) (k : Nat) (f : Ring → Ring) : (s.updRing k f).lane = s.lane := rfl
@[simp] theorem State.updRing_link (s : State) (k : Nat) (f : Ring → Ring) : (s.updRing k f).link = s.link := rfl
@[simp] theorem State.updRing_core (s : State) (k : Nat) (f : Ring → Ring) : (s.updRing k f).core = s.core := rfl
@[simp] theorem State.updRing_peat (s : State) (k : Nat) (f : Ring → Ring) : (s.updRing k f).peat = s.peat := rfl
@[simp] theorem State.updRing_feed (s : State) (k : Nat) (f : Ring → Ring) : (s.updRing k f).feed = s.feed := rfl
@[simp] theorem State.updRing_pow (s : State) (k : Nat) (f : Ring → Ring) : (s.updRing k f).pow = s.pow := rfl
@[simp] theorem State.updRing_boot (s : State) (k : Nat) (f : Ring → Ring) : (s.updRing k f).boot = s.boot := rfl
@[simp] theorem State.updRing_mgmt (s : State) (k : Nat) (f : Ring → Ring) : (s.updRing k f).mgmt = s.mgmt := rfl
@[simp] theorem State.updRing_pending (s : State) (k : Nat) (f : Ring → Ring) : (s.updRing k f).pending = s.pending := rfl

end Sys2Proof.Machine
end

