-- ==== Sys2Proof/Tests/Slice0.lean ====
section
/-!
SUPPORT. The model's own tests: ill-formed commands that the check refuses, words of the spec's example programs read back as the
instructions they stand for, and, for every statement with hypotheses, states and operands that meet the hypotheses of its clauses
(`witness_…`), boundary values among them.
-/
namespace Sys2Proof.Tests

open Sys2Proof.Machine

set_option Elab.async false

/-! ### Small states -/

/-- A state with a core running a word of a host program at PC 0, with some general registers. -/
def onHost (s : State) (k : Nat) (w : BitVec 32) (g : List (Nat × BitVec 64)) : State :=
  (s.updCore k fun c => { c with host := true, codeLen := 4, imem := ⟨[(0, w)]⟩, g := ⟨g⟩ }).setCoreSt k 1
/-- A state with a core running its ROM program at PC 0, with some general registers. -/
def onRom (s : State) (k : Nat) (g : List (Nat × BitVec 64)) : State :=
  (s.updCore k fun c => { c with g := ⟨g⟩ }).setCoreSt k 1
/-- A core with its ticket 0 in a state for an operation, the others free. -/
def ticket0 (s : State) (k op st : Nat) : State :=
  s.updCore k fun c => { c with tickets := ⟨[(0, { op := op, st := st, status := 0, a := 0, b := 0 })]⟩ }
/-- A core with an open commit group. -/
def withGroup (s : State) (k : Nat) (g : List GroupSlot) : State := s.updCore k fun c => { c with group := some g }
/-- The entry of a valid domain of 2 MiB from DPA 0 on channels 0 to 3, homed on device 0, that every port may read and write. -/
def plainDom : Entry := setFld (setFld (setFld (setFld entryReset 63 63 1) 114 89 1) 287 256 0xFFFFFFFF) 319 288 0xFFFFFFFF
/-- The entry of a domain as `plainDom` that encrypts. -/
def encDom : Entry := setFld plainDom 61 61 1
/-- A state with that domain committed as domain 5. -/
def withDom (s : State) : State := s.setEntry 5 plainDom
/-- The main die out of reset, ready and in Blaze, with no frame free. -/
def awake : State :=
  { ({ State.reset with boot := { State.reset.boot with supplies := true, hold := false } } : State) with
    regs := ⟨[(R.CHIP_TMSTAT, 0xF0000000), (R.CHIP_BOOTSTAT_READY.off, setFld (0 : BitVec 32) R.CHIP_BOOTSTAT_READY.hi R.CHIP_BOOTSTAT_READY.lo 1)]⟩ }
/-- A state with its feeds in two states, and something on each breaker. -/
def feeds (s : State) (a b : Nat) : State :=
  let s := (s.wr (feedState .a) a).wr (feedState .b) b
  { s with feed := { s.feed with acc := ⟨[(0, 5), (9, 6)]⟩ } }
/-- A state with a field holding a value. -/
def put (s : State) (f : Fld) (v : Nat) : State := s.wr f v
/-- A state with a port on its group's half, its link up in 256-byte flits. -/
def withPort (s : State) (p : Nat) : State :=
  let s := { s with host := { s.host with place := s.host.place.put p { on := true, group := p / 2, half := p % 2, wide := false } } }
  s.updHead p fun h => { h with flit := 2 }
/-- The main die held in reset, with no frame free. -/
def held : State := { State.reset with regs := ⟨[(R.CHIP_TMSTAT, 0xF0000000)]⟩ }
/-- A state with a group in a mode and one of its lanes in a state. -/
def withLane (s : State) (g mode l st : Nat) : State :=
  let s : State := { s with lane := { s.lane with mode := s.lane.mode.put g mode } }
  s.wr (R.PG_LN_STAT_STATE g l) st
/-- A state with a Pennant group whose link is in a training state. -/
def withLink (s : State) (g st : Nat) : State :=
  let s : State := { s with lane := { s.lane with mode := s.lane.mode.put g 2 } }
  (s.wr (R.PG_LKSTAT_LTSTATE g) st).wr (R.PG_LKSTAT_PEERDEV g) 5
/-- A state whose ring 0 has taken a descriptor. -/
def taken (s : State) (d : BitVec 1024) : State := s.updRing 0 fun r => { r with cur := some d, begun := false }
/-- A descriptor with an operation code and some operand bytes. -/
def desc (op : Nat) (fs : List (Nat × Nat × Nat)) : BitVec 1024 :=
  fs.foldl (fun d f => setFld d (8 * f.1 + 7) (8 * f.2.1) f.2.2) (BitVec.ofNat 1024 op)
/-- A state whose core holds the host program 0x8000, in a state. -/
def loaded (s : State) (k st : Nat) : State :=
  (s.updCore k fun c => { c with host := true, prog := 0x8000, codeLen := 4 }).setCoreSt k st
/-- A state with one job that is not Done, its identifier 5. -/
def withJob (s : State) (op st : Nat) : State :=
  { s with ring := { s.ring with jobs := [{ (default : Job) with id := 5, op := op, st := st, dom := 5 }], nextJob := 5 } }
/-- A state with a channel in a state, with one rank of 16 Gbit x4 modules at 4,800 MT/s. -/
def chan (s : State) (n st : Nat) : State := ((s.wr (R.CH_CFG_STATE n) st).wr (R.CH_CFG_TYPE n) 1).wr (R.CH_CFG_RATE n) 56
/-- A module that meets every rule of the population. -/
def dimm : DimmModule :=
  { mrdimm := false, rdimm := true, twoSub := true, x8 := false, devices := 10, density := 16, ranks := 1, gib := 64,
    rates := [48, 56], crcOk := true, drfm := true }
/-- A home transaction for a line that waits for its data. -/
def memTx (s : State) (line : Nat) (e : Entry) : State :=
  { s with coh := { s.coh with txs := [{ (default : HomeTx) with
      id := 1, line := line, phase := .memory, purpose := .serve, req := { (default : Req) with dom := 5, entry := e, addr := line } }] } }
/-- A domain as `plainDom`, with no port open to it. -/
def shutDom : Entry := setFld (setFld plainDom 287 256 0) 319 288 0
/-- A state whose path's key staging words hold the bytes of a blob. -/
def blobAt (s : State) (b : List Byte) : State :=
  (List.range 30).foldl (fun s k => s.setReg (pathOff .bar (R.SEC_KEYSTAGE k)) (ofLe 32 ((b.drop (4 * k)).take 4))) s
/-- A state whose path's domain staging words hold an entry. -/
def entryAt (s : State) (e : Entry) : State :=
  (List.range 16).foldl (fun s k => s.setReg (pathOff .bar (R.CHIP_DOMSTAGE k)) (e.extractLsb' (32 * k) 32)) s
/-- A decoder that translates 256 MiB from 1 MiB to DPA 0. -/
def dec1M : HdmDecoder :=
  { committed := true, error := false, lock := false, ways := 1, gran := 256, hpaBase := 0x100000, hpaSize := 0x10000000,
    dpaBase := 0, dpaSize := 0x10000000 }
/-- A state with a port whose decoder 3 is that one. -/
def decoded (s : State) (p : Nat) : State := (withPort s p).updHead p fun h => { h with dec := ⟨[(3, dec1M)]⟩ }
/-- A state with one back-invalidation of a line outstanding at a port. -/
def biAt (s : State) (p line kind : Nat) : State := { s with coh := { s.coh with biOut := [(p, line, kind, 0)] } }
/-- A state with one tracker entry, TXN 9, for a line of domain 5. -/
def tracking (s : State) (home line : Nat) (w : PeerWait) : State :=
  { s with coh := { s.coh with reqs := [{ txn := 9, home := home, line := line, wait := w, req := { (default : Req) with
      op := .hostRd .any, agent := .host 3, tag := 7, dom := 5, entry := plainDom, addr := line }, held := none }] } }
/-- A state with one paced request of a host, TXN 9, outstanding to a peer. -/
def pacing (s : State) (home : Nat) (op : ReqOp) : State :=
  { s with link := { s.link with preqs := [{ txn := 9, home := home, line := 0, wait := .isd, req := { (default : Req) with
      op := op, agent := .host 3, tag := 7, dom := 5, entry := plainDom }, held := none }] } }
/-- A state whose slice caches a line in way 0. -/
def cached (s : State) (line : Nat) (st : LState) : State :=
  s.setKLine (Entry.slice plainDom line) (kSet line) 0 { st := st, tag := line / 1024, blk := false, poison := false, data := 0x77 }
/-- A domain replicated from device 2 to this one. -/
def mirrored : Entry := setFld (setFld plainDom 54 54 1) 195 192 2
/-- A page map entry of a page in Firewood. -/
def fwPage : PageEntry := PageEntry.toFirewood 0 0
/-- A state with page 0 of domain 5 in Charcoal and channels 0 to 3 open, ready for a relocation. -/
def movable : State :=
  let b := chan (chan (chan (chan (withDom State.reset) 0 2) 1 2) 2 2) 3 2
  { b with tier := { b.tier with
      extents := ⟨[(0, { kind := 2, arg := 1, used := 1, auditOnly := false, noAlloc := false })]⟩
      slots := ⟨[(0, true)]⟩ } }.setPage 0 (PageEntry.toCharcoal 0 0 1 0 [])
/-- A function of a value that the kernel has evaluated. -/
def forced {α : Type} (f : BitVec 64 → α) (x : BitVec 64) : α :=
  match x.toNat with
  | 0 => f 0
  | k + 1 => f (BitVec.ofNat 64 (k + 1))
theorem forced_eq {α : Type} (f : BitVec 64 → α) (x : BitVec 64) : forced f x = f x := by
  unfold forced
  split
  · next h => congr 1; exact (BitVec.eq_of_toNat_eq h).symm
  · next k h => congr 1; rw [show k + 1 = x.toNat from h.symm]; simp
/-- The CRC's chaining, each value evaluated before the next. -/
def crcRun (p : BitVec 64) : List Byte → BitVec 64 → BitVec 64
  | [], a => a
  | b :: bs, a => forced (crcRun p bs) (crcByte p a b)
theorem crcRun_eq (p : BitVec 64) (bs : List Byte) (a : BitVec 64) : crcRun p bs a = bs.foldl (crcByte p) a := by
  induction bs generalizing a with
  | nil => rfl
  | cons b bs ih => rw [crcRun, forced_eq, ih]; rfl
/-- The flit of an idle skip: type 3, ACK 7, seed 0x1000. -/
def skipRaw : BitVec 2048 :=
  0x889BB7AB1A8B86D1EE6369B54F26AB9D0000000000000000000000000000000000000000000000000000000000000000000000000000000000000000000000000000000000000000000000000000000000000000000000000000000000000000000000000000000000000000000000000000000000000000000000000000000000000000000000000000000000000000000000000000000000000000000000000000000000000000000000000000000000000000000000000000000000000000000000000000000000000000000000000000000000000000000000000000000000000000000000000000000000000000000000000000000000000000C0070000
theorem skipRaw_clean : flitCorrect (leBytes 256 skipRaw) = some ((leBytes 256 skipRaw).take 248, 0) :=
  flitCorrect_clean (by rw [leBytes_length]; omega) (by decide +kernel)
theorem skipRaw_crc : leBytes 8 (crc64 0x1000 (((leBytes 256 skipRaw).take 248).take 240)) = ((leBytes 256 skipRaw).take 248).drop 240 := by
  rw [crc64, ← crcRun_eq]; decide +kernel
/-- The same flit sealed with the seed 0x1001. -/
def oddRaw : BitVec 2048 :=
  0x1883E539BE8D3949E4FA2203787304F30000000000000000000000000000000000000000000000000000000000000000000000000000000000000000000000000000000000000000000000000000000000000000000000000000000000000000000000000000000000000000000000000000000000000000000000000000000000000000000000000000000000000000000000000000000000000000000000000000000000000000000000000000000000000000000000000000000000000000000000000000000000000000000000000000000000000000000000000000000000000000000000000000000000000000000000000000000000000000C0070000
theorem oddRaw_clean : flitCorrect (leBytes 256 oddRaw) = some ((leBytes 256 oddRaw).take 248, 0) :=
  flitCorrect_clean (by rw [leBytes_length]; omega) (by decide +kernel)
theorem oddRaw_crc : leBytes 8 (crc64 0x1000 (((leBytes 256 oddRaw).take 248).take 240)) ≠ ((leBytes 256 oddRaw).take 248).drop 240 := by
  rw [crc64, ← crcRun_eq]; decide +kernel
theorem zeroFlit_clean : flitCorrect (leBytes 256 (0 : BitVec 2048)) = some (List.replicate 248 0, 0) := by
  rw [leBytes_zero, flitCorrect_clean (by rw [List.length_replicate]; omega) (by decide +kernel), List.take_replicate]; rfl
theorem zeroFlit_crc : leBytes 8 (crc64 0 ((List.replicate 248 (0 : Byte)).take 240)) ≠ (List.replicate 248 (0 : Byte)).drop 240 := by
  rw [show (List.replicate 248 (0 : Byte)).take 240 = List.replicate 240 0 by rfl, crc64, ← crcRun_eq]; decide +kernel

/-! ### Commands that cannot be carried (`Instr.wf`) -/

theorem test_wf_refuses_a_word_of_another_row : Instr.wf (.add 0 0x00529008 false) = false := by decide
theorem test_wf_takes_a_word_of_its_row : Instr.wf (.addi 0 0x00529008 false) = true := by decide
theorem test_wf_takes_an_illegal_word : Instr.wf (.addi 0 0x0F000000 false) = true := by decide
theorem test_wf_refuses_long_arguments : Instr.wf (.getId ⟨false, false⟩ (List.replicate 254 0)) = false :=
  (decide_eq_false (by rw [List.length_replicate]; omega) : decide ((List.replicate 254 (0 : Byte)).length ≤ 253) = false)
theorem test_wf_refuses_a_long_reset : Instr.wf (.sidebandResetOrderly ⟨false, false⟩ (List.replicate 253 0)) = false :=
  (decide_eq_false (by rw [List.length_replicate]; omega) : decide ((List.replicate 253 (0 : Byte)).length ≤ 252) = false)
theorem test_wf_refuses_a_long_chain : Instr.wf (.setCertificate 0 1 (List.replicate 65536 0)) = false :=
  (decide_eq_false (by rw [List.length_replicate]; omega) : decide ((List.replicate 65536 (0 : Byte)).length ≤ 65535) = false)
theorem test_wf_refuses_more_bad_pages : Instr.wf (.lastgaspFlush 0 (List.replicate 4097 0)) = false :=
  (decide_eq_false (by rw [List.length_replicate]; omega) : decide ((List.replicate 4097 (0 : Nat)).length ≤ 4096) = false)

/-! ### The words of the demotion loop (Table 14-15) -/

theorem test_word_ldd : gIllegal 0x040A9000 = false ∧ gRow 0x040A9000 = 0x10 ∧ gRd 0x040A9000 = 5 ∧ gRa 0x040A9000 = 9 ∧
    gImm12 0x040A9000 = 0 := by decide
theorem test_word_shi_left : gIllegal 0x014A501E = false ∧ gRow 0x014A501E = 0x05 ∧ gRd 0x014A501E = 5 ∧ gRa 0x014A501E = 5 ∧
    fld (0x014A501E : BitVec 32) 7 6 = 0 ∧ fld (0x014A501E : BitVec 32) 5 0 = 30 := by decide
theorem test_word_shi_right : gRow 0x014A505E = 0x05 ∧ fld (0x014A505E : BitVec 32) 7 6 = 1 ∧ fld (0x014A505E : BitVec 32) 5 0 = 30 := by
  decide
theorem test_word_or : gIllegal 0x000E5583 = false ∧ gRow 0x000E5583 = 0x103 ∧ gRd 0x000E5583 = 7 ∧ gRa 0x000E5583 = 5 ∧
    gRb 0x000E5583 = 11 := by decide
theorem test_word_mig : gIllegal 0x0A8C7400 = false ∧ gRow 0x0A8C7400 = 0x2A ∧ gRd 0x0A8C7400 = 6 ∧ gRa 0x0A8C7400 = 7 ∧
    gRb 0x0A8C7400 = 8 := by decide
theorem test_word_addi : gIllegal 0x00529008 = false ∧ gRow 0x00529008 = 0x01 ∧ gRd 0x00529008 = 9 ∧ gRa 0x00529008 = 9 ∧
    gImm12 0x00529008 = 8 := by decide
theorem test_word_cmp : gIllegal 0x02DC4A80 = false ∧ gRow 0x02DC4A80 = 0x0C ∧ fld (0x02DC4A80 : BitVec 32) 21 19 = 3 ∧
    fld (0x02DC4A80 : BitVec 32) 18 16 = 4 ∧ fld (0x02DC4A80 : BitVec 32) 15 11 = 9 ∧
    fld (0x02DC4A80 : BitVec 32) 10 6 = 10 := by decide
theorem test_word_br : gIllegal 0x373FFFF9 = false ∧ gRow 0x373FFFF9 = 0x1C ∧ gFlag 0x373FFFF9 = 3 ∧ gNeg 0x373FFFF9 = false ∧
    gOff 0x373FFFF9 = -28 := by decide

/-! ### States and operands that meet the hypotheses of the statements -/

theorem witness_StepRunsFrontCommand :
    (({ State.reset with pending := [.poolRebalance, .timer 0] } : State).pending = .poolRebalance :: [.timer 0]) ∧
      State.reset.pending = [] := ⟨rfl, rfl⟩
theorem witness_WellFormedCommandsAreAnswered :
    Instr.wf (.addi 8 0x00529008 false) = true ∧
      ∀ c ∈ ({ State.reset with pending := [.poolRebalance] } : State).pending.head?, Instr.wf c = true := by
  exact ⟨by decide, fun c h => by cases h; rfl⟩
theorem witness_CoreWorkKeepsItsInvariant : CoreInv { State.reset with pending := [.addi 0 0x00529008 false, .br 8 0x373FFFF9 true, .timer 8] } := by
  refine ⟨fun k => ⟨?_, ?_, ?_, ?_⟩, by decide +kernel, by decide +kernel, rfl, by decide +kernel⟩
  · revert k; decide +kernel
  · revert k; decide +kernel
  · revert k; unfold CoreQuiet; decide +kernel
  · revert k; decide +kernel

theorem witness_ComputingInstructionsWriteRd :
    ((fun (s : State) (k : Fin 9) (w : BitVec 32) => CoreRuns s k w 0x100)
      (onHost State.reset 8 0x00061100 [(1, 5), (2, 0xFFFFFFFFFFFFFFFF)]) 8 0x00061100) ∧
    ((fun (s : State) (k : Fin 9) (w : BitVec 32) => CoreRuns s k w 0x101)
      (onHost State.reset 1 0x00061101 [(1, 5), (2, 0xFFFFFFFFFFFFFFFF)]) 1 0x00061101) ∧
    ((fun (s : State) (k : Fin 9) (w : BitVec 32) => CoreRuns s k w 0x102)
      (onHost State.reset 2 0x00061102 [(1, 5), (2, 0xFFFFFFFFFFFFFFFF)]) 2 0x00061102) ∧
    ((fun (s : State) (k : Fin 9) (w : BitVec 32) => CoreRuns s k w 0x103)
      (onHost State.reset 3 0x00061103 [(1, 5), (2, 0xFFFFFFFFFFFFFFFF)]) 3 0x00061103) ∧
    ((fun (s : State) (k : Fin 9) (w : BitVec 32) => CoreRuns s k w 0x104)
      (onHost State.reset 4 0x00061104 [(1, 5), (2, 0xFFFFFFFFFFFFFFFF)]) 4 0x00061104) ∧
    ((fun (s : State) (k : Fin 9) (w : BitVec 32) => CoreRuns s k w 0x105)
      (onHost State.reset 8 0x00061105 [(1, 5), (2, 0xFFFFFFFFFFFFFFFF)]) 8 0x00061105) ∧
    ((fun (s : State) (k : Fin 9) (w : BitVec 32) => CoreRuns s k w 0x106)
      (onHost State.reset 6 0x00061106 [(1, 5), (2, 0xFFFFFFFFFFFFFFFF)]) 6 0x00061106) ∧
    ((fun (s : State) (k : Fin 9) (w : BitVec 32) => CoreRuns s k w 0x107)
      (onHost State.reset 7 0x00061107 [(1, 5), (2, 0xFFFFFFFFFFFFFFFF)]) 7 0x00061107) ∧
    ((fun (s : State) (k : Fin 9) (w : BitVec 32) => CoreRuns s k w 0x108)
      (onHost State.reset 0 0x00061108 [(1, 5), (2, 0xFFFFFFFFFFFFFFFF)]) 0 0x00061108) ∧
    ((fun (s : State) (k : Fin 9) (w : BitVec 32) => CoreRuns s k w 0x109)
      (onHost State.reset 1 0x00061109 [(1, 5), (2, 0xFFFFFFFFFFFFFFFF)]) 1 0x00061109) ∧
    ((fun (s : State) (k : Fin 9) (w : BitVec 32) => CoreRuns s k w 0x10A)
      (onHost State.reset 8 0x0006110A [(1, 5), (2, 0xFFFFFFFFFFFFFFFF)]) 8 0x0006110A) ∧
    ((fun (s : State) (k : Fin 9) (w : BitVec 32) => CoreRuns s k w 0x10B)
      (onHost State.reset 3 0x0006110B [(1, 5), (2, 0xFFFFFFFFFFFFFFFF)]) 3 0x0006110B) ∧
    ((fun (s : State) (k : Fin 9) (w : BitVec 32) => CoreRuns s k w 0x10C)
      (onHost State.reset 4 0x0006110C [(1, 5), (2, 0xFFFFFFFFFFFFFFFF)]) 4 0x0006110C) ∧
    ((fun (s : State) (k : Fin 9) (w : BitVec 32) => CoreRuns s k w 0x10D)
      (onHost State.reset 5 0x0006110D [(1, 5), (2, 0xFFFFFFFFFFFFFFFF)]) 5 0x0006110D) ∧
    ((fun (s : State) (k : Fin 9) (w : BitVec 32) => CoreRuns s k w 0x10E)
      (onHost State.reset 6 0x0006110E [(1, 5), (2, 0xFFFFFFFFFFFFFFFF)]) 6 0x0006110E) ∧
    ((fun (s : State) (k : Fin 9) (w : BitVec 32) => CoreRuns s k w 0x10F)
      (onHost State.reset 8 0x0006110F [(1, 5), (2, 0xFFFFFFFFFFFFFFFF)]) 8 0x0006110F) ∧
    ((fun (s : State) (k : Fin 9) (w : BitVec 32) => CoreRuns s k w 0x110)
      (onHost State.reset 0 0x00061010 [(1, 5), (2, 0xFFFFFFFFFFFFFFFF)]) 0 0x00061010) ∧
    ((fun (s : State) (k : Fin 9) (w : BitVec 32) => CoreRuns s k w 0x111)
      (onHost State.reset 1 0x00002011 [(1, 5), (2, 0xFFFFFFFFFFFFFFFF)]) 1 0x00002011) ∧
    ((fun (s : State) (k : Fin 9) (w : BitVec 32) => CoreRuns s k w 0x112)
      (onHost State.reset 2 0x003E1112 [(1, 5), (2, 0xFFFFFFFFFFFFFFFF)]) 2 0x003E1112) ∧
    ((fun (s : State) (k : Fin 9) (w : BitVec 32) => CoreRuns s k w 0x113)
      (onHost State.reset 3 0x00061113 [(1, 5), (2, 0xFFFFFFFFFFFFFFFF)]) 3 0x00061113) ∧
    ((fun (s : State) (k : Fin 9) (w : BitVec 32) => CoreRuns s k w 0x01)
      (onHost State.reset 8 0x00461FFF [(1, 5), (2, 0xFFFFFFFFFFFFFFFF)]) 8 0x00461FFF) ∧
    ((fun (s : State) (k : Fin 9) (w : BitVec 32) => CoreRuns s k w 0x02)
      (onHost State.reset 5 0x00861800 [(1, 5), (2, 0xFFFFFFFFFFFFFFFF)]) 5 0x00861800) ∧
    ((fun (s : State) (k : Fin 9) (w : BitVec 32) => CoreRuns s k w 0x03)
      (onHost State.reset 6 0x00C617FF [(1, 5), (2, 0xFFFFFFFFFFFFFFFF)]) 6 0x00C617FF) ∧
    ((fun (s : State) (k : Fin 9) (w : BitVec 32) => CoreRuns s k w 0x04)
      (onHost State.reset 7 0x01061001 [(1, 5), (2, 0xFFFFFFFFFFFFFFFF)]) 7 0x01061001) ∧
    ((fun (s : State) (k : Fin 9) (w : BitVec 32) => CoreRuns s k w 0x05)
      (onHost State.reset 0 0x014620BF [(1, 5), (2, 0xFFFFFFFFFFFFFFFF)]) 0 0x014620BF) ∧
    ((fun (s : State) (k : Fin 9) (w : BitVec 32) => CoreRuns s k w 0x06)
      (onHost State.reset 8 0x01BFFFFF [(1, 5), (2, 0xFFFFFFFFFFFFFFFF)]) 8 0x01BFFFFF) ∧
    ((fun (s : State) (k : Fin 9) (w : BitVec 32) => CoreRuns s k w 0x07)
      (onHost State.reset 2 0x02867FFF [(1, 5), (2, 0xFFFFFFFFFFFFFFFF)]) 2 0x02867FFF) ∧
    ((fun (s : State) (k : Fin 9) (w : BitVec 32) => CoreRuns s k w 0x0E)
      (onHost State.reset 3 0x03861170 [(1, 5), (2, 0xFFFFFFFFFFFFFFFF)]) 3 0x03861170) ∧
    ((fun (s : State) (k : Fin 9) (w : BitVec 32) => CoreRuns s k w 0x20)
      (onHost State.reset 4 0x08060005 [(1, 5), (2, 0xFFFFFFFFFFFFFFFF)]) 4 0x08060005) ∧
    ((fun (s : State) (k : Fin 9) (w : BitVec 32) => CoreRuns s k w 0x100)
      (onHost State.reset 0 0x00002100 [(1, 5), (2, 0xFFFFFFFFFFFFFFFF)]) 0 0x00002100) ∧
    ((fun (s : State) (k : Fin 9) (w : BitVec 32) => CoreRuns s k w 0x10A)
      (onHost State.reset 7 0x0006100A [(1, 5), (2, 0xFFFFFFFFFFFFFFFF)]) 7 0x0006100A) ∧
    ((fun (s : State) (k : Fin 9) (w : BitVec 32) => CoreRuns s k w 0x10B)
      (onHost State.reset 7 0x0006100B [(1, 5), (2, 0xFFFFFFFFFFFFFFFF)]) 7 0x0006100B) ∧
    ((fun (s : State) (k : Fin 9) (w : BitVec 32) => CoreRuns s k w 0x05)
      (onHost State.reset 1 0x01462040 [(1, 5), (2, 0xFFFFFFFFFFFFFFFF)]) 1 0x01462040) ∧
    ((fun (s : State) (k : Fin 9) (w : BitVec 32) => CoreRuns s k w 0x05)
      (onHost State.reset 1 0x014620FF [(1, 5), (2, 0xFFFFFFFFFFFFFFFF)]) 1 0x014620FF) ∧
    ((fun (s : State) (k : Fin 9) (w : BitVec 32) => CoreRuns s k w 0x05)
      (onHost State.reset 1 0x0146203F [(1, 5), (2, 0xFFFFFFFFFFFFFFFF)]) 1 0x0146203F) ∧
    ((fun (s : State) (k : Fin 9) (w : BitVec 32) => CoreRuns s k w 0x107)
      (onHost State.reset 2 0x00062107 [(1, 5), (2, 0xFFFFFFFFFFFFFFFF)]) 2 0x00062107) ∧
    ((fun (s : State) (k : Fin 9) (w : BitVec 32) => CoreRuns s k w 0x111)
      (onHost State.reset 2 0x00060011 [(1, 5), (2, 0xFFFFFFFFFFFFFFFF)]) 2 0x00060011) ∧
    ((fun (s : State) (k : Fin 9) (w : BitVec 32) => CoreRuns s k w 0x20)
      (onHost State.reset 2 0x08060001 [(1, 5), (2, 0xFFFFFFFFFFFFFFFF)]) 2 0x08060001) ∧
    ((fun (s : State) (k : Fin 9) (w : BitVec 32) => CoreRuns s k w 0x20)
      (onHost State.reset 2 0x08060000 [(1, 5), (2, 0xFFFFFFFFFFFFFFFF)]) 2 0x08060000) := by
  refine ⟨?_, ?_, ?_, ?_, ?_, ?_, ?_, ?_, ?_, ?_, ?_, ?_, ?_, ?_, ?_, ?_, ?_, ?_, ?_, ?_, ?_, ?_, ?_, ?_, ?_, ?_, ?_, ?_, ?_, ?_, ?_, ?_, ?_, ?_, ?_, ?_, ?_, ?_, ?_⟩ <;> (try dsimp only) <;> decide +kernel

theorem witness_FlagAndBranchInstructions :
    ((fun (s : State) (k : Fin 9) (w : BitVec 32) => CoreRuns s k w 0x0C)
      (onHost State.reset 0 0x02F80880 [(1, 5), (2, 0xFFFFFFFFFFFFFFFF)]) 0 0x02F80880) ∧
    ((fun (s : State) (k : Fin 9) (w : BitVec 32) => CoreRuns s k w 0x0C)
      (onHost State.reset 0 0x02F90880 [(1, 5), (2, 0xFFFFFFFFFFFFFFFF)]) 0 0x02F90880) ∧
    ((fun (s : State) (k : Fin 9) (w : BitVec 32) => CoreRuns s k w 0x0C)
      (onHost State.reset 0 0x02FA0880 [(1, 5), (2, 0xFFFFFFFFFFFFFFFF)]) 0 0x02FA0880) ∧
    ((fun (s : State) (k : Fin 9) (w : BitVec 32) => CoreRuns s k w 0x0C)
      (onHost State.reset 0 0x02FB0880 [(1, 5), (2, 0xFFFFFFFFFFFFFFFF)]) 0 0x02FB0880) ∧
    ((fun (s : State) (k : Fin 9) (w : BitVec 32) => CoreRuns s k w 0x0C)
      (onHost State.reset 0 0x02FC0880 [(1, 5), (2, 0xFFFFFFFFFFFFFFFF)]) 0 0x02FC0880) ∧
    ((fun (s : State) (k : Fin 9) (w : BitVec 32) => CoreRuns s k w 0x0C)
      (onHost State.reset 0 0x02FD0880 [(1, 5), (2, 0xFFFFFFFFFFFFFFFF)]) 0 0x02FD0880) ∧
    ((fun (s : State) (k : Fin 9) (w : BitVec 32) => CoreRuns s k w 0x0C)
      (onHost State.reset 0 0x02FE0880 [(1, 5), (2, 0xFFFFFFFFFFFFFFFF)]) 0 0x02FE0880) ∧
    ((fun (s : State) (k : Fin 9) (w : BitVec 32) => CoreRuns s k w 0x0C)
      (onHost State.reset 8 0x03021400 [(1, 5), (2, 0xFFFFFFFFFFFFFFFF)]) 8 0x03021400) ∧
    ((fun (s : State) (k : Fin 9) (w : BitVec 32) => CoreRuns s k w 0x0C)
      (onHost State.reset 0 0x030E0805 [(1, 5), (2, 0xFFFFFFFFFFFFFFFF)]) 0 0x030E0805) ∧
    ((fun (s : State) (k : Fin 9) (w : BitVec 32) => CoreRuns s k w 0x0D) (onHost State.reset 0 0x03783800 []) 0 0x03783800)
      ∧
    ((fun (s : State) (k : Fin 9) (w : BitVec 32) => CoreRuns s k w 0x0D) (onHost State.reset 0 0x03483000 []) 0 0x03483000)
      ∧
    ((fun (s : State) (k : Fin 9) (w : BitVec 32) => CoreRuns s k w 0x18) (onHost State.reset 0 0x06000000 []) 0 0x06000000)
      ∧
    ((fun (s : State) (k : Fin 9) (w : BitVec 32) => CoreRuns s k w 0x1C) (onHost State.reset 8 0x07200000 []) 8 0x07200000)
      ∧
    ((fun (s : State) (k : Fin 9) (w : BitVec 32) => CoreRuns s k w 0x1D) (onHost State.reset 0 0x075FFFFF []) 0 0x075FFFFF)
      ∧
    ((fun (s : State) (k : Fin 9) (w : BitVec 32) => CoreRuns s k w 0x1E ∧ (s.g k (gRa w)).toNat % 4 = 0)
      (onHost State.reset 0 0x07BE1000 [(1, 0xFFFFFFFFFFFFFFFC)]) 0 0x07BE1000) ∧
    ((fun (s : State) (k : Fin 9) (w : BitVec 32) => CoreRuns s k w 0x1E ∧ (s.g k (gRa w)).toNat % 4 = 0)
      (onHost State.reset 0 0x07821000 [(1, 8)]) 0 0x07821000) := by
  refine ⟨?_, ?_, ?_, ?_, ?_, ?_, ?_, ?_, ?_, ?_, ?_, ?_, ?_, ?_, ?_, ?_⟩ <;> (try dsimp only) <;> decide +kernel

theorem witness_CoreFaultsStopTheRun :
    ((fun (s : State) (k : Fin 9) (w : BitVec 32) => CoreQuiet s k ∧ CoreRuns s k w 0x24)
      (onHost State.reset 0 0x093FFFFF []) 0 0x093FFFFF) ∧
    ((fun (s : State) (k : Fin 9) (w : BitVec 32) => CoreQuiet s k ∧ CoreRuns s k w 0x1E ∧ (s.g k (gRa w)).toNat % 4 ≠ 0)
      (onHost State.reset 8 0x07801000 [(1, 1)]) 8 0x07801000) ∧
    ((fun (s : State) (k : Fin 9) (w : BitVec 32) => CoreQuiet s k ∧ CoreRuns s k w 0x1E ∧ (s.g k (gRa w)).toNat % 4 ≠ 0)
      (onHost State.reset 8 0x07801000 [(1, 0xFFFFFFFFFFFFFFFE)]) 8 0x07801000) ∧
    ((fun (s : State) (k : Fin 9) (w : BitVec 32) => let c := (s.gcore k); CoreQuiet s k ∧ s.coreSt k = 1 ∧ c.imageLen ≤
      c.pc ∧ gRow w = 0x100) ((onHost State.reset 0 0 []).updCore 0 fun c => { c with pc := 4 }) 0 0x00000000) ∧
    ((fun (s : State) (k : Fin 9) (w : BitVec 32) => let c := (s.gcore k); CoreQuiet s k ∧ gIllegal w = true ∧ s.coreSt k =
      1 ∧ c.pc < c.imageLen ∧ ((c.host = true → c.imem.get (c.pc / 4) = w)) ∧ c.ckclk < checkLimit k)
      (onHost State.reset 0 0x00000014 []) 0 0x00000014) ∧
    ((fun (s : State) (k : Fin 9) (w : BitVec 32) => let c := (s.gcore k); CoreQuiet s k ∧ gIllegal w = true ∧ s.coreSt k =
      1 ∧ c.pc < c.imageLen ∧ ((c.host = true → c.imem.get (c.pc / 4) = w)) ∧ c.ckclk < checkLimit k)
      (onHost State.reset 1 0x0FC00000 []) 1 0x0FC00000) ∧
    ((fun (s : State) (k : Fin 9) (w : BitVec 32) => let c := (s.gcore k); CoreQuiet s k ∧ gIllegal w = true ∧ s.coreSt k =
      1 ∧ c.pc < c.imageLen ∧ ((c.host = true → c.imem.get (c.pc / 4) = w)) ∧ c.ckclk < checkLimit k)
      (onHost State.reset 8 0x03C00000 []) 8 0x03C00000) ∧
    ((fun (s : State) (k : Fin 9) (w : BitVec 32) => let c := (s.gcore k); CoreQuiet s k ∧ gIllegal w = false ∧ gRow w =
      0x100 ∧ s.coreSt k = 1 ∧ c.pc < c.imageLen ∧ ((c.host = true → c.imem.get (c.pc / 4) = w)) ∧ c.ckclk < checkLimit k ∧
      c.flag (gFlag w) = gNeg w) (onHost State.reset 0 0x80000000 []) 0 0x80000000) ∧
    ((fun (s : State) (k : Fin 9) (w : BitVec 32) => let c := (s.gcore k); CoreQuiet s k ∧ gIllegal w = false ∧ gRow w =
      0x100 ∧ s.coreSt k = 1 ∧ c.pc < c.imageLen ∧ ((c.host = true → c.imem.get (c.pc / 4) = w)) ∧ c.ckclk < checkLimit k ∧
      c.flag (gFlag w) = gNeg w) (onHost State.reset 8 0x10000000 []) 8 0x10000000) := by
  refine ⟨?_, ?_, ?_, ?_, ?_, ?_, ?_, ?_, ?_⟩ <;> (try dsimp only) <;> decide +kernel

theorem witness_CoreMemoryLoadsAndAtomics :
    ((fun (s : State) (k : Fin 9) (w : BitVec 32) => let a := ((s.g k (gRa w) + (w.extractLsb' 0 12).signExtend 64).toNat);
      let own := (fun (n : Nat) => a % n = 0 ∧ a < 0x7E000); CoreRuns s k w 0x10 ∧ own 8)
      (onHost (State.reset.updCore 1 fun c => { c with dmem := ⟨[(0, 0x8877665544332211), (64511, 0xFFEEDDCCBBAA9988)]⟩ }) 1 0x04061FF8 [(1, 0x7E000), (2, 0x10800000), (3, 0x0123456789ABCDEF), (4, 0x10000000), (5, 0x107FFFF8), (6, 7)]) 1 0x04061FF8)
      ∧
    ((fun (s : State) (k : Fin 9) (w : BitVec 32) => let a := ((s.g k (gRa w) + (w.extractLsb' 0 12).signExtend 64).toNat);
      let own := (fun (n : Nat) => a % n = 0 ∧ a < 0x7E000); CoreRuns s k w 0x10 ∧ own 8)
      (onHost (State.reset.updCore 1 fun c => { c with dmem := ⟨[(0, 0x8877665544332211), (64511, 0xFFEEDDCCBBAA9988)]⟩ }) 1 0x04000000 [(1, 0x7E000), (2, 0x10800000), (3, 0x0123456789ABCDEF), (4, 0x10000000), (5, 0x107FFFF8), (6, 7)]) 1 0x04000000)
      ∧
    ((fun (s : State) (k : Fin 9) (w : BitVec 32) => let a := ((s.g k (gRa w) + (w.extractLsb' 0 12).signExtend 64).toNat);
      let own := (fun (n : Nat) => a % n = 0 ∧ a < 0x7E000); CoreRuns s k w 0x11 ∧ own 4)
      (onHost (State.reset.updCore 1 fun c => { c with dmem := ⟨[(0, 0x8877665544332211), (64511, 0xFFEEDDCCBBAA9988)]⟩ }) 1 0x04461FFC [(1, 0x7E000), (2, 0x10800000), (3, 0x0123456789ABCDEF), (4, 0x10000000), (5, 0x107FFFF8), (6, 7)]) 1 0x04461FFC)
      ∧
    ((fun (s : State) (k : Fin 9) (w : BitVec 32) => let a := ((s.g k (gRa w) + (w.extractLsb' 0 12).signExtend 64).toNat);
      let own := (fun (n : Nat) => a % n = 0 ∧ a < 0x7E000); CoreRuns s k w 0x11 ∧ own 4)
      (onHost (State.reset.updCore 1 fun c => { c with dmem := ⟨[(0, 0x8877665544332211), (64511, 0xFFEEDDCCBBAA9988)]⟩ }) 1 0x04460004 [(1, 0x7E000), (2, 0x10800000), (3, 0x0123456789ABCDEF), (4, 0x10000000), (5, 0x107FFFF8), (6, 7)]) 1 0x04460004)
      ∧
    ((fun (s : State) (k : Fin 9) (w : BitVec 32) => let a := ((s.g k (gRa w) + (w.extractLsb' 0 12).signExtend 64).toNat);
      let own := (fun (n : Nat) => a % n = 0 ∧ a < 0x7E000); CoreRuns s k w 0x12 ∧ own 1)
      (onHost (State.reset.updCore 1 fun c => { c with dmem := ⟨[(0, 0x8877665544332211), (64511, 0xFFEEDDCCBBAA9988)]⟩ }) 1 0x04861FFF [(1, 0x7E000), (2, 0x10800000), (3, 0x0123456789ABCDEF), (4, 0x10000000), (5, 0x107FFFF8), (6, 7)]) 1 0x04861FFF)
      ∧
    ((fun (s : State) (k : Fin 9) (w : BitVec 32) => let a := ((s.g k (gRa w) + (w.extractLsb' 0 12).signExtend 64).toNat);
      let own := (fun (n : Nat) => a % n = 0 ∧ a < 0x7E000); CoreRuns s k w 0x12 ∧ own 1)
      (onHost (State.reset.updCore 1 fun c => { c with dmem := ⟨[(0, 0x8877665544332211), (64511, 0xFFEEDDCCBBAA9988)]⟩ }) 1 0x04860007 [(1, 0x7E000), (2, 0x10800000), (3, 0x0123456789ABCDEF), (4, 0x10000000), (5, 0x107FFFF8), (6, 7)]) 1 0x04860007)
      ∧
    ((fun (s : State) (k : Fin 9) (w : BitVec 32) => let c := (s.gcore k); let a := ((s.g k (gRa w) + (w.extractLsb' 0
      12).signExtend 64).toNat); let scr := (fun (n : Nat) => a % n = 0 ∧ 0x10000000 ≤ a ∧ a < 0x10800000 ∧ c.host = false ∧
      MainOn s k); CoreRuns s k w 0x10 ∧ scr 8)
      (onRom ({ State.reset with core := { State.reset.core with scratch := ⟨[(0, 0x8877665544332211), (1048575, 7)]⟩ } }) 1 [(1, 0x7E000), (2, 0x10800000), (3, 0x0123456789ABCDEF), (4, 0x10000000), (5, 0x107FFFF8), (6, 7)]) 1 0x04062FF8)
      ∧
    ((fun (s : State) (k : Fin 9) (w : BitVec 32) => let c := (s.gcore k); let a := ((s.g k (gRa w) + (w.extractLsb' 0
      12).signExtend 64).toNat); let scr := (fun (n : Nat) => a % n = 0 ∧ 0x10000000 ≤ a ∧ a < 0x10800000 ∧ c.host = false ∧
      MainOn s k); CoreRuns s k w 0x11 ∧ scr 4)
      (onRom ({ State.reset with core := { State.reset.core with scratch := ⟨[(0, 0x8877665544332211), (1048575, 7)]⟩ } }) 8 [(1, 0x7E000), (2, 0x10800000), (3, 0x0123456789ABCDEF), (4, 0x10000000), (5, 0x107FFFF8), (6, 7)]) 8 0x04464004)
      ∧
    ((fun (s : State) (k : Fin 9) (w : BitVec 32) => let c := (s.gcore k); let a := ((s.g k (gRa w) + (w.extractLsb' 0
      12).signExtend 64).toNat); let scr := (fun (n : Nat) => a % n = 0 ∧ 0x10000000 ≤ a ∧ a < 0x10800000 ∧ c.host = false ∧
      MainOn s k); CoreRuns s k w 0x12 ∧ scr 1)
      (onRom ({ State.reset with core := { State.reset.core with scratch := ⟨[(0, 0x8877665544332211), (1048575, 7)]⟩ } }) 0 [(1, 0x7E000), (2, 0x10800000), (3, 0x0123456789ABCDEF), (4, 0x10000000), (5, 0x107FFFF8), (6, 7)]) 0 0x04864007)
      ∧
    ((fun (s : State) (k : Fin 9) (w : BitVec 32) => let c := (s.gcore k); let a := ((s.g k (gRa w) + (w.extractLsb' 0
      12).signExtend 64).toNat); let scr := (fun (n : Nat) => a % n = 0 ∧ 0x10000000 ≤ a ∧ a < 0x10800000 ∧ c.host = false ∧
      MainOn s k); CoreRuns s k w 0x12 ∧ scr 1)
      (onRom ({ State.reset with core := { State.reset.core with scratch := ⟨[(0, 0x8877665544332211), (1048575, 7)]⟩ } }) 0 [(1, 0x7E000), (2, 0x10800000), (3, 0x0123456789ABCDEF), (4, 0x10000000), (5, 0x107FFFF8), (6, 7)]) 0 0x04862FFF)
      ∧
    ((fun (s : State) (k : Fin 9) (w : BitVec 32) => let c := (s.gcore k); let m := ((s.g k (gRa w)).toNat); let fine := (m
      % 8 = 0 ∧ 0x10000000 ≤ m ∧ m < 0x10800000 ∧ c.host = false ∧ MainOn s k); CoreRuns s k w 0x16 ∧ fine)
      (onRom ({ State.reset with core := { State.reset.core with scratch := ⟨[(0, 0x8877665544332211), (1048575, 7)]⟩ } }) 0 [(1, 0x7E000), (2, 0x10800000), (3, 0x0123456789ABCDEF), (4, 0x10000000), (5, 0x107FFFF8), (6, 7)]) 0 0x05864180)
      ∧
    ((fun (s : State) (k : Fin 9) (w : BitVec 32) => let c := (s.gcore k); let m := ((s.g k (gRa w)).toNat); let fine := (m
      % 8 = 0 ∧ 0x10000000 ≤ m ∧ m < 0x10800000 ∧ c.host = false ∧ MainOn s k); CoreRuns s k w 0x16 ∧ fine)
      (onRom ({ State.reset with core := { State.reset.core with scratch := ⟨[(0, 0x8877665544332211), (1048575, 7)]⟩ } }) 0 [(1, 0x7E000), (2, 0x10800000), (3, 0x0123456789ABCDEF), (4, 0x10000000), (5, 0x107FFFF8), (6, 7)]) 0 0x05805280)
      ∧
    ((fun (s : State) (k : Fin 9) (w : BitVec 32) => let c := (s.gcore k); let m := ((s.g k (gRa w)).toNat); let fine := (m
      % 8 = 0 ∧ 0x10000000 ≤ m ∧ m < 0x10800000 ∧ c.host = false ∧ MainOn s k); CoreRuns s k w 0x17 ∧ fine)
      (onRom ({ State.reset with core := { State.reset.core with scratch := ⟨[(0, 0x8877665544332211), (1048575, 7)]⟩ } }) 8 [(1, 0x7E000), (2, 0x10800000), (3, 0x0123456789ABCDEF), (4, 0x10000000), (5, 0x107FFFF8), (6, 7)]) 8 0x05CC5180)
      ∧
    ((fun (s : State) (k : Fin 9) (w : BitVec 32) => let c := (s.gcore k); let m := ((s.g k (gRa w)).toNat); let fine := (m
      % 8 = 0 ∧ 0x10000000 ≤ m ∧ m < 0x10800000 ∧ c.host = false ∧ MainOn s k); CoreRuns s k w 0x17 ∧ fine)
      (onRom ({ State.reset with core := { State.reset.core with scratch := ⟨[(0, 0x8877665544332211), (1048575, 7)]⟩ } }) 8 [(1, 0x7E000), (2, 0x10800000), (3, 0x0123456789ABCDEF), (4, 0x10000000), (5, 0x107FFFF8), (6, 7)]) 8 0x05C64180)
      ∧
    ((fun (s : State) (k : Fin 9) (w : BitVec 32) => let c := (s.gcore k); let m := ((s.g k (gRa w)).toNat); let fine := (m
      % 8 = 0 ∧ 0x10000000 ≤ m ∧ m < 0x10800000 ∧ c.host = false ∧ MainOn s k); CoreRuns s k w 0x17 ∧ fine)
      (onRom ({ State.reset with core := { State.reset.core with scratch := ⟨[(0, 0x8877665544332211), (1048575, 7)]⟩ } }) 8 [(1, 0x7E000), (2, 0x10800000), (3, 0x0123456789ABCDEF), (4, 0x10000000), (5, 0x107FFFF8), (6, 7)]) 8 0x05C84180) := by
  refine ⟨?_, ?_, ?_, ?_, ?_, ?_, ?_, ?_, ?_, ?_, ?_, ?_, ?_, ?_, ?_⟩ <;> (try dsimp only) <;> decide +kernel

theorem witness_CoreMemoryStores :
    ((fun (s : State) (k : Fin 9) (w : BitVec 32) => let a := ((s.g k (gRa w) + (w.extractLsb' 0 12).signExtend 64).toNat);
      let inOwn := (fun (n : Nat) => a % n = 0 ∧ a < 0x7E000); CoreRuns s k w 0x13 ∧ inOwn 8)
      (onHost (State.reset.updCore 1 fun c => { c with dmem := ⟨[(0, 0x8877665544332211), (64511, 0xFFEEDDCCBBAA9988)]⟩ }) 1 0x04C61FF8 [(1, 0x7E000), (2, 0x10800000), (3, 0x0123456789ABCDEF), (4, 0x10000000), (5, 0x107FFFF8), (6, 7)]) 1 0x04C61FF8)
      ∧
    ((fun (s : State) (k : Fin 9) (w : BitVec 32) => let a := ((s.g k (gRa w) + (w.extractLsb' 0 12).signExtend 64).toNat);
      let inOwn := (fun (n : Nat) => a % n = 0 ∧ a < 0x7E000); CoreRuns s k w 0x14 ∧ inOwn 4)
      (onHost (State.reset.updCore 1 fun c => { c with dmem := ⟨[(0, 0x8877665544332211), (64511, 0xFFEEDDCCBBAA9988)]⟩ }) 1 0x05061FFC [(1, 0x7E000), (2, 0x10800000), (3, 0x0123456789ABCDEF), (4, 0x10000000), (5, 0x107FFFF8), (6, 7)]) 1 0x05061FFC)
      ∧
    ((fun (s : State) (k : Fin 9) (w : BitVec 32) => let a := ((s.g k (gRa w) + (w.extractLsb' 0 12).signExtend 64).toNat);
      let inOwn := (fun (n : Nat) => a % n = 0 ∧ a < 0x7E000); CoreRuns s k w 0x14 ∧ inOwn 4)
      (onHost (State.reset.updCore 1 fun c => { c with dmem := ⟨[(0, 0x8877665544332211), (64511, 0xFFEEDDCCBBAA9988)]⟩ }) 1 0x05060004 [(1, 0x7E000), (2, 0x10800000), (3, 0x0123456789ABCDEF), (4, 0x10000000), (5, 0x107FFFF8), (6, 7)]) 1 0x05060004)
      ∧
    ((fun (s : State) (k : Fin 9) (w : BitVec 32) => let a := ((s.g k (gRa w) + (w.extractLsb' 0 12).signExtend 64).toNat);
      let inOwn := (fun (n : Nat) => a % n = 0 ∧ a < 0x7E000); CoreRuns s k w 0x15 ∧ inOwn 1)
      (onHost (State.reset.updCore 1 fun c => { c with dmem := ⟨[(0, 0x8877665544332211), (64511, 0xFFEEDDCCBBAA9988)]⟩ }) 1 0x05460003 [(1, 0x7E000), (2, 0x10800000), (3, 0x0123456789ABCDEF), (4, 0x10000000), (5, 0x107FFFF8), (6, 7)]) 1 0x05460003)
      ∧
    ((fun (s : State) (k : Fin 9) (w : BitVec 32) => let a := ((s.g k (gRa w) + (w.extractLsb' 0 12).signExtend 64).toNat);
      let inOwn := (fun (n : Nat) => a % n = 0 ∧ a < 0x7E000); CoreRuns s k w 0x15 ∧ inOwn 1)
      (onHost (State.reset.updCore 1 fun c => { c with dmem := ⟨[(0, 0x8877665544332211), (64511, 0xFFEEDDCCBBAA9988)]⟩ }) 1 0x05401FFF [(1, 0x7E000), (2, 0x10800000), (3, 0x0123456789ABCDEF), (4, 0x10000000), (5, 0x107FFFF8), (6, 7)]) 1 0x05401FFF)
      ∧
    ((fun (s : State) (k : Fin 9) (w : BitVec 32) => let c := (s.gcore k); let a := ((s.g k (gRa w) + (w.extractLsb' 0
      12).signExtend 64).toNat); let inScr := (fun (n : Nat) => a % n = 0 ∧ 0x10000000 ≤ a ∧ a < 0x10800000 ∧ c.host = false
      ∧ MainOn s k); CoreRuns s k w 0x13 ∧ inScr 8)
      (onRom ({ State.reset with core := { State.reset.core with scratch := ⟨[(0, 0x8877665544332211), (1048575, 7)]⟩ } }) 1 [(1, 0x7E000), (2, 0x10800000), (3, 0x0123456789ABCDEF), (4, 0x10000000), (5, 0x107FFFF8), (6, 7)]) 1 0x04C62FF8)
      ∧
    ((fun (s : State) (k : Fin 9) (w : BitVec 32) => let c := (s.gcore k); let a := ((s.g k (gRa w) + (w.extractLsb' 0
      12).signExtend 64).toNat); let inScr := (fun (n : Nat) => a % n = 0 ∧ 0x10000000 ≤ a ∧ a < 0x10800000 ∧ c.host = false
      ∧ MainOn s k); CoreRuns s k w 0x14 ∧ inScr 4)
      (onRom ({ State.reset with core := { State.reset.core with scratch := ⟨[(0, 0x8877665544332211), (1048575, 7)]⟩ } }) 8 [(1, 0x7E000), (2, 0x10800000), (3, 0x0123456789ABCDEF), (4, 0x10000000), (5, 0x107FFFF8), (6, 7)]) 8 0x05064004)
      ∧
    ((fun (s : State) (k : Fin 9) (w : BitVec 32) => let c := (s.gcore k); let a := ((s.g k (gRa w) + (w.extractLsb' 0
      12).signExtend 64).toNat); let inScr := (fun (n : Nat) => a % n = 0 ∧ 0x10000000 ≤ a ∧ a < 0x10800000 ∧ c.host = false
      ∧ MainOn s k); CoreRuns s k w 0x15 ∧ inScr 1)
      (onRom ({ State.reset with core := { State.reset.core with scratch := ⟨[(0, 0x8877665544332211), (1048575, 7)]⟩ } }) 0 [(1, 0x7E000), (2, 0x10800000), (3, 0x0123456789ABCDEF), (4, 0x10000000), (5, 0x107FFFF8), (6, 7)]) 0 0x05464007) := by
  refine ⟨?_, ?_, ?_, ?_, ?_, ?_, ?_, ?_⟩ <;> (try dsimp only) <;> decide +kernel

theorem witness_CoreMemoryFaults :
    ((fun (s : State) (k : Fin 9) (w : BitVec 32) => let a := ((s.g k (gRa w) + (w.extractLsb' 0 12).signExtend 64).toNat);
      CoreQuiet s k ∧ CoreRuns s k w 0x10 ∧ a % 8 ≠ 0) (onHost State.reset 0 0x04061004 [(1, 0)]) 0 0x04061004) ∧
    ((fun (s : State) (k : Fin 9) (w : BitVec 32) => let a := ((s.g k (gRa w) + (w.extractLsb' 0 12).signExtend 64).toNat);
      CoreQuiet s k ∧ CoreRuns s k w 0x14 ∧ a % 4 ≠ 0) (onHost State.reset 0 0x05061FFF [(1, 0)]) 0 0x05061FFF) ∧
    ((fun (s : State) (k : Fin 9) (w : BitVec 32) => let b := ((s.g k (gRa w)).toNat); CoreQuiet s k ∧ CoreRuns s k w 0x16 ∧
      b % 8 ≠ 0) (onHost State.reset 0 0x05861000 [(1, 4)]) 0 0x05861000) ∧
    ((fun (s : State) (k : Fin 9) (w : BitVec 32) => let a := ((s.g k (gRa w) + (w.extractLsb' 0 12).signExtend 64).toNat);
      let hole := ((0x7E000 ≤ a ∧ a < 0x10000000) ∨ (0x10800000 ≤ a ∧ a < 0x20000000) ∨ 0x30000000 ≤ a); CoreQuiet s k ∧
      CoreRuns s k w 0x12 ∧ hole) (onHost State.reset 0 0x04861000 [(1, 0x7E000)]) 0 0x04861000) ∧
    ((fun (s : State) (k : Fin 9) (w : BitVec 32) => let a := ((s.g k (gRa w) + (w.extractLsb' 0 12).signExtend 64).toNat);
      let hole := ((0x7E000 ≤ a ∧ a < 0x10000000) ∨ (0x10800000 ≤ a ∧ a < 0x20000000) ∨ 0x30000000 ≤ a); CoreQuiet s k ∧
      CoreRuns s k w 0x12 ∧ hole) (onHost State.reset 0 0x04861FFF [(1, 0x10000000)]) 0 0x04861FFF) ∧
    ((fun (s : State) (k : Fin 9) (w : BitVec 32) => let a := ((s.g k (gRa w) + (w.extractLsb' 0 12).signExtend 64).toNat);
      let hole := ((0x7E000 ≤ a ∧ a < 0x10000000) ∨ (0x10800000 ≤ a ∧ a < 0x20000000) ∨ 0x30000000 ≤ a); CoreQuiet s k ∧
      CoreRuns s k w 0x12 ∧ hole) (onHost State.reset 0 0x04861000 [(1, 0x10800000)]) 0 0x04861000) ∧
    ((fun (s : State) (k : Fin 9) (w : BitVec 32) => let a := ((s.g k (gRa w) + (w.extractLsb' 0 12).signExtend 64).toNat);
      let hole := ((0x7E000 ≤ a ∧ a < 0x10000000) ∨ (0x10800000 ≤ a ∧ a < 0x20000000) ∨ 0x30000000 ≤ a); CoreQuiet s k ∧
      CoreRuns s k w 0x12 ∧ hole) (onRom State.reset 0 [(1, 0x20000000)]) 0 0x04861FFF) ∧
    ((fun (s : State) (k : Fin 9) (w : BitVec 32) => let a := ((s.g k (gRa w) + (w.extractLsb' 0 12).signExtend 64).toNat);
      let hole := ((0x7E000 ≤ a ∧ a < 0x10000000) ∨ (0x10800000 ≤ a ∧ a < 0x20000000) ∨ 0x30000000 ≤ a); CoreQuiet s k ∧
      CoreRuns s k w 0x12 ∧ hole) (onRom State.reset 0 [(1, 0x30000000)]) 0 0x04861000) ∧
    ((fun (s : State) (k : Fin 9) (w : BitVec 32) => let a := ((s.g k (gRa w) + (w.extractLsb' 0 12).signExtend 64).toNat);
      let hole := ((0x7E000 ≤ a ∧ a < 0x10000000) ∨ (0x10800000 ≤ a ∧ a < 0x20000000) ∨ 0x30000000 ≤ a); CoreQuiet s k ∧
      CoreRuns s k w 0x12 ∧ hole) (onHost State.reset 0 0x04861FFF [(1, 0)]) 0 0x04861FFF) ∧
    ((fun (s : State) (k : Fin 9) (w : BitVec 32) => let a := ((s.g k (gRa w) + (w.extractLsb' 0 12).signExtend 64).toNat);
      let hole := ((0x7E000 ≤ a ∧ a < 0x10000000) ∨ (0x10800000 ≤ a ∧ a < 0x20000000) ∨ 0x30000000 ≤ a); CoreQuiet s k ∧
      CoreRuns s k w 0x13 ∧ a % 8 = 0 ∧ hole) (onHost State.reset 0 0x04C61000 [(1, 0x7E000)]) 0 0x04C61000) ∧
    ((fun (s : State) (k : Fin 9) (w : BitVec 32) => let b := ((s.g k (gRa w)).toNat); CoreQuiet s k ∧ CoreRuns s k w 0x17 ∧
      b % 8 = 0 ∧ b < 0x10000000) (onRom State.reset 0 [(1, 0)]) 0 0x05C61000) ∧
    ((fun (s : State) (k : Fin 9) (w : BitVec 32) => let b := ((s.g k (gRa w)).toNat); CoreQuiet s k ∧ CoreRuns s k w 0x17 ∧
      b % 8 = 0 ∧ b < 0x10000000) (onRom State.reset 0 [(1, 0xFFFFFF8)]) 0 0x05C61000) ∧
    ((fun (s : State) (k : Fin 9) (w : BitVec 32) => let c := (s.gcore k); let a := ((s.g k (gRa w) + (w.extractLsb' 0
      12).signExtend 64).toNat); CoreQuiet s k ∧ CoreRuns s k w 0x11 ∧ a % 4 = 0 ∧ 0x20000000 ≤ a ∧ a < 0x30000000 ∧ c.host
      = true) (onHost State.reset 0 0x04461000 [(1, 0x20000000)]) 0 0x04461000) ∧
    ((fun (s : State) (k : Fin 9) (w : BitVec 32) => let c := (s.gcore k); let a := ((s.g k (gRa w) + (w.extractLsb' 0
      12).signExtend 64).toNat); CoreQuiet s k ∧ CoreRuns s k w 0x11 ∧ a % 4 = 0 ∧ 0x20000000 ≤ a ∧ a < 0x30000000 ∧ c.host
      = true) (onHost State.reset 0 0x04461FFC [(1, 0x30000000)]) 0 0x04461FFC) ∧
    ((fun (s : State) (k : Fin 9) (w : BitVec 32) => let a := ((s.g k (gRa w) + (w.extractLsb' 0 12).signExtend 64).toNat);
      CoreQuiet s k ∧ CoreRuns s k w 0x12 ∧ a < 0x7E000) (onHost State.reset 0 0x04861FFF [(1, 0x7E000)]) 0 0x04861FFF) ∧
    ((fun (s : State) (k : Fin 9) (w : BitVec 32) => let c := (s.gcore k); let a := ((s.g k (gRa w) + (w.extractLsb' 0
      12).signExtend 64).toNat); CoreQuiet s k ∧ CoreRuns s k w 0x10 ∧ a % 8 = 0 ∧ 0x10000000 ≤ a ∧ a < 0x10800000 ∧ c.host
      = false ∧ k.val = 8 ∧ s.rd R.PS_STAT_STATE = 3)
      (onRom (State.reset.wr R.PS_STAT_STATE 3) 8 [(1, 0x10000000)]) 8 0x04061000) := by
  refine ⟨?_, ?_, ?_, ?_, ?_, ?_, ?_, ?_, ?_, ?_, ?_, ?_, ?_, ?_, ?_, ?_⟩ <;> (try dsimp only) <;> decide +kernel

theorem witness_CoreReadsOfDeviceObjects :
    ((fun (s : State) (k : Fin 9) (w : BitVec 32) => let c := (s.gcore k); let h := (s.g k (gRa w)); let bank := (fld h 18
      16); let i := (fld h 6 0); CoreRuns s k w 0x28 ∧ c.host = false ∧ MainOn s k ∧ h.toNat < 2 ^ 19 ∧ fld h 14 7 = 0 ∧
      bank ≤ 4 ∧ i < (if bank = 4 then 32 else 80))
      (onRom ({ State.reset with ctr := { State.reset.ctr with snap := ⟨[(543, 9)]⟩, count := ⟨[(79, 0xFFFFFFFFFFFF)]⟩ } }) 0 [(1, 0x4801F)]) 0 0x0A061000)
      ∧
    ((fun (s : State) (k : Fin 9) (w : BitVec 32) => let c := (s.gcore k); let h := (s.g k (gRa w)); let bank := (fld h 18
      16); let i := (fld h 6 0); CoreRuns s k w 0x28 ∧ c.host = false ∧ MainOn s k ∧ h.toNat < 2 ^ 19 ∧ fld h 14 7 = 0 ∧
      bank ≤ 4 ∧ i < (if bank = 4 then 32 else 80))
      (onRom ({ State.reset with ctr := { State.reset.ctr with count := ⟨[(79, 0xFFFFFFFFFFFF)]⟩ } }) 8 [(1, 79)]) 8 0x0A061000)
      ∧
    ((fun (s : State) (k : Fin 9) (w : BitVec 32) => let c := (s.gcore k); let h := (s.g k (gRa w)); CoreRuns s k w 0x2E ∧
      c.host = false ∧ MainOn s k ∧ h.toNat < 2 ^ 19 ∧ fld h 15 14 = 0) (onRom State.reset 0 [(1, 0x73FFF)]) 0 0x0B861000) ∧
    ((fun (s : State) (k : Fin 9) (w : BitVec 32) => let c := (s.gcore k); let h := (s.g k (gRa w)); CoreRuns s k w 0x2E ∧
      c.host = false ∧ MainOn s k ∧ h.toNat < 2 ^ 19 ∧ fld h 15 14 = 0) (onRom State.reset 0 [(1, 0)]) 0 0x0B861000) ∧
    ((fun (s : State) (k : Fin 9) (w : BitVec 32) => let c := (s.gcore k); let h := (s.g k (gRa w)); let tk :=
      (c.tickets.get h.toNat); CoreRuns s k w 0x2B ∧ h.toNat < 16 ∧ tk.st ≠ 0)
      (ticket0 (onHost State.reset 0 0x0AC61000 []) 0 3 3) 0 0x0AC61000) ∧
    ((fun (s : State) (k : Fin 9) (w : BitVec 32) => let c := (s.gcore k); let h := (s.g k (gRa w)); let tk :=
      (c.tickets.get h.toNat); CoreRuns s k w 0x2B ∧ h.toNat < 16 ∧ tk.st ≠ 0)
      (ticket0 (onHost State.reset 0 0x0AC00000 []) 0 1 1) 0 0x0AC00000) ∧
    ((fun (s : State) (k : Fin 9) (w : BitVec 32) => let c := (s.gcore k); let h := (s.g k (gRa w)); let tk :=
      (c.tickets.get h.toNat); CoreRuns s k w 0x2B ∧ CoreQuiet s k ∧ ((h.toNat ≥ 16 ∨ tk.st = 0)))
      (onHost State.reset 0 0x0AC61000 [(1, 16)]) 0 0x0AC61000) ∧
    ((fun (s : State) (k : Fin 9) (w : BitVec 32) => let c := (s.gcore k); let h := (s.g k (gRa w)); let tk :=
      (c.tickets.get h.toNat); CoreRuns s k w 0x2B ∧ CoreQuiet s k ∧ ((h.toNat ≥ 16 ∨ tk.st = 0)))
      (onHost State.reset 0 0x0AC61000 [(1, 15)]) 0 0x0AC61000) := by
  refine ⟨?_, ?_, ?_, ?_, ?_, ?_, ?_, ?_⟩ <;> (try dsimp only) <;> decide +kernel

theorem witness_CoreMailboxes :
    ((fun (s : State) (k : Fin 9) (w : BitVec 32) => let c := (s.gcore k); let dst := ((s.g k (gRa w)).toNat); CoreRuns s k
      w 0x2D ∧ c.host = false ∧ MainOn s k ∧ dst < 9 ∧ (s.gcore dst).mbox.length < 16)
      (onRom State.reset 0 [(1, 8), (2, 7)]) 0 0x0B461100) ∧
    ((fun (s : State) (k : Fin 9) (w : BitVec 32) => let c := (s.gcore k); let dst := ((s.g k (gRa w)).toNat); CoreRuns s k
      w 0x2D ∧ c.host = false ∧ MainOn s k ∧ dst < 9 ∧ (s.gcore dst).mbox.length < 16)
      (onRom (State.reset.updCore 0 fun c => { c with mbox := List.replicate 15 (1, 2) }) 0 [(2, 7)]) 0 0x0B400100) ∧
    ((fun (s : State) (k : Fin 9) (w : BitVec 32) => let c := (s.gcore k); let dst := ((s.g k (gRa w)).toNat); CoreRuns s k
      w 0x2D ∧ c.host = false ∧ MainOn s k ∧ dst < 9 ∧ (s.gcore dst).mbox.length ≥ 16)
      (onRom (State.reset.updCore 8 fun c => { c with mbox := List.replicate 16 (1, 2) }) 0 [(1, 8), (2, 7)]) 0 0x0B461100)
      ∧
    ((fun (s : State) (k : Fin 9) (w : BitVec 32) => let c := (s.gcore k); CoreRuns s k w 0x37 ∧ c.mbox = [])
      (onHost State.reset 0 0x0DC64000 []) 0 0x0DC64000) ∧
    ((fun (s : State) (k : Fin 9) (w : BitVec 32) (src : Nat) (y : BitVec 64) (rest : List (Nat × BitVec 64)) => let c :=
      (s.gcore k); CoreRuns s k w 0x37 ∧ c.mbox = (src, y) :: rest)
      (onRom (State.reset.updCore 0 fun c => { c with mbox := [(8, 2)] }) 0 []) 0 0x0DC64000 8 2 ([])) ∧
    ((fun (s : State) (k : Fin 9) (w : BitVec 32) (src : Nat) (y : BitVec 64) (rest : List (Nat × BitVec 64)) => let c :=
      (s.gcore k); CoreRuns s k w 0x37 ∧ c.mbox = (src, y) :: rest)
      (onRom (State.reset.updCore 0 fun c => { c with mbox := [(8, 2), (0, 1)] }) 0 []) 0 0x0DC63000 8 2 ([(0, 1)])) := by
  refine ⟨?_, ?_, ?_, ?_, ?_, ?_⟩ <;> (try dsimp only) <;> decide +kernel

theorem witness_CommitGroupStaging :
    ((fun (s : State) (k : Fin 9) (w : BitVec 32) => let c := (s.gcore k); CoreRuns s k w 0x30 ∧ c.group = none)
      (onHost State.reset 0 0x0C000000 []) 0 0x0C000000) ∧
    ((fun (s : State) (k : Fin 9) (w : BitVec 32) => let c := (s.gcore k); CoreRuns s k w 0x30 ∧ CoreQuiet s k ∧ c.group ≠
      none) (withGroup (onRom State.reset 0 []) 0 []) 0 0x0C000000) ∧
    ((fun (s : State) (k : Fin 9) (w : BitVec 32) => let c := (s.gcore k); CoreRuns s k w 0x36 ∧ c.group ≠ none)
      (withGroup (onRom State.reset 0 []) 0 []) 0 0x0D800000) ∧
    ((fun (s : State) (k : Fin 9) (w : BitVec 32) (g : List GroupSlot) => let c := (s.gcore k); let a := (s.g k (gRa w));
      let b := (s.g k (gRb w)); let room := (fun (g : List GroupSlot) (x : GroupSlot) => c.group = some g ∧ g.length < 64 ∧
      ∀ y ∈ g, sameSlot x y = false); let dom : GroupSlot := (.dom (fld a 13 0) (setFld (s.entry (fld a 13 0)) (64 * fld a
      18 16 + 63) (64 * fld a 18 16) b.toNat)); CoreRuns s k w 0x31 ∧ c.host = false ∧ a.toNat < 2 ^ 19 ∧ fld a 15 14 = 0 ∧
      room g dom) (withGroup (onRom State.reset 0 [(1, 0x73FFF), (2, 5)]) 0 []) 0 0x0C401100 ([])) ∧
    ((fun (s : State) (k : Fin 9) (w : BitVec 32) (g : List GroupSlot) => let c := (s.gcore k); let a := (s.g k (gRa w));
      let b := (s.g k (gRb w)); let room := (fun (g : List GroupSlot) (x : GroupSlot) => c.group = some g ∧ g.length < 64 ∧
      ∀ y ∈ g, sameSlot x y = false); let dom : GroupSlot := (.dom (fld a 13 0) (setFld (s.entry (fld a 13 0)) (64 * fld a
      18 16 + 63) (64 * fld a 18 16) b.toNat)); CoreRuns s k w 0x31 ∧ c.host = false ∧ a.toNat < 2 ^ 19 ∧ fld a 15 14 = 0 ∧
      room g dom) (withGroup (onRom State.reset 0 [(1, 0), (2, 1)]) 0 [.ctr 0 0 0]) 0 0x0C401100 ([.ctr 0 0 0])) ∧
    ((fun (s : State) (k : Fin 9) (w : BitVec 32) (g : List GroupSlot) => let c := (s.gcore k); let a := (s.g k (gRa w));
      let b := (s.g k (gRb w)); let room := (fun (g : List GroupSlot) (x : GroupSlot) => c.group = some g ∧ g.length < 64 ∧
      ∀ y ∈ g, sameSlot x y = false); let rgl : GroupSlot := (.rgl a.toNat (b.setWidth 32)); CoreRuns s k w 0x32 ∧ c.host =
      false ∧ a.toNat ∈ stagedRgl ∧ legalWrite a.toNat (b.setWidth 32) = true ∧ room g rgl)
      (withGroup (onRom State.reset 0 [(1, 0x201000), (2, 0x01000000)]) 0 (List.replicate 63 (.ctr 0 0 0))) 0 0x0C801100 (List.replicate 63 (.ctr 0 0 0)))
      ∧
    ((fun (s : State) (k : Fin 9) (w : BitVec 32) (v : BitVec 32) => let c := (s.gcore k); let a := (s.g k (gRa w)); let b
      := (s.g k (gRb w)); CoreRuns s k w 0x32 ∧ c.host = false ∧ a.toNat ∈ stagedRgl ∧ legalWrite a.toNat (b.setWidth 32) =
      true ∧ c.group = some [.rgl a.toNat v])
      (withGroup (onRom State.reset 0 [(1, 0x201000), (2, 0x01000000)]) 0 [.rgl 0x201000 7]) 0 0x0C801100 7) ∧
    ((fun (s : State) (k : Fin 9) (w : BitVec 32) (g : List GroupSlot) => let c := (s.gcore k); let a := (s.g k (gRa w));
      let b := (s.g k (gRb w)); let room := (fun (g : List GroupSlot) (x : GroupSlot) => c.group = some g ∧ g.length < 64 ∧
      ∀ y ∈ g, sameSlot x y = false); let sh := (if a.getLsbD 8 then R.SH_CTL (fld a 4 0) else R.SH_BKT (fld a 4 0) (fld a
      21 16)); CoreRuns s k w 0x33 ∧ c.host = false ∧ a.toNat < 2 ^ 22 ∧ fld a 7 5 = 0 ∧ fld a 15 9 = 0 ∧ ((a.getLsbD 8 =
      true → fld a 21 16 = 0)) ∧ legalWrite sh (b.setWidth 32) = true ∧ room g (.shape sh (b.setWidth 32)))
      (withGroup (onRom State.reset 0 [(1, 0x3F001F), (2, 5)]) 0 []) 0 0x0CC01100 ([])) ∧
    ((fun (s : State) (k : Fin 9) (w : BitVec 32) (g : List GroupSlot) => let c := (s.gcore k); let a := (s.g k (gRa w));
      let b := (s.g k (gRb w)); let room := (fun (g : List GroupSlot) (x : GroupSlot) => c.group = some g ∧ g.length < 64 ∧
      ∀ y ∈ g, sameSlot x y = false); let sh := (if a.getLsbD 8 then R.SH_CTL (fld a 4 0) else R.SH_BKT (fld a 4 0) (fld a
      21 16)); CoreRuns s k w 0x33 ∧ c.host = false ∧ a.toNat < 2 ^ 22 ∧ fld a 7 5 = 0 ∧ fld a 15 9 = 0 ∧ ((a.getLsbD 8 =
      true → fld a 21 16 = 0)) ∧ legalWrite sh (b.setWidth 32) = true ∧ room g (.shape sh (b.setWidth 32)))
      (withGroup (onRom State.reset 0 [(1, 0x101), (2, 0x80000000)]) 0 []) 0 0x0CC01100 ([])) ∧
    ((fun (s : State) (k : Fin 9) (w : BitVec 32) (g : List GroupSlot) => let c := (s.gcore k); let a := (s.g k (gRa w));
      let b := (s.g k (gRb w)); let room := (fun (g : List GroupSlot) (x : GroupSlot) => c.group = some g ∧ g.length < 64 ∧
      ∀ y ∈ g, sameSlot x y = false); let ctr : GroupSlot := (.ctr (fld a 18 16) (fld a 6 0) b); CoreRuns s k w 0x34 ∧
      c.host = false ∧ a.toNat < 2 ^ 19 ∧ fld a 14 7 = 0 ∧ a.getLsbD 15 = false ∧ fld a 18 16 ≤ 4 ∧ fld a 6 0 < (if fld a 18
      16 = 4 then 32 else 64) ∧ legalWrite (ctlOff (fld a 18 16) (fld a 6 0)) (b.setWidth 32) = true ∧ room g ctr)
      (withGroup (onRom State.reset 0 [(1, 0x4001F), (2, 5)]) 0 []) 0 0x0D001100 ([])) ∧
    ((fun (s : State) (k : Fin 9) (w : BitVec 32) (g : List GroupSlot) => let c := (s.gcore k); let a := (s.g k (gRa w));
      let b := (s.g k (gRb w)); let room := (fun (g : List GroupSlot) (x : GroupSlot) => c.group = some g ∧ g.length < 64 ∧
      ∀ y ∈ g, sameSlot x y = false); let ctr : GroupSlot := (.ctr (fld a 18 16) (fld a 6 0) b); CoreRuns s k w 0x34 ∧
      c.host = false ∧ a.toNat < 2 ^ 19 ∧ fld a 14 7 = 0 ∧ a.getLsbD 15 = false ∧ fld a 18 16 ≤ 4 ∧ fld a 6 0 < (if fld a 18
      16 = 4 then 32 else 64) ∧ legalWrite (ctlOff (fld a 18 16) (fld a 6 0)) (b.setWidth 32) = true ∧ room g ctr)
      (withGroup (onRom State.reset 0 [(1, 63), (2, 0)]) 0 []) 0 0x0D001100 ([])) ∧
    ((fun (s : State) (k : Fin 9) (w : BitVec 32) (g : List GroupSlot) => let c := (s.gcore k); let a := (s.g k (gRa w));
      let b := (s.g k (gRb w)); let rgl : GroupSlot := (.rgl a.toNat (b.setWidth 32)); CoreRuns s k w 0x32 ∧ CoreQuiet s k ∧
      c.host = false ∧ a.toNat ∈ stagedRgl ∧ legalWrite a.toNat (b.setWidth 32) = true ∧ c.group = some g ∧ g.length = 64 ∧
      ((∀ y ∈ g, sameSlot rgl y = false)))
      (withGroup (onRom State.reset 8 [(1, 0x201000), (2, 0x01000000)]) 8 (List.replicate 64 (.ctr 0 0 0))) 8 0x0C801100 (List.replicate 64 (.ctr 0 0 0))) := by
  refine ⟨?_, ?_, ?_, ?_, ?_, ?_, ?_, ?_, ?_, ?_, ?_, ?_⟩ <;> (try dsimp only) <;> decide +kernel

theorem witness_AsynchronousWorkTakesATicket :
    ((fun (s : State) (k : Fin 9) (w : BitVec 32) (tk : Nat) => let c := (s.gcore k); let a := (s.g k (gRa w)); let d :=
      (ofLe 256 (c.bytes a.toNat 32)); let x : Scan :=
      ({ core := k, tk := tk, dom := fld d 15 0, mode := fld d 23 16, states := fld d 31 24, thr := fld d 39 32, start := fld d 97 64, count := fld d 159 128, outptr := fld d 191 160, outmax := fld d 207 192, gone := none });
      let took := (s.takeTicket k tk 1); CoreRuns s k w 0x29 ∧ c.host = false ∧ MainOn s k ∧ a.toNat % 8 = 0 ∧ a.toNat + 32
      ≤ 0x7E000 ∧ LowestFree c tk ∧ took.scanStatus x d = 0)
      (onRom ((withDom State.reset).updCore 0 fun c => { c with dmem := ⟨[(64508, 0x01000005), (64510, 0x0000004000000001), (64511, 1)]⟩ }) 0 [(1, 0x7DFE0)]) 0 0x0A461000 0)
      ∧
    ((fun (s : State) (k : Fin 9) (w : BitVec 32) (tk : Nat) => let c := (s.gcore k); let a := (s.g k (gRa w)); let d :=
      (ofLe 256 (c.bytes a.toNat 32)); let x : Scan :=
      ({ core := k, tk := tk, dom := fld d 15 0, mode := fld d 23 16, states := fld d 31 24, thr := fld d 39 32, start := fld d 97 64, count := fld d 159 128, outptr := fld d 191 160, outmax := fld d 207 192, gone := none });
      let took := (s.takeTicket k tk 1); CoreRuns s k w 0x29 ∧ c.host = false ∧ MainOn s k ∧ a.toNat % 8 = 0 ∧ a.toNat + 32
      ≤ 0x7E000 ∧ LowestFree c tk ∧ took.scanStatus x d = 0)
      (onRom (ticket0 ((withDom State.reset).updCore 0 fun c => { c with dmem := ⟨[(64508, 0x01000005), (64510, 0x0000004000000001), (64511, 1)]⟩ }) 0 1 1) 0 [(1, 0x7DFE0)]) 0 0x0A461000 1)
      ∧
    ((fun (s : State) (k : Fin 9) (w : BitVec 32) (tk : Nat) => let c := (s.gcore k); let a := (s.g k (gRa w)); let b :=
      (s.g k (gRb w)); let begun := (fun (s : State) => s.startMig (fld a 61 48) (s.entry (fld a 61 48)) (s.pageDpa (s.entry
      (fld a 61 48)) (fld a 33 0)) (migKind (fld b 1 0)) (if fld b 7 4 = 15 then 16 else fld b 7 4) (.ticket k tk) false);
      CoreRuns s k w 0x2A ∧ c.host = false ∧ MainOn s k ∧ LowestFree c tk ∧ (s.takeTicket k tk 2).migRefusal a b = 0 ∧
      (begun (s.takeTicket k tk 2)).1 = 0) (onRom movable 0 [(1, 0x0005000000000000), (2, 0xF2)]) 0 0x0A861100 0) ∧
    ((fun (s : State) (k : Fin 9) (w : BitVec 32) (tk : Nat) => let c := (s.gcore k); let a := (s.g k (gRa w)); let b :=
      (s.g k (gRb w)); CoreRuns s k w 0x2A ∧ c.host = false ∧ MainOn s k ∧ LowestFree c tk ∧ (s.takeTicket k tk
      2).migRefusal a b ≠ 0) (onRom State.reset 0 [(1, 0x0005000000000000), (2, 0xF0)]) 0 0x0A861100 0) ∧
    ((fun (s : State) (k : Fin 9) (w : BitVec 32) (tk : Nat) => let c := (s.gcore k); let a := (s.g k (gRa w)); let b :=
      (s.g k (gRb w)); CoreRuns s k w 0x2A ∧ c.host = false ∧ MainOn s k ∧ LowestFree c tk ∧ (s.takeTicket k tk
      2).migRefusal a b ≠ 0) (onRom (withDom State.reset) 0 [(1, 0x0005000000000200), (2, 0xF0)]) 0 0x0A861100 0) ∧
    ((fun (s : State) (k : Fin 9) (w : BitVec 32) (tk : Nat) => let c := (s.gcore k); CoreRuns s k w 0x35 ∧ MainOn s k ∧
      LowestFree c tk ∧ c.group ≠ none) (withGroup (onRom State.reset 0 []) 0 []) 0 0x0D460000 0) ∧
    ((fun (s : State) (k : Fin 9) (w : BitVec 32) (tk : Nat) => let c := (s.gcore k); CoreRuns s k w 0x35 ∧ MainOn s k ∧
      LowestFree c tk ∧ c.group ≠ none) (withGroup (onRom State.reset 8 []) 8 [.ctr 0 0 0]) 8 0x0D400000 0) ∧
    ((fun (s : State) (k : Fin 9) (w : BitVec 32) => let c := (s.gcore k); CoreRuns s k w 0x35 ∧ CoreQuiet s k ∧ MainOn s k
      ∧ ((∀ i, i < 16 → (c.tickets.get i).st ≠ 0)) ∧ c.group ≠ none)
      (((onHost State.reset 0 0x0D460000 []).updCore 0 fun c => { c with group := some [], tickets := ⟨(List.range 16).map fun i => (i, { op := 3, st := 1, status := 0, a := 0, b := 0 })⟩ })) 0 0x0D460000) := by
  refine ⟨?_, ?_, ?_, ?_, ?_, ?_, ?_, ?_⟩ <;> (try dsimp only) <;> decide +kernel

theorem witness_TicketsScansAndProgramRuns :
    ((fun (s : State) (k : Fin 9) (w : BitVec 32) (tk : Fin 17) (x : Scan) => let c := (s.gcore k); let h := (s.g k (gRa
      w)); let found := (s.core.scans.find? fun x => x.core == k.val && x.tk == tk.val); CoreRuns s k w 0x2F ∧ MainOn s k ∧
      h.toNat = tk.val ∧ tk.val < 16 ∧ (c.tickets.get tk).st = 1 ∧ (c.tickets.get tk).op = 1 ∧ found = some x)
      ({ ticket0 (onHost State.reset 0 0x0BC61000 []) 0 1 1 with core := { (ticket0 (onHost State.reset 0 0x0BC61000 []) 0 1 1).core with scans := [{ core := 0, tk := 0, dom := 5, mode := 0, states := 1, thr := 0, start := 0, count := 1, outptr := 64, outmax := 1, gone := none }] } }) 0 0x0BC61000 0 ({ core := 0, tk := 0, dom := 5, mode := 0, states := 1, thr := 0, start := 0, count := 1, outptr := 64, outmax := 1, gone := none }))
      ∧
    ((fun (s : State) (k : Fin 9) (w : BitVec 32) (tk : Fin 17) => let c := (s.gcore k); let h := (s.g k (gRa w)); CoreRuns
      s k w 0x2F ∧ MainOn s k ∧ h.toNat = tk.val ∧ tk.val < 16 ∧ (c.tickets.get tk).st ≠ 0 ∧ (c.tickets.get tk).op = 3)
      (ticket0 (onHost State.reset 0 0x0BC61000 []) 0 3 1) 0 0x0BC61000 0) ∧
    ((fun (s : State) (k : Fin 9) (tk : Fin 17) (x : Scan) => let found := (s.core.scans.find? fun x => x.core == k.val &&
      x.tk == tk.val); found = some x)
      ({ State.reset with core := { State.reset.core with scans := [{ core := 0, tk := 0, dom := 5, mode := 0, states := 1, thr := 0, start := 0, count := 1, outptr := 64, outmax := 1, gone := none }] } }) 0 0 ({ core := 0, tk := 0, dom := 5, mode := 0, states := 1, thr := 0, start := 0, count := 1, outptr := 64, outmax := 1, gone := none }))
      ∧
    ((fun (s : State) (k : Fin 9) (tk : Fin 17) (x : Scan) (n : Nat) (m : Nat) => let c := (s.gcore k); let found :=
      (s.core.scans.find? fun x => x.core == k.val && x.tk == tk.val); found = some x ∧ x.gone = some (n, m) ∧ tk.val < 16 ∧
      (c.tickets.get tk).st = 1)
      ({ State.reset with core := { (ticket0 State.reset 0 1 1).core with scans := [{ core := 0, tk := 0, dom := 5, mode := 0, states := 1, thr := 0, start := 0, count := 1, outptr := 64, outmax := 1, gone := some (4, 2) }] } }) 0 0 ({ core := 0, tk := 0, dom := 5, mode := 0, states := 1, thr := 0, start := 0, count := 1, outptr := 64, outmax := 1, gone := some (4, 2) }) 4 2)
      ∧
    ((fun (s : State) (k : Fin 9) (x : Nat × Nat × Nat) => s.coreSt k = 0 ∧ s.nextPending k = some x)
      ({ State.reset with core := { State.reset.core with pend := [(3, 1, 0), (1, 2, 9), (1, 3, 7)] } }) 0 ((1, 2, 9))) ∧
    ((fun (s : State) (p : BitVec 16) (b : Bind) => s.core.binds = [b] ∧ b.prog = p.toNat ∧ b.code = 2 ∧ b.next ≤ s.gtc ∧
      s.hears b.prog = true ∧ s.core.pend = [])
      ({ State.reset with gtc := 1000, core := { State.reset.core with binds := [{ prog := 2, code := 2, period := 10, next := 1000 }] } }) 2 ({ prog := 2, code := 2, period := 10, next := 1000 })) := by
  refine ⟨?_, ?_, ?_, ?_, ?_, ?_⟩ <;> (try dsimp only) <;> decide +kernel

theorem witness_WaitsAndCheckpoints :
    ((fun (s : State) (k : Fin 9) (w : BitVec 32) (r : Nat) => let c := (s.gcore k); let m := ((s.g k (gRa w)).toNat); let
      named := (∀ i, i < 16 → m.testBit i = true → (c.tickets.get i).st ≠ 0); CoreQuiet s k ∧ CoreRuns s k w 0x2C ∧ m < 2 ^
      18 ∧ named ∧ s.waitCause k m = some r) (ticket0 (onHost State.reset 0 0x0B061100 [(1, 1)]) 0 1 3) 0 0x0B061100 0) ∧
    ((fun (s : State) (k : Fin 9) (w : BitVec 32) (r : Nat) => let c := (s.gcore k); let m := ((s.g k (gRa w)).toNat); let
      named := (∀ i, i < 16 → m.testBit i = true → (c.tickets.get i).st ≠ 0); CoreQuiet s k ∧ CoreRuns s k w 0x2C ∧ m < 2 ^
      18 ∧ named ∧ s.waitCause k m = some r)
      (onHost (State.reset.updCore 8 fun c => { c with mbox := [(0, 1)], tickets := ⟨(List.range 16).map fun i => (i, { op := 3, st := 1, status := 0, a := 0, b := 0 })⟩ }) 8 0x0B061100 [(1, 0x3FFFE)]) 8 0x0B061100 16)
      ∧
    ((fun (s : State) (k : Fin 9) (w : BitVec 32) (r : Nat) => let c := (s.gcore k); let m := ((s.g k (gRa w)).toNat); let
      named := (∀ i, i < 16 → m.testBit i = true → (c.tickets.get i).st ≠ 0); CoreQuiet s k ∧ CoreRuns s k w 0x2C ∧ m < 2 ^
      18 ∧ named ∧ s.waitCause k m = some r)
      (onRom ({ State.reset with core := { State.reset.core with pend := [(0, 1, 0)] } }) 0 [(1, 0x20000)]) 0 0x0B061100 17)
      ∧
    ((fun (s : State) (k : Fin 9) (w : BitVec 32) => let c := (s.gcore k); let m := ((s.g k (gRa w)).toNat); let lim :=
      ((s.g k (gRb w)).toNat); let named := (∀ i, i < 16 → m.testBit i = true → (c.tickets.get i).st ≠ 0); CoreQuiet s k ∧
      CoreRuns s k w 0x2C ∧ m < 2 ^ 18 ∧ named ∧ s.waitCause k m = none ∧ lim = 0)
      (onHost State.reset 8 0x0B061100 [(1, 0x30000)]) 8 0x0B061100) ∧
    ((fun (s : State) (k : Fin 9) (w : BitVec 32) => let c := (s.gcore k); let m := ((s.g k (gRa w)).toNat); let lim :=
      ((s.g k (gRb w)).toNat); let named := (∀ i, i < 16 → m.testBit i = true → (c.tickets.get i).st ≠ 0); CoreQuiet s k ∧
      CoreRuns s k w 0x2C ∧ m < 2 ^ 18 ∧ named ∧ s.waitCause k m = none ∧ lim ≠ 0 ∧ k.val ≠ 8 ∧ lim < 2 ^ 64 - 1)
      (onHost State.reset 0 0x0B061100 [(1, 0x30000), (2, 1)]) 0 0x0B061100) ∧
    ((fun (s : State) (k : Fin 9) (w : BitVec 32) => let c := (s.gcore k); let m := ((s.g k (gRa w)).toNat); let lim :=
      ((s.g k (gRb w)).toNat); let named := (∀ i, i < 16 → m.testBit i = true → (c.tickets.get i).st ≠ 0); CoreQuiet s k ∧
      CoreRuns s k w 0x2C ∧ m < 2 ^ 18 ∧ named ∧ s.waitCause k m = none ∧ lim ≠ 0 ∧ k.val ≠ 8 ∧ lim < 2 ^ 64 - 1)
      (onHost State.reset 7 0x0B061100 [(2, 0xFFFFFFFFFFFFFFFE)]) 7 0x0B061100) ∧
    ((fun (s : State) (k : Fin 9) (w : BitVec 32) => let m := ((s.g k (gRa w)).toNat); CoreQuiet s k ∧ CoreRuns s k w 0x2C ∧
      m ≥ 2 ^ 18) (onHost State.reset 0 0x0B061100 [(1, 0x40000)]) 0 0x0B061100) ∧
    ((fun (s : State) (k : Fin 9) (x : Waitfor) (r : Nat) => let c := (s.gcore k); CoreQuiet s k ∧ s.coreSt k = 2 ∧ c.wait =
      some x ∧ s.waitCause k x.mask = some r)
      ((State.reset.updCore 0 fun c => { c with mbox := [(1, 2)], wait := some { mask := 0x10000, rd := 3, limit := none } }).setCoreSt 0 2) 0 ({ mask := 0x10000, rd := 3, limit := none }) 16)
      ∧
    ((fun (s : State) (k : Fin 9) (x : Waitfor) (u : Nat) => let c := (s.gcore k); CoreQuiet s k ∧ s.coreSt k = 2 ∧ c.wait =
      some x ∧ s.waitCause k x.mask = none ∧ x.limit = some u ∧ u ≤ s.gtc)
      ((State.reset.updCore 0 fun c => { c with wait := some { mask := 0x10000, rd := 3, limit := some 0 } }).setCoreSt 0 2) 0 ({ mask := 0x10000, rd := 3, limit := some 0 }) 0)
      ∧
    ((fun (s : State) (k : Fin 9) (w : BitVec 32) => CoreQuiet s k ∧ CoreRuns s k w 0x22)
      (onHost State.reset 0 0x08800000 []) 0 0x08800000) ∧
    ((fun (s : State) (k : Fin 9) (w : BitVec 32) => CoreQuiet s k ∧ CoreRuns s k w 0x23)
      (onHost State.reset 8 0x08C00000 []) 8 0x08C00000) ∧
    ((fun (s : State) (k : Fin 9) => let c := (s.gcore k); CoreQuiet s k ∧ s.coreSt k = 1 ∧ c.ckclk ≥ (if k.val = 8 then
      5000 else 75000)) ((State.reset.updCore 8 fun c => { c with ckclk := 5000 }).setCoreSt 8 1) 8) ∧
    ((fun (s : State) (k : Fin 9) => let c := (s.gcore k); CoreQuiet s k ∧ s.coreSt k = 1 ∧ c.ckclk ≥ (if k.val = 8 then
      5000 else 75000)) ((State.reset.updCore 7 fun c => { c with ckclk := 75000 }).setCoreSt 7 1) 7) := by
  refine ⟨?_, ?_, ?_, ?_, ?_, ?_, ?_, ?_, ?_, ?_, ?_, ?_, ?_⟩ <;> (try dsimp only) <;> decide +kernel

theorem witness_FeedStatesFollowTheirEvents :
    ((fun (s : State) (x : Feed) (v : BitVec 11) => s.feed.on = true ∧ s.feedSt x = 0 ∧ 800 + 5 * s.feedSet R.FD_WIN_UVON ≤
      v.toNat ∧ v.toNat ≤ 800 + 5 * s.feedSet R.FD_WIN_OVON) (feeds State.reset 0 3) .a 900) ∧
    ((fun (s : State) (x : Feed) (v : BitVec 11) => s.feed.on = true ∧ s.feedSt x = 0 ∧ 800 + 5 * s.feedSet R.FD_WIN_UVON ≤
      v.toNat ∧ v.toNat ≤ 800 + 5 * s.feedSet R.FD_WIN_OVON) (feeds State.reset 3 0) .b 1160) ∧
    ((fun (s : State) (x : Feed) => s.feed.on = true ∧ s.feedSt x = 1) (feeds State.reset 1 1) .a) ∧
    ((fun (s : State) (x : Feed) => s.feed.on = true ∧ s.feedSt x = 1) (feeds (put State.reset R.FD_STAT_EVHEAD 15) 0 1) .b)
      ∧
    ((fun (s : State) (x : Feed) (v : BitVec 11) (b : BitVec 11) => s.feed.on = true ∧ s.feedSt x = 2 ∧ b.toNat + 20 ≥
      v.toNat) (feeds State.reset 2 2) .b 900 880) ∧
    ((fun (s : State) (x : Feed) => s.feed.on = true ∧ s.feedSt x ∈ [1, 2, 3]) (feeds State.reset 1 1) .a) ∧
    ((fun (s : State) (x : Feed) => s.feed.on = true ∧ s.feedSt x ∈ [1, 2, 3]) (feeds State.reset 3 2) .a) ∧
    ((fun (s : State) (x : Feed) => s.feed.on = true ∧ s.feedSt x ∈ [1, 2, 3]) (feeds State.reset 3 2) .b) ∧
    ((fun (s : State) (x : Feed) => s.feed.on = true ∧ s.feedSt x = 4) (feeds State.reset 4 0) .a) ∧
    ((fun (s : State) (x : Feed) => s.feed.on = true ∧ s.feedSt x = 5 ∧ s.flag R.FD_STAT_TLATCH = false)
      (feeds State.reset 5 5) .b) ∧
    ((fun (s : State) (x : Feed) => s.feed.on = true ∧ s.feedSt x ≠ 6) (feeds State.reset 0 0) .a) ∧
    ((fun (s : State) (x : Feed) => s.feed.on = true ∧ s.feedSt x ≠ 6) (feeds State.reset 0 5) .b) ∧
    ((fun (s : State) (x : Feed) => s.feed.on = true ∧ s.feedSt x = 6) (feeds State.reset 6 6) .b) ∧
    ((fun (s : State) (x : Feed) (b : BitVec 11) (v : BitVec 11) (r : BitVec 11) => s.feed.on = true ∧ s.feedSt x = 2 ∧
      b.toNat + 20 < v.toNat ∧ s.slowRise r.toNat = true) (feeds State.reset 2 0) .a 0 900 0) ∧
    ((fun (s : State) (x : Feed) (b : BitVec 11) (v : BitVec 11) (r : BitVec 11) => s.feed.on = true ∧ s.feedSt x = 2 ∧
      b.toNat + 20 < v.toNat ∧ s.slowRise r.toNat = true) (feeds State.reset 0 2) .b 879 900 5) ∧
    ((fun (s : State) (x : Feed) (b : BitVec 11) (v : BitVec 11) (r : BitVec 11) => s.feed.on = true ∧ s.feedSt x = 2 ∧
      b.toNat + 20 < v.toNat ∧ s.slowRise r.toNat = true)
      (feeds ({ State.reset with feed := { State.reset.feed with set := ⟨[(R.FD_RETRY, 0x01520000)]⟩ } }) 2 0) .a 0 900 0) ∧
    ((fun (s : State) (x : Feed) => s.feed.on = true ∧ s.feedSt x = 2) (feeds State.reset 2 0) .a) ∧
    ((fun (s : State) (x : Feed) => s.feed.on = true ∧ s.feedSt x = 2) (feeds (put State.reset R.FD_STAT_TRIPB 3) 0 2) .b) ∧
    ((fun (s : State) (x : Feed) => s.feed.on = true ∧ s.feedSt x = 2) (feeds (put State.reset R.FD_STAT_TRIPB 7) 0 2) .b) ∧
    ((fun (s : State) (x : Feed) (i : BitVec 10) (n : BitVec 32) (r : Nat × Nat) => s.feed.on = true ∧ s.feedSt x = 3 ∧ n ≠
      0 ∧ s.firstTrip x i.toNat n.toNat = some r)
      (feeds State.reset 3 3) .a 1023 0xFFFFFFFF (((feeds State.reset 3 3).firstTrip .a 1023 0xFFFFFFFF).getD (0, 0))) ∧
    ((fun (s : State) (x : Feed) (i : BitVec 10) (n : BitVec 32) (r : Nat × Nat) => s.feed.on = true ∧ s.feedSt x = 3 ∧ n ≠
      0 ∧ s.firstTrip x i.toNat n.toNat = some r)
      (feeds State.reset 3 3) .b 450 1250 (((feeds State.reset 3 3).firstTrip .b 450 1250).getD (0, 0))) ∧
    ((fun (s : State) (x : Feed) (i : BitVec 11) => s.feed.on = true ∧ s.feedSt x = 3 ∧ i.toNat > s.feedSet R.FD_SHUNT_FAST)
      (feeds State.reset 3 0) .a 501) ∧
    ((fun (s : State) (x : Feed) (i : BitVec 11) => s.feed.on = true ∧ s.feedSt x = 3 ∧ i.toNat > s.feedSet R.FD_SHUNT_FAST)
      (feeds State.reset 0 3) .b 2047) ∧
    ((fun (s : State) (x : Feed) (i : BitVec 11) => s.feed.on = true ∧ s.feedSt x = 2 ∧ i.toNat > 4 * s.feedSet
      R.FD_SEQ_INRUSH) (feeds State.reset 2 2) .a 81) ∧
    ((fun (s : State) (x : Feed) => s.feed.on = true ∧ s.feedSt x = 3) (feeds (put State.reset R.FD_STAT_TRIPA 7) 3 3) .a) := by
  refine ⟨?_, ?_, ?_, ?_, ?_, ?_, ?_, ?_, ?_, ?_, ?_, ?_, ?_, ?_, ?_, ?_, ?_, ?_, ?_, ?_, ?_, ?_, ?_, ?_, ?_⟩ <;> (try dsimp only) <;> decide +kernel

theorem witness_FeedPowerGoodAndRelease :
    ((fun (s : State) (x : Feed) => s.feed.on = true ∧ s.flag R.FD_STAT_PG = false ∧ s.flag R.FD_STAT_PFW = false ∧ s.feedSt
      x = 3 ∧ s.feed.acc = Tab.empty) (put State.reset (feedState .b) 3) .b) ∧
    ((fun (s : State) => s.feed.on = true ∧ s.flag R.FD_STAT_PG = true) (feeds (put State.reset R.FD_STAT_PG 1) 3 3)) ∧
    ((fun (s : State) => s.feed.on = true ∧ s.flag R.FD_STAT_PG = true ∧ s.flag R.FD_STAT_PFW = false ∧ s.feedSt .a ≠ 3 ∧
      s.feedSt .b ≠ 3) (feeds (put State.reset R.FD_STAT_PG 1) 0 2)) ∧
    ((fun (s : State) => s.feed.on = true ∧ s.flag R.FD_STAT_PG = true ∧ s.flag R.FD_STAT_PFW = false ∧ s.feedSt .a ≠ 3 ∧
      s.feedSt .b ≠ 3) (feeds (put State.reset R.FD_STAT_PG 1) 0 0)) ∧
    ((fun (s : State) => s.feed.on = true ∧ s.flag R.FD_STAT_PG = true ∧ s.flag R.FD_STAT_PFW = false ∧ s.feedSt .a ≠ 3 ∧
      s.feedSt .b ≠ 3) (feeds (put State.reset R.FD_STAT_PG 1) 4 5)) ∧
    ((fun (s : State) => s.feed.on = true ∧ s.flag R.FD_STAT_PFW = true ∧ s.peat.flushDone = true)
      (feeds (let s := (put State.reset R.FD_STAT_PFW 1); { s with peat := { s.peat with flushDone := true } }) 3 1)) ∧
    ((fun (s : State) => s.feed.on = true ∧ s.flag R.FD_STAT_PFW = true) (feeds (put State.reset R.FD_STAT_PFW 1) 2 4)) ∧
    ((fun (s : State) => s.feed.on = true ∧ s.flag R.FD_STAT_PFW = true)
      ((let s := feeds (put State.reset R.FD_STAT_PFW 1) 2 5; { s with feed := { s.feed with hot := true } }))) ∧
    ((fun (s : State) (x : Feed) => s.feed.on = true ∧ s.feedSt x ∈ [2, 3]) (feeds State.reset 2 3) .a) ∧
    ((fun (s : State) (x : Feed) => s.feed.on = true ∧ s.feedSt x ∈ [2, 3]) (feeds State.reset 2 3) .b) ∧
    ((fun (s : State) => s.feed.on = true) (feeds State.reset 2 3)) := by
  refine ⟨?_, ?_, ?_, ?_, ?_, ?_, ?_, ?_, ?_, ?_, ?_⟩ <;> (try dsimp only) <;> decide +kernel

theorem witness_FeedSettingsAndCommands :
    ((fun (s : State) (p : Path) => let live := (s.flag R.FD_LINK_LOST = false ∧ s.feed.on = true); Writable s p R.FD_COMMIT
      0x80000000 ∧ live) awake .bar) ∧
    ((fun (s : State) (p : Path) => let live := (s.flag R.FD_LINK_LOST = false ∧ s.feed.on = true); Writable s p R.FD_COMMIT
      0x80000000 ∧ live) ((put awake R.FD_WIN_UVON 73)) .sideband) ∧
    ((fun (s : State) (p : Path) => let live := (s.flag R.FD_LINK_LOST = false ∧ s.feed.on = true); Writable s p R.FD_COMMIT
      0x80000000 ∧ live) ((put awake (⟨R.FD_BP0, 31, 22⟩ : Fld) 0)) .rom) ∧
    ((fun (s : State) (p : Path) => let live := (s.flag R.FD_LINK_LOST = false ∧ s.feed.on = true); Writable s p R.FD_COMMIT
      0x80000000 ∧ live) ((put awake R.FD_SHUNT_SHUNT 9)) .bar) ∧
    ((fun (s : State) (p : Path) => let live := (s.flag R.FD_LINK_LOST = false ∧ s.feed.on = true); Writable s p R.FD_COMMIT
      0x80000000 ∧ live) ((put awake R.FD_PFW_VPFW 17)) .bar) ∧
    ((fun (s : State) (p : Path) => let live := (s.flag R.FD_LINK_LOST = false ∧ s.feed.on = true); Writable s p R.FD_COMMIT
      0xC0000000 ∧ live) ((put awake R.FD_WIN_UVON 73)) .bar) ∧
    ((fun (s : State) (p : Path) => let live := (s.flag R.FD_LINK_LOST = false ∧ s.feed.on = true); Writable s p R.FD_OTPCTL
      (setFld 0x80000000 7 0 0x5A) ∧ live ∧ s.flag R.MG_LOCK_FEEDLK = false) awake .bar) ∧
    ((fun (s : State) (p : Path) => let live := (s.flag R.FD_LINK_LOST = false ∧ s.feed.on = true); Writable s p R.FD_OTPCTL
      (setFld 0x80000000 7 0 0x5A) ∧ live ∧ s.flag R.MG_LOCK_FEEDLK = false)
      ((let s := awake; { s with feed := { s.feed with otp := some Tab.empty, set := ⟨[(R.FD_WIN, 7)]⟩ } })) .bar) ∧
    ((fun (s : State) (p : Path) (v : BitVec 32) => let live := (s.flag R.FD_LINK_LOST = false ∧ s.feed.on = true); Writable
      s p R.FD_CMD (setFld v 31 31 1) ∧ live ∧ v.getLsbD 29 = false ∧ v.getLsbD 30 = false) (feeds awake 5 5) .bar 0) ∧
    ((fun (s : State) (p : Path) (v : BitVec 32) => let live := (s.flag R.FD_LINK_LOST = false ∧ s.feed.on = true); Writable
      s p R.FD_CMD (setFld v 31 31 1) ∧ live ∧ v.getLsbD 29 = false ∧ v.getLsbD 30 = false)
      (feeds (put awake R.FD_STAT_TLATCH 1) 5 5) .bar 0) ∧
    ((fun (s : State) (p : Path) (v : BitVec 32) => let live := (s.flag R.FD_LINK_LOST = false ∧ s.feed.on = true); Writable
      s p R.FD_CMD (setFld v 30 30 1) ∧ live ∧ v.getLsbD 29 = false ∧ v.getLsbD 31 = false) (feeds awake 5 5) .bar 0) ∧
    ((fun (s : State) (p : Path) (v : BitVec 32) => let live := (s.flag R.FD_LINK_LOST = false ∧ s.feed.on = true); Writable
      s p R.FD_CMD (setFld v 30 30 1) ∧ live ∧ v.getLsbD 29 = false ∧ v.getLsbD 31 = false)
      (feeds (put awake R.FD_STAT_TRIPB 7) 5 3) .bar 0x1FFFFFFF) ∧
    ((fun (s : State) (p : Path) (v : BitVec 32) => let live := (s.flag R.FD_LINK_LOST = false ∧ s.feed.on = true); Writable
      s p R.FD_CMD (setFld v 29 29 1) ∧ live ∧ v.getLsbD 30 = false ∧ v.getLsbD 31 = false)
      (feeds (put awake R.FD_STAT_TLATCH 1) 5 3) .bar 0) ∧
    ((fun (s : State) => s.feed.on = true) (put awake R.FD_LINK_LOST 1)) ∧
    ((fun (s : State) => s.feed.missed = 2) ((let s := awake; { s with feed := { s.feed with missed := 2 } }))) ∧
    ((fun (s : State) (p : Path) => Writable s p R.FD_COMMIT 0x80000000 ∧ s.flag R.FD_LINK_LOST = true)
      (put awake R.FD_LINK_LOST 1) .bar) := by
  refine ⟨?_, ?_, ?_, ?_, ?_, ?_, ?_, ?_, ?_, ?_, ?_, ?_, ?_, ?_, ?_, ?_⟩ <;> (try dsimp only) <;> decide +kernel

theorem witness_PeatPageWritesMoveTheFrontier :
    ((fun (s : State) (f : Fin 3) (w : PeatWork) => s.peat.flush = none ∧ s.boot.supplies = true ∧ s.peat.cur = some w ∧
      f.val < 2 ∧ s.peat.inReserve = none ∧ 2 ≤ w.left)
      ((let s : State := awake; { s with peat := { s.peat with cur := some { content := .cnt, seq := 7, pages := [3], left := 2 }, frontier := 131071, seq := 8, bad := [131071, 5] } })) 1 ({ content := .cnt, seq := 7, pages := [3], left := 2 }))
      ∧
    ((fun (s : State) (w : PeatWork) => s.peat.flush = none ∧ s.boot.supplies = true ∧ s.peat.cur = some w)
      ((let s : State := awake; { s with peat := { s.peat with cur := some { content := .cnt, seq := 7, pages := [3], left := 2 }, frontier := 4, bad := [4, 5] } })) ({ content := .cnt, seq := 7, pages := [3], left := 2 }))
      ∧
    ((fun (s : State) (w : PeatWork) => s.peat.flush = none ∧ s.boot.supplies = true ∧ s.peat.cur = some w)
      ((let s : State := (put awake R.PL_STAT_RETIRED 1023); { s with peat := { s.peat with cur := some { content := .cnt, seq := 7, pages := [3], left := 2 }, frontier := 4 } })) ({ content := .cnt, seq := 7, pages := [3], left := 2 }))
      ∧
    ((fun (s : State) (f : Fin 3) (w : PeatWork) (old : Nat) => s.peat.flush = none ∧ s.boot.supplies = true ∧ s.peat.cur =
      some w ∧ f.val < 2 ∧ s.peat.inReserve = some old)
      ((let s : State := awake; { s with peat := { s.peat with cur := some { content := .cnt, seq := 7, pages := [3], left := 2 }, frontier := 4, objs := [{ stream := 1, obj := 0, seq := 1, pages := [9, 4100] }] } })) 0 ({ content := .cnt, seq := 7, pages := [3], left := 2 }) 9)
      ∧
    ((fun (s : State) (f : Fin 3) => s.peat.flush = none ∧ s.boot.supplies = true ∧ s.peat.cur = none ∧ s.nextObject = none
      ∧ f.val < 2 ∧ s.peat.inReserve = none)
      ((let s : State := awake; { s with peat := { s.peat with frontier := 4, image := none } })) 1) ∧
    ((fun (s : State) (f : Fin 3) (w : PeatWork) (i : Image) => s.peat.flush = none ∧ s.boot.supplies = true ∧ s.peat.cur =
      some w ∧ w.content = .full i ∧ w.left = 1 ∧ f.val < 2 ∧ s.peat.inReserve = none ∧ s.rd R.PL_STAT_STATE ≠ 3 ∧ s.rd
      R.PL_WEAR_LAPS < 80000000 ∧ s.peat.bad.length ≤ 1023)
      ((let s : State := (put awake R.PL_WEAR_LAPS 79999999); { s with peat := { s.peat with cur := some { content := .full default, seq := 7, pages := [3], left := 1 }, frontier := 4, older := none, wantFull := true } })) 0 ({ content := .full default, seq := 7, pages := [3], left := 1 }) default) := by
  refine ⟨?_, ?_, ?_, ?_, ?_, ?_⟩ <;> (try dsimp only) <;> decide +kernel

theorem witness_PeatCommandsAndLastgasp :
    ((fun (s : State) (p : Path) (v : BitVec 32) => let full := (setFld (setFld v 31 31 1) 30 28 0); Writable s p R.PL_CTL
      full ∧ s.flag R.PL_STAT_BUSY = false ∧ s.peat.flush = none) awake .bar 0x000FF000) ∧
    ((fun (s : State) (p : Path) (v : BitVec 32) => let full := (setFld (setFld v 31 31 1) 30 28 0); Writable s p R.PL_CTL
      full ∧ s.flag R.PL_STAT_BUSY = false ∧ s.peat.flush = none) awake .rom 0x8FF10FFF) ∧
    ((fun (s : State) (p : Path) (v : BitVec 32) => let full := (setFld (setFld v 31 31 1) 30 28 0); Writable s p R.PL_CTL
      full ∧ s.flag R.PL_STAT_BUSY = true) (put awake R.PL_STAT_BUSY 1) .bar 0x0000F000) ∧
    ((fun (s : State) (p : Path) (v : BitVec 32) => let clear := (setFld (setFld v 31 31 1) 30 28 1); Writable s p R.PL_CTL
      clear ∧ s.flag R.PL_STAT_BUSY = false ∧ s.peat.flush = none)
      ((let s : State := awake; { s with peat := { s.peat with image := some default, trn := ⟨[(1, some default)]⟩, prg := [(3, [1])], health := [default], bad := [8], objs := [{ stream := 1, obj := 0, seq := 1, pages := [9] }, { stream := 7, obj := 0, seq := 1, pages := [19] }, { stream := 4, obj := 0, seq := 1, pages := [29] }] } })) .bar 0x00001000)
      ∧
    ((fun (s : State) (p : Path) (v : BitVec 32) => let clear := (setFld (setFld v 31 31 1) 30 28 1); Writable s p R.PL_CTL
      clear ∧ s.flag R.PL_STAT_BUSY = false ∧ s.peat.flush = none)
      ((let s : State := (put awake R.PL_STAT_STATE 3); { s with peat := { s.peat with image := some default } })) .bar 0x00001000)
      ∧
    ((fun (s : State) => s.peat.flush.isSome = true ∧ s.peat.flushDone = false ∧ s.boot.resetDue = false)
      ((let s : State := awake; { s with peat := { s.peat with flush := some 0 } }))) ∧
    ((fun (s : State) => s.peat.flush.isSome = true ∧ s.peat.flushDone = false ∧ s.boot.resetDue = false)
      ((let s : State := State.reset; { s with peat := { s.peat with flush := some 0, cur := some { content := .cnt, seq := 7, pages := [3], left := 2 } } })))
      ∧
    ((fun (s : State) (n : BitVec 13) => s.peat.flush.isSome = true ∧ s.peat.flushDone = false ∧ s.boot.resetDue = false ∧ 3
      ≤ n.toNat ∧ n.toNat ≤ 4096 ∧ s.flushContents = [.lgp false, .cnt, .lgp true])
      ((let s : State := awake; { s with peat := { s.peat with flush := some 0 } })) 3) ∧
    ((fun (s : State) (n : BitVec 13) => s.peat.flush.isSome = true ∧ s.peat.flushDone = false ∧ s.boot.resetDue = false ∧ 3
      ≤ n.toNat ∧ n.toNat ≤ 4096 ∧ s.flushContents = [.lgp false, .cnt, .lgp true])
      ((let s : State := awake; { s with peat := { s.peat with flush := some 0, frontier := 131070 } })) 4096) ∧
    ((fun (s : State) => s.peat.flush.isSome = true ∧ s.boot.resetDue = false)
      ((let s : State := awake; { s with peat := { s.peat with flush := some 0 } }))) ∧
    ((fun (s : State) => s.peat.flush = none) awake) := by
  refine ⟨?_, ?_, ?_, ?_, ?_, ?_, ?_, ?_, ?_, ?_, ?_⟩ <;> (try dsimp only) <;> decide +kernel

theorem witness_ProgramsAskForPowerStates :
    ((fun (s : State) (k : Fin 9) (w : BitVec 32) => let c := (s.gcore k); let x := ((s.g k (gRa w)).toNat % 4); let now :=
      (s.rd R.PS_STAT_STATE); CoreRuns s k w 0x38 ∧ c.host = false ∧ x = now ∧ s.pow.target = none)
      (onRom awake 8 [(1, 0)]) 8 0x0E061000) ∧
    ((fun (s : State) (k : Fin 9) (w : BitVec 32) => let c := (s.gcore k); let x := ((s.g k (gRa w)).toNat % 4); let now :=
      (s.rd R.PS_STAT_STATE); CoreRuns s k w 0x38 ∧ c.host = false ∧ x = now ∧ s.pow.target = none)
      (onRom (put awake R.PS_STAT_STATE 3) 0 [(1, 7)]) 0 0x0E061000) ∧
    ((fun (s : State) (k : Fin 9) (w : BitVec 32) => let c := (s.gcore k); let x := ((s.g k (gRa w)).toNat % 4); let now :=
      (s.rd R.PS_STAT_STATE); CoreRuns s k w 0x38 ∧ c.host = false ∧ x > now ∧ ((x > s.powerLimit ∨ s.dwelt = false)))
      (onRom awake 8 [(1, 3)]) 8 0x0E061000) ∧
    ((fun (s : State) (k : Fin 9) (w : BitVec 32) => let c := (s.gcore k); let x := ((s.g k (gRa w)).toNat % 4); let now :=
      (s.rd R.PS_STAT_STATE); CoreRuns s k w 0x38 ∧ c.host = false ∧ x > now ∧ ((x > s.powerLimit ∨ s.dwelt = false)))
      (onRom awake 8 [(1, 1)]) 8 0x0E001000) ∧
    ((fun (s : State) (k : Fin 9) (w : BitVec 32) => let c := (s.gcore k); let x := ((s.g k (gRa w)).toNat % 4); let now :=
      (s.rd R.PS_STAT_STATE); CoreRuns s k w 0x38 ∧ c.host = false ∧ x > now ∧ x ≠ 3 ∧ x ≤ s.powerLimit ∧ s.dwelt = true ∧
      s.pow.exiting = false ∧ s.boot.hold = false ∧ s.boot.drain = none)
      (onRom (let s := awake; { s with gtc := 100000000000, pow := { s.pow with quietSince := 0 } }) 8 [(1, 1)]) 8 0x0E061000)
      ∧
    ((fun (s : State) (k : Fin 9) (w : BitVec 32) => let c := (s.gcore k); let x := ((s.g k (gRa w)).toNat % 4); let now :=
      (s.rd R.PS_STAT_STATE); CoreRuns s k w 0x38 ∧ c.host = false ∧ x > now ∧ x ≠ 3 ∧ x ≤ s.powerLimit ∧ s.dwelt = true ∧
      s.pow.exiting = false ∧ s.boot.hold = false ∧ s.boot.drain = none)
      (onRom (let s := awake; { s with gtc := 100000000000, pow := { s.pow with quietSince := 0 } }) 8 [(1, 2)]) 8 0x0E001000)
      ∧
    ((fun (s : State) (k : Fin 9) (w : BitVec 32) => let c := (s.gcore k); let x := ((s.g k (gRa w)).toNat % 4); let now :=
      (s.rd R.PS_STAT_STATE); CoreRuns s k w 0x38 ∧ c.host = false ∧ x < now ∧ s.pow.exiting = false)
      (onRom (put awake R.PS_STAT_STATE 3) 8 [(1, 0)]) 8 0x0E061000) ∧
    ((fun (s : State) (k : Fin 9) (w : BitVec 32) => let c := (s.gcore k); let x := ((s.g k (gRa w)).toNat % 4); let now :=
      (s.rd R.PS_STAT_STATE); CoreRuns s k w 0x38 ∧ c.host = false ∧ x < now ∧ s.pow.exiting = false)
      (onRom (put awake R.PS_STAT_STATE 1) 8 [(1, 18446744073709551612)]) 8 0x0E061000) ∧
    ((fun (s : State) (k : Fin 9) (w : BitVec 32) => let c := (s.gcore k); CoreRuns s k w 0x38 ∧ CoreQuiet s k ∧ c.host =
      true) (onHost awake 8 0x0E061000 [(1, 0)]) 8 0x0E061000) ∧
    ((fun (s : State) (k : Fin 9) (w : BitVec 32) (tk : Nat) => let c := (s.gcore k); let a := ((s.g k (gRa w)).toNat); let
      n := ((s.g k (gRb w)).toNat); CoreRuns s k w 0x39 ∧ MainOn s k ∧ c.host = false ∧ 1 ≤ n ∧ n ≤ 512 ∧ a + n ≤ 0x7E000 ∧
      LowestFree c tk)
      (onRom (awake.updCore 0 fun c => { c with dmem := ⟨[(64511, 7)]⟩ }) 0 [(1, 0x7DE00), (2, 512)]) 0 0x0E461100 0) ∧
    ((fun (s : State) (k : Fin 9) (w : BitVec 32) (tk : Nat) => let c := (s.gcore k); let a := ((s.g k (gRa w)).toNat); let
      n := ((s.g k (gRb w)).toNat); CoreRuns s k w 0x39 ∧ MainOn s k ∧ c.host = false ∧ 1 ≤ n ∧ n ≤ 512 ∧ a + n ≤ 0x7E000 ∧
      LowestFree c tk) (onRom (ticket0 awake 0 1 1) 0 [(1, 0x7DFFF), (2, 1)]) 0 0x0E461100 1) ∧
    ((fun (s : State) (k : Fin 9) (w : BitVec 32) => let c := (s.gcore k); let n := ((s.g k (gRb w)).toNat); CoreRuns s k w
      0x39 ∧ c.host = false ∧ ((n < 1 ∨ 512 < n))) (onRom State.reset 0 [(2, 0)]) 0 0x0E461100) ∧
    ((fun (s : State) (k : Fin 9) (w : BitVec 32) => let c := (s.gcore k); let n := ((s.g k (gRb w)).toNat); CoreRuns s k w
      0x39 ∧ c.host = false ∧ ((n < 1 ∨ 512 < n))) (onRom State.reset 0 [(2, 513)]) 0 0x0E461100) ∧
    ((fun (s : State) (k : Fin 9) (w : BitVec 32) => let c := (s.gcore k); CoreRuns s k w 0x39 ∧ CoreQuiet s k ∧ c.host =
      true) (onHost State.reset 0 0x0E461100 [(2, 1)]) 0 0x0E461100) := by
  refine ⟨?_, ?_, ?_, ?_, ?_, ?_, ?_, ?_, ?_, ?_, ?_, ?_, ?_, ?_⟩ <;> (try dsimp only) <;> decide +kernel

theorem witness_PowerStatesEnteredAndLeft :
    ((fun (s : State) (src : Fin 7) => src.val ≠ 0 ∧ s.pow.target = some 1)
      ((let s : State := awake; { s with pow := { s.pow with target := some 1 } })) 1) ∧
    ((fun (s : State) => s.pow.target = some 2)
      ((let s : State := awake; { s with pow := { s.pow with target := some 2 } }))) ∧
    ((fun (s : State) => s.pow.target = none)
      ((let s : State := (put awake R.PS_STAT_STATE 1); { s with pow := { s.pow with exiting := false } }))) ∧
    ((fun (s : State) => s.pow.exiting = false ∧ s.rd R.PS_STAT_STATE = 0 ∧ s.pow.target.isSome = true)
      ((let s : State := (put awake R.PS_STAT_BUSY 1); { s with pow := { s.pow with target := some 3 } }))) ∧
    ((fun (s : State) => s.pow.exiting = false ∧ s.rd R.PS_STAT_STATE ≠ 0)
      ((let s : State := (put awake R.PS_STAT_STATE 3); { s with pow := { s.pow with exiting := false } }))) ∧
    ((fun (s : State) => s.pow.exiting = false ∧ s.rd R.PS_STAT_STATE ≠ 0)
      ((let s : State := (put awake R.PS_STAT_STATE 1); { s with pow := { s.pow with exiting := false } }))) ∧
    ((fun (s : State) => s.pow.exiting = true)
      ((let s : State := (put awake R.PS_STAT_STATE 2); { s with pow := { s.pow with exiting := true } }))) ∧
    ((fun (s : State) => s.pow.exiting = true ∧ s.rd R.PS_STAT_STATE = 1 ∧ s.dom.waiting = [])
      ((let s : State := (put awake R.PS_STAT_STATE 1); { s with pow := { s.pow with exiting := true } }))) ∧
    ((fun (s : State) => s.pow.exiting = false)
      ((let s : State := (put awake R.PS_STAT_STATE 1); { s with pow := { s.pow with exiting := false } }))) ∧
    ((fun (s : State) => s.claim.aot.get 4 = 0x11 ∧ s.hears 4 = true ∧ s.core.pend = [])
      ((let s := awake; { s with core := { s.core with binds := [{ prog := 4, code := 2, period := 0, next := 0 }] } }))) ∧
    ((fun (s : State) => s.claim.aot.get 4 ≠ 0x11)
      ((let s := awake; { s with claim := { s.claim with aot := Tab.empty } }))) := by
  refine ⟨?_, ?_, ?_, ?_, ?_, ?_, ?_, ?_, ?_, ?_, ?_⟩ <;> (try dsimp only) <;> decide +kernel

theorem witness_ColdResetAndSupplies :
    ((fun (s : State) => s.boot.supplies = false ∧ s.flag R.FD_STAT_PG = true) ((put State.reset R.FD_STAT_PG 1))) ∧
    ((fun (s : State) => s.boot.supplies = false ∧ s.flag R.FD_STAT_PG = true)
      ((let s := put (put awake R.FD_STAT_PG 1) (R.PL_LIFE_COUNT 1) 5; withDom { s with gtc := 9, boot := { s.boot with supplies := false }, dram := { s.dram with lines := ⟨[(1, default)]⟩ }, peat := { s.peat with image := some default, objs := [default] } })))
      ∧
    ((fun (s : State) => ((s.boot.supplies = true ∨ s.flag R.FD_STAT_PG = false))) (put awake R.FD_STAT_PG 1)) ∧
    ((fun (s : State) => ((s.boot.supplies = true ∨ s.flag R.FD_STAT_PG = false))) State.reset) ∧
    ((fun (s : State) => s.boot.supplies = true) ((let s := awake; { s with boot := { s.boot with drain := some 4 } }))) ∧
    ((fun (s : State) => s.boot.hold = true) State.reset) ∧
    ((fun (s : State) => s.boot.hold = false ∧ s.flag R.CF_STAT_DEVLOST = false) awake) ∧
    ((fun (s : State) => s.flag R.CF_STAT_DEVLOST = false) awake) ∧
    ((fun (s : State) => s.flag R.CF_STAT_DEVLOST = false) State.reset) := by
  refine ⟨?_, ?_, ?_, ?_, ?_, ?_, ?_, ?_, ?_⟩ <;> (try dsimp only) <;> decide +kernel

theorem witness_StartsAndReady :
    ((fun (s : State) => s.mayStart = true ∧ s.rd R.CHIP_BOOTSTAT_RSTCAUSE = 0)
      ((let s := State.reset; { s with boot := { s.boot with supplies := true } }))) ∧
    ((fun (s : State) => s.mayStart = true ∧ s.rd R.CHIP_BOOTSTAT_RSTCAUSE = 0)
      ((let s := (let s := State.reset; { s with boot := { s.boot with supplies := true } }); { s with peat := { s.peat with image := some default, older := none }, dram := { s.dram with lines := ⟨[(1, default)]⟩ }, tier := { s.tier with pmap := ⟨[(1, 2)]⟩ } })))
      ∧
    ((fun (s : State) => s.mayStart = false) State.reset) ∧
    ((fun (s : State) => s.mayStart = true ∧ s.rd R.CHIP_BOOTSTAT_RSTCAUSE ≠ 0)
      ((let s := (put (let s := State.reset; { s with boot := { s.boot with supplies := true } }) R.CHIP_BOOTSTAT_RSTCAUSE 1); { s with peat := { s.peat with image := some default, older := none }, dram := { s.dram with lines := ⟨[(1, default)]⟩ }, tier := { s.tier with pmap := ⟨[(1, 2)]⟩ } })))
      ∧
    ((fun (s : State) => s.mayStart = true ∧ s.rd R.CHIP_BOOTSTAT_RSTCAUSE ≠ 0)
      ((let s := (put (let s := State.reset; { s with boot := { s.boot with supplies := true } }) R.CHIP_BOOTSTAT_RSTCAUSE 2); { s with peat := { s.peat with image := some default, older := none }, dram := { s.dram with lines := ⟨[(1, default)]⟩ }, tier := { s.tier with pmap := ⟨[(1, 2)]⟩ } })))
      ∧
    ((fun (s : State) => s.mayStart = true ∧ s.rd R.CHIP_BOOTSTAT_RSTCAUSE ≠ 0)
      ((put (let s := State.reset; { s with boot := { s.boot with supplies := true } }) R.CHIP_BOOTSTAT_RSTCAUSE 3))) ∧
    ((fun (s : State) => s.mayStart = false) awake) ∧
    ((fun (s : State) => s.startOver = true) (put awake R.CHIP_BOOTSTAT_PHASE 5)) ∧
    ((fun (s : State) => s.startOver = false) State.reset) ∧
    ((fun (s : State) => s.boot.initNext < s.boot.initTotal ∧ s.boot.initAhead = [] ∧ s.boot.initDone = [])
      ((let s := awake; { s with boot := { s.boot with initTotal := 1 } }))) ∧
    ((fun (s : State) (e : Nat) (l : List Nat) => s.boot.initAhead = e :: l)
      ((let s := awake; { s with boot := { s.boot with initTotal := 9, initAhead := [4, 6] } })) 4 ([6])) ∧
    ((fun (s : State) => s.nextInit = none) awake) := by
  refine ⟨?_, ?_, ?_, ?_, ?_, ?_, ?_, ?_, ?_, ?_, ?_, ?_⟩ <;> (try dsimp only) <;> decide +kernel

theorem witness_WarmResets :
    ((fun (s : State) (p : Path) (v : BitVec 32) => let orderly := (setFld (setFld v 31 31 1) 30 30 1); s.boot.supplies =
      true ∧ s.flag R.CF_STAT_DEVLOST = false ∧ Writable s p R.CHIP_RSTCTL orderly ∧ s.peat.flush = none ∧ s.boot.drain =
      none) awake .bar 0x14) ∧
    ((fun (s : State) (p : Path) (v : BitVec 32) => let orderly := (setFld (setFld v 31 31 1) 30 30 1); s.boot.supplies =
      true ∧ s.flag R.CF_STAT_DEVLOST = false ∧ Writable s p R.CHIP_RSTCTL orderly ∧ s.peat.flush = none ∧ s.boot.drain =
      none) (withDom awake) .bar 0xC0000064) ∧
    ((fun (s : State) (p : Path) (v : BitVec 32) => let orderly := (setFld (setFld v 31 31 1) 30 30 1); s.boot.supplies =
      true ∧ s.flag R.CF_STAT_DEVLOST = false ∧ Writable s p R.CHIP_RSTCTL orderly ∧ s.peat.flush = none ∧
      s.boot.drain.isSome = true) ((let s : State := awake; { s with boot := { s.boot with drain := some 0 } })) .bar 0x14)
      ∧
    ((fun (s : State) (p : Path) (v : BitVec 32) => let now := (setFld (setFld v 31 31 1) 30 30 0); s.boot.supplies = true ∧
      s.flag R.CF_STAT_DEVLOST = false ∧ Writable s p R.CHIP_RSTCTL now ∧ s.peat.flush = none) (withDom awake) .bar 0x14) ∧
    ((fun (s : State) (p : Path) (v : BitVec 32) => let now := (setFld (setFld v 31 31 1) 30 30 0); s.boot.supplies = true ∧
      s.flag R.CF_STAT_DEVLOST = false ∧ Writable s p R.CHIP_RSTCTL now ∧ s.peat.flush = none) awake .rom 0xFFFFFF01) ∧
    ((fun (s : State) (p : Path) (v : BitVec 32) => let now := (setFld (setFld v 31 31 1) 30 30 0); s.boot.supplies = true ∧
      s.flag R.CF_STAT_DEVLOST = false ∧ Writable s p R.CHIP_RSTCTL now ∧ s.peat.flush.isSome = true)
      ((let s : State := awake; { s with peat := { s.peat with flush := some 0 } })) .bar 0x14) ∧
    ((fun (s : State) (p : Path) (v : BitVec 32) => let orderly := (setFld (setFld v 31 31 1) 30 30 1); s.boot.supplies =
      true ∧ s.flag R.CF_STAT_DEVLOST = false ∧ Writable s p R.CHIP_RSTCTL orderly ∧ s.peat.flush.isSome = true)
      ((let s : State := awake; { s with peat := { s.peat with flush := some 0 } })) .rom 0x14) ∧
    ((fun (s : State) => s.boot.supplies = true ∧ s.flag R.CF_STAT_DEVLOST = false ∧ s.boot.drain.isSome = true ∧
      s.boot.drainPhase = 3 ∧ s.peat.flush = none ∧ s.drained = true ∧ s.written = true)
      ((let s : State := awake; { s with boot := { s.boot with drain := some 0, drainPhase := 3 } }))) ∧
    ((fun (s : State) => s.boot.supplies = true ∧ s.flag R.CF_STAT_DEVLOST = false ∧ s.boot.drain.isSome = true ∧
      s.boot.drainPhase = 3 ∧ s.peat.flush = none ∧ s.settleDrain.drainOver = false)
      ((let s : State := (let s := awake; { s with tier := { s.tier with migs := [default] } }); { s with boot := { s.boot with drain := some 0, drainPhase := 3 } })))
      ∧
    ((fun (s : State) => s.boot.supplies = true ∧ s.flag R.CF_STAT_DEVLOST = false ∧ s.boot.drain = none) awake) := by
  refine ⟨?_, ?_, ?_, ?_, ?_, ?_, ?_, ?_, ?_, ?_⟩ <;> (try dsimp only) <;> decide +kernel

theorem witness_PoolTimeAgreement :
    ((fun (s : State) => let pin := (s.claim.mfp.get 3 = 0x23); pin ∧ s.rd R.CHIP_GTCCTL_SYNCMODE = 1 ∧ s.gtc % 2 ^ 20 = 0)
      ({ (put awake R.CHIP_GTCCTL_SYNCMODE 1) with gtc := 0x300000 })) ∧
    ((fun (s : State) => s.gtc % 2 ^ 20 ≠ 0) ({ (put awake R.CHIP_GTCCTL_SYNCMODE 1) with gtc := 0x300001 })) ∧
    ((fun (s : State) => s.gtc % 2 ^ 20 ≠ 0) ({ State.reset with gtc := 1048575 })) ∧
    ((fun (s : State) (e : Int) (m : Int) => let pin := (s.claim.mfp.get 3 = 0x23); let ofs := ((BitVec.ofNat 8 (s.rd
      R.CHIP_GTCCTL_SYNCOFS)).toInt); let follows := (pin ∧ s.rd R.CHIP_GTCCTL_SYNCMODE = 2 ∧ s.boot.hold = false); let near
      := ((s.gtc : Int) + ofs = m * 2 ^ 20 + e ∧ -(2 ^ 19) ≤ e ∧ e < 2 ^ 19); follows ∧ near ∧ s.flag R.CHIP_GTCLOAD1_ARM =
      false) ({ (put awake R.CHIP_GTCCTL_SYNCMODE 2) with gtc := 0x100004 }) 4 1) ∧
    ((fun (s : State) (e : Int) (m : Int) => let pin := (s.claim.mfp.get 3 = 0x23); let ofs := ((BitVec.ofNat 8 (s.rd
      R.CHIP_GTCCTL_SYNCOFS)).toInt); let follows := (pin ∧ s.rd R.CHIP_GTCCTL_SYNCMODE = 2 ∧ s.boot.hold = false); let near
      := ((s.gtc : Int) + ofs = m * 2 ^ 20 + e ∧ -(2 ^ 19) ≤ e ∧ e < 2 ^ 19); follows ∧ near ∧ s.flag R.CHIP_GTCLOAD1_ARM =
      false) ({ (put awake R.CHIP_GTCCTL_SYNCMODE 2) with gtc := 0x0FFFFC }) (-4) 1) ∧
    ((fun (s : State) (e : Int) (m : Int) => let pin := (s.claim.mfp.get 3 = 0x23); let ofs := ((BitVec.ofNat 8 (s.rd
      R.CHIP_GTCCTL_SYNCOFS)).toInt); let follows := (pin ∧ s.rd R.CHIP_GTCCTL_SYNCMODE = 2 ∧ s.boot.hold = false); let near
      := ((s.gtc : Int) + ofs = m * 2 ^ 20 + e ∧ -(2 ^ 19) ≤ e ∧ e < 2 ^ 19); follows ∧ near ∧ s.flag R.CHIP_GTCLOAD1_ARM =
      false) ({ (put awake R.CHIP_GTCCTL_SYNCMODE 2) with gtc := 0x100400 }) 1024 1) ∧
    ((fun (s : State) (e : Int) (m : Int) => let pin := (s.claim.mfp.get 3 = 0x23); let ofs := ((BitVec.ofNat 8 (s.rd
      R.CHIP_GTCCTL_SYNCOFS)).toInt); let follows := (pin ∧ s.rd R.CHIP_GTCCTL_SYNCMODE = 2 ∧ s.boot.hold = false); let near
      := ((s.gtc : Int) + ofs = m * 2 ^ 20 + e ∧ -(2 ^ 19) ≤ e ∧ e < 2 ^ 19); follows ∧ near ∧ s.flag R.CHIP_GTCLOAD1_ARM =
      false) ({ (put awake R.CHIP_GTCCTL_SYNCMODE 2) with gtc := 0x0FFC00 }) (-1024) 1) ∧
    ((fun (s : State) (e : Int) (m : Int) => let pin := (s.claim.mfp.get 3 = 0x23); let ofs := ((BitVec.ofNat 8 (s.rd
      R.CHIP_GTCCTL_SYNCOFS)).toInt); let follows := (pin ∧ s.rd R.CHIP_GTCCTL_SYNCMODE = 2 ∧ s.boot.hold = false); let near
      := ((s.gtc : Int) + ofs = m * 2 ^ 20 + e ∧ -(2 ^ 19) ≤ e ∧ e < 2 ^ 19); follows ∧ near ∧ s.flag R.CHIP_GTCLOAD1_ARM =
      false) ({ (put awake R.CHIP_GTCCTL_SYNCMODE 2) with gtc := 0x100401 }) 1025 1) ∧
    ((fun (s : State) (e : Int) (m : Int) => let pin := (s.claim.mfp.get 3 = 0x23); let ofs := ((BitVec.ofNat 8 (s.rd
      R.CHIP_GTCCTL_SYNCOFS)).toInt); let follows := (pin ∧ s.rd R.CHIP_GTCCTL_SYNCMODE = 2 ∧ s.boot.hold = false); let near
      := ((s.gtc : Int) + ofs = m * 2 ^ 20 + e ∧ -(2 ^ 19) ≤ e ∧ e < 2 ^ 19); follows ∧ near ∧ s.flag R.CHIP_GTCLOAD1_ARM =
      false) ({ (put awake R.CHIP_GTCCTL_SYNCMODE 2) with gtc := 0x0FFBFF }) (-1025) 1) ∧
    ((fun (s : State) (e : Int) (m : Int) => let pin := (s.claim.mfp.get 3 = 0x23); let ofs := ((BitVec.ofNat 8 (s.rd
      R.CHIP_GTCCTL_SYNCOFS)).toInt); let follows := (pin ∧ s.rd R.CHIP_GTCCTL_SYNCMODE = 2 ∧ s.boot.hold = false); let near
      := ((s.gtc : Int) + ofs = m * 2 ^ 20 + e ∧ -(2 ^ 19) ≤ e ∧ e < 2 ^ 19); follows ∧ near ∧ s.flag R.CHIP_GTCLOAD1_ARM =
      false) ({ (put awake R.CHIP_GTCCTL_SYNCMODE 2) with gtc := 0x080000 }) (-524288) 1) ∧
    ((fun (s : State) (e : Int) (m : Int) => let pin := (s.claim.mfp.get 3 = 0x23); let ofs := ((BitVec.ofNat 8 (s.rd
      R.CHIP_GTCCTL_SYNCOFS)).toInt); let follows := (pin ∧ s.rd R.CHIP_GTCCTL_SYNCMODE = 2 ∧ s.boot.hold = false); let near
      := ((s.gtc : Int) + ofs = m * 2 ^ 20 + e ∧ -(2 ^ 19) ≤ e ∧ e < 2 ^ 19); follows ∧ near ∧ s.flag R.CHIP_GTCLOAD1_ARM =
      false) ({ (put awake R.CHIP_GTCCTL_SYNCMODE 2) with gtc := 0x07FFFF }) 524287 0) ∧
    ((fun (s : State) (e : Int) (m : Int) => let pin := (s.claim.mfp.get 3 = 0x23); let ofs := ((BitVec.ofNat 8 (s.rd
      R.CHIP_GTCCTL_SYNCOFS)).toInt); let follows := (pin ∧ s.rd R.CHIP_GTCCTL_SYNCMODE = 2 ∧ s.boot.hold = false); let near
      := ((s.gtc : Int) + ofs = m * 2 ^ 20 + e ∧ -(2 ^ 19) ≤ e ∧ e < 2 ^ 19); follows ∧ near ∧ s.flag R.CHIP_GTCLOAD1_ARM =
      false) ({ (put (put awake R.CHIP_GTCCTL_SYNCMODE 2) R.CHIP_GTCCTL_SYNCOFS 0xFF) with gtc := 0x100000 }) (-1) 1) ∧
    ((fun (s : State) (e : Int) (m : Int) => let pin := (s.claim.mfp.get 3 = 0x23); let ofs := ((BitVec.ofNat 8 (s.rd
      R.CHIP_GTCCTL_SYNCOFS)).toInt); let follows := (pin ∧ s.rd R.CHIP_GTCCTL_SYNCMODE = 2 ∧ s.boot.hold = false); let near
      := ((s.gtc : Int) + ofs = m * 2 ^ 20 + e ∧ -(2 ^ 19) ≤ e ∧ e < 2 ^ 19); follows ∧ near ∧ s.flag R.CHIP_GTCLOAD1_ARM =
      false) ({ (put (put awake R.CHIP_GTCCTL_SYNCMODE 2) R.CHIP_GTCCTL_SYNCOFS 0x80) with gtc := 0x100000 }) (-128) 1) ∧
    ((fun (s : State) => let pin := (s.claim.mfp.get 3 = 0x23); let follows := (pin ∧ s.rd R.CHIP_GTCCTL_SYNCMODE = 2 ∧
      s.boot.hold = false); let load := ((s.rd R.CHIP_GTCLOAD1_LOADHI * 2 ^ 32 + s.rd R.CHIP_GTCLOAD0_LOADLO) * 2 ^ 20 +
      s.gtc % 2 ^ 20); follows ∧ s.flag R.CHIP_GTCLOAD1_ARM = true ∧ load < s.gtc)
      ({ (put (put awake R.CHIP_GTCCTL_SYNCMODE 2) R.CHIP_GTCLOAD1_ARM 1) with gtc := 0x100004 })) ∧
    ((fun (s : State) => let pin := (s.claim.mfp.get 3 = 0x23); let follows := (pin ∧ s.rd R.CHIP_GTCCTL_SYNCMODE = 2 ∧
      s.boot.hold = false); let load := ((s.rd R.CHIP_GTCLOAD1_LOADHI * 2 ^ 32 + s.rd R.CHIP_GTCLOAD0_LOADLO) * 2 ^ 20 +
      s.gtc % 2 ^ 20); follows ∧ s.flag R.CHIP_GTCLOAD1_ARM = true ∧ s.gtc ≤ load)
      ({ (put (put (put awake R.CHIP_GTCCTL_SYNCMODE 2) R.CHIP_GTCLOAD1_ARM 1) R.CHIP_GTCLOAD0_LOADLO 7) with gtc := 0x100004 }))
      ∧
    ((fun (s : State) => let pin := (s.claim.mfp.get 3 = 0x23); let follows := (pin ∧ s.rd R.CHIP_GTCCTL_SYNCMODE = 2 ∧
      s.boot.hold = false); let load := ((s.rd R.CHIP_GTCLOAD1_LOADHI * 2 ^ 32 + s.rd R.CHIP_GTCLOAD0_LOADLO) * 2 ^ 20 +
      s.gtc % 2 ^ 20); follows ∧ s.flag R.CHIP_GTCLOAD1_ARM = true ∧ s.gtc ≤ load)
      ({ (put (put (put awake R.CHIP_GTCCTL_SYNCMODE 2) R.CHIP_GTCLOAD1_ARM 1) R.CHIP_GTCLOAD0_LOADLO 1) with gtc := 0x1FFFFF }))
      ∧
    ((fun (s : State) => let pin := (s.claim.mfp.get 3 = 0x23); let follows := (pin ∧ s.rd R.CHIP_GTCCTL_SYNCMODE = 2 ∧
      s.boot.hold = false); let load := ((s.rd R.CHIP_GTCLOAD1_LOADHI * 2 ^ 32 + s.rd R.CHIP_GTCLOAD0_LOADLO) * 2 ^ 20 +
      s.gtc % 2 ^ 20); follows ∧ s.flag R.CHIP_GTCLOAD1_ARM = true ∧ s.gtc ≤ load)
      ({ (put (put (put awake R.CHIP_GTCCTL_SYNCMODE 2) R.CHIP_GTCLOAD1_ARM 1) R.CHIP_GTCLOAD1_LOADHI 0xFFF) with gtc := 0x1 }))
      ∧
    ((fun (s : State) => let pin := (s.claim.mfp.get 3 = 0x23); let follows := (pin ∧ s.rd R.CHIP_GTCCTL_SYNCMODE = 2 ∧
      s.boot.hold = false); ¬ follows) awake) ∧
    ((fun (s : State) => let pin := (s.claim.mfp.get 3 = 0x23); let follows := (pin ∧ s.rd R.CHIP_GTCCTL_SYNCMODE = 2 ∧
      s.boot.hold = false); ¬ follows)
      ((let s := (put awake R.CHIP_GTCCTL_SYNCMODE 2); { s with claim := { s.claim with mfp := Tab.empty } }))) := by
  refine ⟨?_, ?_, ?_, ?_, ?_, ?_, ?_, ?_, ?_, ?_, ?_, ?_, ?_, ?_, ?_, ?_, ?_, ?_, ?_⟩ <;> (try dsimp only) <;> decide +kernel

theorem witness_SidebandStatusCommands :
    ((fun (s : State) (f : SbFrom) => let taken := (if f.i3c then s.flag R.MG_SBCTL_I3CEN = true else s.flag
      R.MG_SBCTL_SMBEN = true ∧ (f.pec = true ∨ s.flag R.MG_SBCTL_PECREQ = false)); taken)
      awake ({ i3c := true, pec := false })) ∧
    ((fun (s : State) (f : SbFrom) => let taken := (if f.i3c then s.flag R.MG_SBCTL_I3CEN = true else s.flag
      R.MG_SBCTL_SMBEN = true ∧ (f.pec = true ∨ s.flag R.MG_SBCTL_PECREQ = false)); taken)
      State.reset ({ i3c := false, pec := false })) ∧
    ((fun (s : State) (f : SbFrom) => let taken := (if f.i3c then s.flag R.MG_SBCTL_I3CEN = true else s.flag
      R.MG_SBCTL_SMBEN = true ∧ (f.pec = true ∨ s.flag R.MG_SBCTL_PECREQ = false)); taken)
      (put awake R.FD_LINK_LOST 1) ({ i3c := false, pec := true })) ∧
    ((fun (s : State) (f : SbFrom) => let taken := (if f.i3c then s.flag R.MG_SBCTL_I3CEN = true else s.flag
      R.MG_SBCTL_SMBEN = true ∧ (f.pec = true ∨ s.flag R.MG_SBCTL_PECREQ = false)); taken)
      (put awake R.FD_STAT_PG 1) ({ i3c := false, pec := true })) ∧
    ((fun (s : State) (f : SbFrom) => let taken := (if f.i3c then s.flag R.MG_SBCTL_I3CEN = true else s.flag
      R.MG_SBCTL_SMBEN = true ∧ (f.pec = true ∨ s.flag R.MG_SBCTL_PECREQ = false)); taken)
      (put awake R.FD_LINK_LOST 1) ({ i3c := true, pec := false })) ∧
    ((fun (s : State) (f : SbFrom) => let taken := (if f.i3c then s.flag R.MG_SBCTL_I3CEN = true else s.flag
      R.MG_SBCTL_SMBEN = true ∧ (f.pec = true ∨ s.flag R.MG_SBCTL_PECREQ = false)); taken)
      awake ({ i3c := false, pec := true })) ∧
    ((fun (s : State) (f : SbFrom) => let taken := (if f.i3c then s.flag R.MG_SBCTL_I3CEN = true else s.flag
      R.MG_SBCTL_SMBEN = true ∧ (f.pec = true ∨ s.flag R.MG_SBCTL_PECREQ = false)); taken)
      State.reset ({ i3c := true, pec := false })) ∧
    ((fun (s : State) (f : SbFrom) => let taken := (if f.i3c then s.flag R.MG_SBCTL_I3CEN = true else s.flag
      R.MG_SBCTL_SMBEN = true ∧ (f.pec = true ∨ s.flag R.MG_SBCTL_PECREQ = false)); taken)
      (put awake R.CF_STAT_NEWREC 1) ({ i3c := false, pec := true })) ∧
    ((fun (s : State) => s.flag R.MG_SBCTL_SMBEN = true ∧ s.smbAlert = true) (put awake R.CF_STAT_NEWREC 1)) ∧
    ((fun (s : State) => s.smbAlert = false) awake) ∧
    ((fun (s : State) (f : SbFrom) => let taken := (if f.i3c then s.flag R.MG_SBCTL_I3CEN = true else s.flag
      R.MG_SBCTL_SMBEN = true ∧ (f.pec = true ∨ s.flag R.MG_SBCTL_PECREQ = false)); ¬ taken)
      (put awake R.MG_SBCTL_PECREQ 1) ({ i3c := false, pec := false })) ∧
    ((fun (s : State) (f : SbFrom) => let taken := (if f.i3c then s.flag R.MG_SBCTL_I3CEN = true else s.flag
      R.MG_SBCTL_SMBEN = true ∧ (f.pec = true ∨ s.flag R.MG_SBCTL_PECREQ = false)); ¬ taken)
      (put awake R.MG_SBCTL_I3CEN 0) ({ i3c := true, pec := false })) ∧
    ((fun (s : State) => s.flag R.MG_SBCTL_I3CEN = true) State.reset) := by
  refine ⟨?_, ?_, ?_, ?_, ?_, ?_, ?_, ?_, ?_, ?_, ?_, ?_, ?_⟩ <;> (try dsimp only) <;> decide +kernel

theorem witness_SidebandAccessesAndResets :
    ((fun (s : State) (f : SbFrom) (i : BitVec 32) => let ring := (s.ringUp = true ∧ s.asleep = false); s.sbTakes f = true ∧
      ring ∧ i ≠ BitVec.allOnes 32)
      ((let s := awake; { s with flt := { s.flt with ring := [{ index := 4, type := 7, sev := 2 }] } })) ({ i3c := false, pec := true }) 4)
      ∧
    ((fun (s : State) (f : SbFrom) (i : BitVec 32) => let ring := (s.ringUp = true ∧ s.asleep = false); s.sbTakes f = true ∧
      ring ∧ i ≠ BitVec.allOnes 32) awake ({ i3c := true, pec := false }) 0xFFFFFFFE) ∧
    ((fun (s : State) (f : SbFrom) (r : Record) => let ring := (s.ringUp = true ∧ s.asleep = false); s.sbTakes f = true ∧ ¬
      ring ∧ s.flt.store.head? = some r)
      ((let s := State.reset; { s with flt := { s.flt with store := [{ index := 4, type := 7, sev := 2 }] } })) ({ i3c := false, pec := true }) ({ index := 4, type := 7, sev := 2 }))
      ∧
    ((fun (s : State) (f : SbFrom) (r : Record) => let ring := (s.ringUp = true ∧ s.asleep = false); s.sbTakes f = true ∧ ¬
      ring ∧ s.flt.store.head? = some r)
      ((let s := put awake R.PS_STAT_STATE 2; { s with flt := { s.flt with store := [{ index := 4, type := 7, sev := 2 }] } })) ({ i3c := false, pec := true }) ({ index := 4, type := 7, sev := 2 }))
      ∧
    ((fun (s : State) (f : SbFrom) => let ring := (s.ringUp = true ∧ s.asleep = false); s.sbTakes f = true ∧ ¬ ring ∧
      s.flt.store = []) State.reset ({ i3c := false, pec := true })) ∧
    ((fun (s : State) (f : SbFrom) => let ring := (s.ringUp = true ∧ s.asleep = false); s.sbTakes f = true ∧ ¬ ring ∧
      s.flt.store = []) (put awake R.PS_STAT_STATE 3) ({ i3c := false, pec := true })) ∧
    ((fun (s : State) (f : SbFrom) => s.sbTakes f = true) awake ({ i3c := false, pec := true })) ∧
    ((fun (s : State) (f : SbFrom) (off : BitVec 32) => let window := (off.toNat % 4 = 0 ∧ off.toNat + 4 ≤ 2 ^ 28);
      s.sbTakes f = true ∧ Reachable s .sideband ∧ s.flag R.CF_STAT_DEVLOST = false ∧ window)
      awake ({ i3c := false, pec := true }) 0x180) ∧
    ((fun (s : State) (f : SbFrom) (off : BitVec 32) => let window := (off.toNat % 4 = 0 ∧ off.toNat + 4 ≤ 2 ^ 28);
      s.sbTakes f = true ∧ Reachable s .sideband ∧ s.flag R.CF_STAT_DEVLOST = false ∧ window)
      awake ({ i3c := false, pec := true }) 0xFFFFFFC) ∧
    ((fun (s : State) (f : SbFrom) (off : BitVec 32) => let window := (off.toNat % 4 = 0 ∧ off.toNat + 4 ≤ 2 ^ 28);
      s.sbTakes f = true ∧ s.boot.hold = false ∧ s.flag R.CF_STAT_DEVLOST = false ∧ s.asleep = false ∧ window)
      awake ({ i3c := false, pec := true }) 0xFFFFFFC) ∧
    ((fun (s : State) (f : SbFrom) (off : BitVec 32) => let window := (off.toNat % 4 = 0 ∧ off.toNat + 4 ≤ 2 ^ 28);
      s.sbTakes f = true ∧ s.boot.hold = false ∧ s.flag R.CF_STAT_DEVLOST = false ∧ s.asleep = false ∧ window)
      awake ({ i3c := false, pec := true }) 0x1100014) ∧
    ((fun (s : State) (f : SbFrom) (off : BitVec 32) => let window := (off.toNat % 4 = 0 ∧ off.toNat + 4 ≤ 2 ^ 28);
      s.sbTakes f = true ∧ s.boot.hold = false ∧ s.flag R.CF_STAT_DEVLOST = false ∧ s.asleep = false ∧ window)
      (put awake R.MG_LOCK_SBWR 1) ({ i3c := false, pec := true }) 0x1100014) ∧
    ((fun (s : State) (f : SbFrom) (off : BitVec 32) => let window := (off.toNat % 4 = 0 ∧ off.toNat + 4 ≤ 2 ^ 28);
      s.sbTakes f = true ∧ s.boot.hold = false ∧ s.flag R.CF_STAT_DEVLOST = false ∧ s.asleep = true ∧ s.pow.exiting = false
      ∧ window ∧ servedAsleep off.toNat = false) (put awake R.PS_STAT_STATE 2) ({ i3c := false, pec := true }) 0x180) ∧
    ((fun (s : State) (f : SbFrom) (off : BitVec 32) => let window := (off.toNat % 4 = 0 ∧ off.toNat + 4 ≤ 2 ^ 28);
      s.sbTakes f = true ∧ s.boot.hold = true ∧ window ∧ servedAsleep off.toNat = false)
      State.reset ({ i3c := false, pec := true }) 0x180) ∧
    ((fun (s : State) (f : SbFrom) (n : Byte) => s.sbTakes f = true ∧ (n.toNat = 0 ∨ 32 < n.toNat))
      awake ({ i3c := false, pec := true }) 0) ∧
    ((fun (s : State) (f : SbFrom) (n : Byte) => s.sbTakes f = true ∧ (n.toNat = 0 ∨ 32 < n.toNat))
      State.reset ({ i3c := false, pec := true }) 33) ∧
    ((fun (s : State) (f : SbFrom) (n : Byte) => s.sbTakes f = true ∧ (n.toNat = 0 ∨ 32 < n.toNat))
      State.reset ({ i3c := false, pec := true }) 255) ∧
    ((fun (s : State) (f : SbFrom) => s.sbTakes f = true) State.reset ({ i3c := false, pec := true })) ∧
    ((fun (s : State) (f : SbFrom) => s.sbTakes f = true ∧ s.boot.supplies = true ∧ s.boot.hold = false ∧ s.peat.flush =
      none) (withDom awake) ({ i3c := false, pec := true })) ∧
    ((fun (s : State) (f : SbFrom) (n : Byte) => s.sbTakes f = true ∧ n ≠ 0xA5) awake ({ i3c := false, pec := true }) 0xA4)
      ∧
    ((fun (s : State) (f : SbFrom) (n : Byte) => s.sbTakes f = true ∧ n ≠ 0xA5)
      State.reset ({ i3c := false, pec := true }) 0) := by
  refine ⟨?_, ?_, ?_, ?_, ?_, ?_, ?_, ?_, ?_, ?_, ?_, ?_, ?_, ?_, ?_, ?_, ?_, ?_, ?_, ?_, ?_⟩ <;> (try dsimp only) <;> decide +kernel

theorem witness_SensorsTapAndLocks :
    ((fun (s : State) (ins : TapInstr) => let drives := (ins = .extest ∨ ins = .extestPulse ∨ ins = .extestTrain ∨ ins =
      .clamp ∨ ins = .highz); let refused := ((drives ∧ s.flag R.CHIP_BOOTSTAT_READY = true) ∨ (ins = .krovvan ∧ s.flag
      R.MG_LOCK_TAPLK = true)); ¬ refused) State.reset .extest) ∧
    ((fun (s : State) (ins : TapInstr) => let drives := (ins = .extest ∨ ins = .extestPulse ∨ ins = .extestTrain ∨ ins =
      .clamp ∨ ins = .highz); let refused := ((drives ∧ s.flag R.CHIP_BOOTSTAT_READY = true) ∨ (ins = .krovvan ∧ s.flag
      R.MG_LOCK_TAPLK = true)); ¬ refused) awake .krovvan) ∧
    ((fun (s : State) (ins : TapInstr) => let drives := (ins = .extest ∨ ins = .extestPulse ∨ ins = .extestTrain ∨ ins =
      .clamp ∨ ins = .highz); let refused := ((drives ∧ s.flag R.CHIP_BOOTSTAT_READY = true) ∨ (ins = .krovvan ∧ s.flag
      R.MG_LOCK_TAPLK = true)); ¬ refused) awake .sample) ∧
    ((fun (s : State) (ins : TapInstr) => let drives := (ins = .extest ∨ ins = .extestPulse ∨ ins = .extestTrain ∨ ins =
      .clamp ∨ ins = .highz); let refused := ((drives ∧ s.flag R.CHIP_BOOTSTAT_READY = true) ∨ (ins = .krovvan ∧ s.flag
      R.MG_LOCK_TAPLK = true)); refused ∧ s.flag R.CF_STAT_DEVLOST = false) awake .highz) ∧
    ((fun (s : State) (ins : TapInstr) => let drives := (ins = .extest ∨ ins = .extestPulse ∨ ins = .extestTrain ∨ ins =
      .clamp ∨ ins = .highz); let refused := ((drives ∧ s.flag R.CHIP_BOOTSTAT_READY = true) ∨ (ins = .krovvan ∧ s.flag
      R.MG_LOCK_TAPLK = true)); refused ∧ s.flag R.CF_STAT_DEVLOST = false) awake .clamp) ∧
    ((fun (s : State) (ins : TapInstr) => let drives := (ins = .extest ∨ ins = .extestPulse ∨ ins = .extestTrain ∨ ins =
      .clamp ∨ ins = .highz); let refused := ((drives ∧ s.flag R.CHIP_BOOTSTAT_READY = true) ∨ (ins = .krovvan ∧ s.flag
      R.MG_LOCK_TAPLK = true)); refused ∧ s.flag R.CF_STAT_DEVLOST = false) (put State.reset R.MG_LOCK_TAPLK 1) .krovvan) ∧
    ((fun (s : State) (p : Path) => Reachable s p) awake .bar) ∧
    ((fun (s : State) (p : Path) => Reachable s p) (put awake R.MG_LOCK_TAPLK 1) .rom) ∧
    ((fun (s : State) (p : Path) => Reachable s p) awake .sideband) ∧
    ((fun (s : State) (p : Path) => s.pathShut p = true ∧ s.boot.hold = false) (put awake R.MG_LOCK_BARWR 1) .bar) := by
  refine ⟨?_, ?_, ?_, ?_, ?_, ?_, ?_, ?_, ?_, ?_⟩ <;> (try dsimp only) <;> decide +kernel

theorem witness_SpdmSessionsAndKeys :
    ((fun (s : State) (p : Fin 32) => DoeOpen s p) ((withPort awake 3)) 3) ∧
    ((fun (s : State) (p : Fin 32) (slot : Fin 8) (r : SpdmReq) => DoeOpen s p ∧ (r = .version ∨ r = .capabilities ∨ r =
      .algorithms ∨ r = .digests ∨ r = .challenge slot)) ((withPort awake 3)) 3 7 (.challenge 7)) ∧
    ((fun (s : State) (p : Fin 32) (slot : Fin 8) (r : SpdmReq) => DoeOpen s p ∧ (r = .version ∨ r = .capabilities ∨ r =
      .algorithms ∨ r = .digests ∨ r = .challenge slot)) ((withPort awake 3)) 3 1 .digests) ∧
    ((fun (s : State) (p : Fin 32) (slot : Fin 8) (r : SpdmReq) => DoeOpen s p ∧ (r = .version ∨ r = .capabilities ∨ r =
      .algorithms ∨ r = .digests ∨ r = .challenge slot)) ((withPort awake 3)) 3 1 .version) ∧
    ((fun (s : State) (p : Fin 32) => DoeOpen s p)
      ((let s : State := (withPort awake 3); { s with mgmt := { s.mgmt with opening := [3] } })) 3) ∧
    ((fun (s : State) (p : Fin 32) => DoeOpen s p ∧ p.val ∈ s.mgmt.opening)
      ((let s : State := (withPort awake 3); { s with mgmt := { s.mgmt with opening := [4, 3] } })) 3) ∧
    ((fun (s : State) (p : Fin 32) => DoeOpen s p ∧ p.val ∈ s.mgmt.opening)
      ((let s : State := (withPort awake 3); { s with mgmt := { s.mgmt with opening := [3] } })) 3) ∧
    ((fun (s : State) (p : Fin 32) => let session := (s.mgmt.secured.contains p.val = true); DoeOpen s p ∧ session)
      ((let s : State := (withPort awake 3); { s with mgmt := { s.mgmt with secured := [3, 4] } })) 3) ∧
    ((fun (s : State) (p : Fin 32) (sel : BitVec 16) => let session := (s.mgmt.secured.contains p.val = true); DoeOpen s p ∧
      session ∧ sel.toNat ≤ 1)
      ((let s : State := (withPort awake 3); { s with mgmt := { s.mgmt with secured := [3, 4] } })) 3 1) ∧
    ((fun (s : State) (p : Fin 32) (sel : BitVec 16) => let session := (s.mgmt.secured.contains p.val = true); DoeOpen s p ∧
      session ∧ sel.toNat ≤ 1)
      ((let s : State := (withPort awake 3); { s with mgmt := { s.mgmt with secured := [3, 4] } })) 3 0) ∧
    ((fun (s : State) (p : Fin 32) (sel : BitVec 16) => let session := (s.mgmt.secured.contains p.val = true); DoeOpen s p ∧
      session ∧ 1 < sel.toNat)
      ((let s : State := (withPort awake 3); { s with mgmt := { s.mgmt with secured := [3, 4] } })) 3 2) ∧
    ((fun (s : State) (p : Fin 32) (sel : BitVec 16) => let session := (s.mgmt.secured.contains p.val = true); DoeOpen s p ∧
      session ∧ 1 < sel.toNat)
      ((let s : State := (withPort awake 3); { s with mgmt := { s.mgmt with secured := [3, 4] } })) 3 0xFFFF) ∧
    ((fun (s : State) (p : Fin 32) (slot : Fin 8) => let session := (s.mgmt.secured.contains p.val = true); DoeOpen s p ∧
      session ∧ slot ≠ 0 ∧ s.flag R.MG_LOCK_SECLK = false)
      ((let s : State := (withPort awake 3); { s with mgmt := { s.mgmt with secured := [3, 4] } })) 3 7) ∧
    ((fun (s : State) (p : Fin 32) (slot : Fin 8) => let session := (s.mgmt.secured.contains p.val = true); DoeOpen s p ∧
      session ∧ ((slot = 0 ∨ s.flag R.MG_LOCK_SECLK = true)))
      ((let s : State := (withPort awake 3); { s with mgmt := { s.mgmt with secured := [3, 4] } })) 3 0) ∧
    ((fun (s : State) (p : Fin 32) (slot : Fin 8) => let session := (s.mgmt.secured.contains p.val = true); DoeOpen s p ∧
      session ∧ ((slot = 0 ∨ s.flag R.MG_LOCK_SECLK = true)))
      ((let s : State := (put (withPort awake 3) R.MG_LOCK_SECLK 1); { s with mgmt := { s.mgmt with secured := [3] } })) 3 1)
      ∧
    ((fun (s : State) (p : Fin 32) => let session := (s.mgmt.secured.contains p.val = true); DoeOpen s p ∧ ¬ session)
      ((withPort awake 3)) 3) := by
  refine ⟨?_, ?_, ?_, ?_, ?_, ?_, ?_, ?_, ?_, ?_, ?_, ?_, ?_, ?_, ?_, ?_⟩ <;> (try dsimp only) <;> decide +kernel

theorem witness_RegisterWritesTakeTheirFields :
    ((fun (s : State) (p : Path) (off : BitVec 28) (v : BitVec 64) (r : RegRow) => let w := (v.setWidth 32); let o :=
      (off.toNat); let open_ := (Reachable s p ∧ s.flag R.CF_STAT_DEVLOST = false); open_ ∧ PlainUnitReg o r ∧
      s.lockedFields o = [] ∧ legalWrite o w = true ∧ o % 4 = 0)
      awake .bar 0x1100014 0x80000100 (((regRow 0x1100014).getD ⟨"", 0, [], .c, none, []⟩))) ∧
    ((fun (s : State) (p : Path) (off : BitVec 28) (v : BitVec 64) (r : RegRow) => let w := (v.setWidth 32); let o :=
      (off.toNat); let open_ := (Reachable s p ∧ s.flag R.CF_STAT_DEVLOST = false); open_ ∧ PlainUnitReg o r ∧
      s.lockedFields o = [] ∧ legalWrite o w = true ∧ o % 4 = 0)
      awake .bar 0x19E0014 0xFFFFFFFF80007FFF (((regRow 0x19E0014).getD ⟨"", 0, [], .c, none, []⟩))) ∧
    ((fun (s : State) (p : Path) (off : BitVec 28) (v : BitVec 64) (r : RegRow) => let w := (v.setWidth 32); let o :=
      (off.toNat); let open_ := (Reachable s p ∧ s.flag R.CF_STAT_DEVLOST = false); open_ ∧ PlainUnitReg o r ∧
      s.lockedFields o = [] ∧ legalWrite o w = true ∧ o % 4 = 0)
      awake .sideband 0x1100004 0x007F0000 (((regRow 0x1100004).getD ⟨"", 0, [], .c, none, []⟩))) ∧
    ((fun (s : State) (p : Path) (off : BitVec 28) (v : BitVec 64) (r : RegRow) => let w := (v.setWidth 32); let o :=
      (off.toNat); let open_ := (Reachable s p ∧ s.flag R.CF_STAT_DEVLOST = false); open_ ∧ regRow o = some r ∧ ownCheck o =
      false ∧ s.lockedFields o = [] ∧ legalWrite o w = false ∧ o % 4 = 0)
      awake .bar 0x608 0 (((regRow 0x608).getD ⟨"", 0, [], .c, none, []⟩))) ∧
    ((fun (s : State) (p : Path) => let open_ := (Reachable s p ∧ s.flag R.CF_STAT_DEVLOST = false); open_) awake .bar) ∧
    ((fun (s : State) (p : Path) (off : BitVec 28) => let o := (off.toNat); let open_ := (Reachable s p ∧ s.flag
      R.CF_STAT_DEVLOST = false); open_ ∧ o % 4 ≠ 0) awake .bar 0x1100016) ∧
    ((fun (s : State) (p : Path) (off : BitVec 28) => let o := (off.toNat); let open_ := (Reachable s p ∧ s.flag
      R.CF_STAT_DEVLOST = false); open_ ∧ regRow o = none ∧ o % 4 = 0) awake .bar 0xFFFFFFC) ∧
    ((fun (s : State) (p : Path) (off : BitVec 28) => let o := (off.toNat); let open_ := (Reachable s p ∧ s.flag
      R.CF_STAT_DEVLOST = false); open_ ∧ regRow o = none ∧ o % 4 = 0) awake .bar 0x1200000) ∧
    ((fun (s : State) (p : Path) (off : BitVec 28) => let o := (off.toNat); let open_ := (Reachable s p ∧ s.flag
      R.CF_STAT_DEVLOST = false); open_ ∧ regRow o = none ∧ o % 4 = 0) awake .bar 0x100000) ∧
    ((fun (s : State) (p : Path) (off : BitVec 28) => let o := (off.toNat); s.boot.hold = false ∧ s.pathShut p = true ∧
      s.flag R.CF_STAT_DEVLOST = false ∧ o % 4 = 0) (put awake R.MG_LOCK_BARWR 1) .bar 0x1100014) ∧
    ((fun (s : State) (p : Path) (off : BitVec 28) => let o := (off.toNat); s.boot.hold = false ∧ s.pathShut p = true ∧
      s.flag R.CF_STAT_DEVLOST = false ∧ o % 4 = 0) (put awake R.MG_LOCK_SBWR 1) .sideband 0xFFFFFFC) ∧
    ((fun (s : State) => s.boot.hold = true) held) ∧
    ((fun (off : BitVec 28) => let o := (off.toNat); o % 8 = 0) 0x1100010) ∧
    ((fun (s : State) (v : BitVec 64) (port : Fin 32) => let w := (v.setWidth 32); s.boot.hold = false ∧ (s.place port).on =
      true ∧ (s.head port).flit ≠ 0 ∧ fld w 12 10 ≤ 5) ((withPort awake 3)) 0x17FF 3) ∧
    ((fun (s : State) (v : BitVec 64) (port : Fin 32) => let w := (v.setWidth 32); s.boot.hold = false ∧ (s.place port).on =
      true ∧ (s.head port).flit ≠ 0 ∧ fld w 12 10 ≤ 5) ((withPort awake 3)) 0 3) := by
  refine ⟨?_, ?_, ?_, ?_, ?_, ?_, ?_, ?_, ?_, ?_, ?_, ?_, ?_, ?_, ?_⟩ <;> (try dsimp only) <;> decide +kernel

theorem witness_CountersReadAndRequestsTagged :
    ((fun (s : State) (p : Path) (bank : Fin 5) (k : Fin 80) (v : BitVec 32) => let open_ := (if bank.val = 4 then 32 else
      64); Writable s p (ctlOff bank k) (setFld v 30 30 1) ∧ k.val < open_)
      ((let s : State := awake; { s with ctr := { s.ctr with count := ⟨[(63, 5), (575, 0xFFFFFFFFFFFF)]⟩ } })) .bar 0 63 0)
      ∧
    ((fun (s : State) (p : Path) (bank : Fin 5) (k : Fin 80) (v : BitVec 32) => let open_ := (if bank.val = 4 then 32 else
      64); Writable s p (ctlOff bank k) (setFld v 30 30 1) ∧ k.val < open_)
      ((let s : State := awake; { s with ctr := { s.ctr with count := ⟨[(543, 0xFFFFFFFFFFFF)]⟩ } })) .bar 4 31 0) ∧
    ((fun (s : State) (p : Path) (bank : Fin 5) (k : Fin 80) (v : BitVec 32) => let open_ := (if bank.val = 4 then 32 else
      64); Writable s p (ctlOff bank k) (setFld v 30 30 1) ∧ open_ ≤ k.val) awake .bar 0 64 0) ∧
    ((fun (s : State) (p : Path) (bank : Fin 5) (k : Fin 80) (v : BitVec 32) => let open_ := (if bank.val = 4 then 32 else
      64); Writable s p (ctlOff bank k) (setFld v 30 30 1) ∧ open_ ≤ k.val) awake .bar 3 79 0) ∧
    ((fun (s : State) (p : Path) (bank : Fin 5) (k : Fin 80) (v : BitVec 32) => let open_ := (if bank.val = 4 then 32 else
      64); Writable s p (ctlOff bank k) (setFld v 30 30 1) ∧ open_ ≤ k.val) awake .bar 4 32 0) ∧
    ((fun (s : State) (p : Path) (bank : Fin 5) (k : Fin 80) => let size := (if bank.val = 4 then 32 else 80); Reachable s p
      ∧ k.val < size)
      ((let s : State := awake; { s with ctr := { s.ctr with count := ⟨[(79, 0x123456789ABC)]⟩ } })) .bar 0 79) ∧
    ((fun (s : State) (p : Path) (bank : Fin 5) (k : Fin 80) => let size := (if bank.val = 4 then 32 else 80); Reachable s p
      ∧ k.val < size)
      ((let s : State := awake; { s with ctr := { s.ctr with snap := ⟨[(543, 0x123456789ABC)]⟩ } })) .bar 4 31) ∧
    ((fun (s : State) (port : Fin 32) => DoeOpen s port) ((withPort awake 3)) 3) ∧
    ((fun (s : State) (port : Fin 32) => DoeOpen s port) (withDom (withPort awake 3)) 3) ∧
    ((fun (s : State) (p : Path) (v : BitVec 32) (r : Fin 4) => Writable s p (R.TR_CTL r) (setFld v 31 31 1) ∧ s.flag
      (R.TR_CTL_EN r) = false) awake .bar 0x05000000 0) ∧
    ((fun (s : State) (p : Path) (v : BitVec 32) (r : Fin 4) => Writable s p (R.TR_CTL r) (setFld v 31 31 1) ∧ s.flag
      (R.TR_CTL_EN r) = false) awake .bar 0x4A000000 3) ∧
    ((fun (s : State) (p : Path) (v : BitVec 32) (r : Fin 4) => Writable s p (R.TR_SEED r) v) awake .bar 0 3) ∧
    ((fun (s : State) (p : Path) (v : BitVec 32) (r : Fin 4) => Writable s p (R.TR_SEED r) v) awake .bar 0xFFFFFFFF 0) ∧
    ((fun (s : State) (p : Path) => Reachable s p)
      ((let s : State := awake; { s with ctr := { s.ctr with trace := ⟨[(12288, 0x12345678)]⟩ } })) .bar) ∧
    ((fun (s : State) (p : Path) => Reachable s p)
      ((let s : State := (put awake (R.TR_IDX_IDX 0) 4095); { s with ctr := { s.ctr with trace := ⟨[(4095, 0x12345678)]⟩ } })) .bar)
      ∧
    ((fun (s : State) (high : Bool) => s.claim.mfp.get (if high then 7 else 6) = 0x27)
      ((let s := put (put awake (R.TR_CTL_TRIGSTOP 2) 1) (R.TR_CTL_EN 2) 1; { s with claim := { s.claim with mfp := s.claim.mfp.put 6 0x27 } })) false)
      ∧
    ((fun (s : State) (high : Bool) => s.claim.mfp.get (if high then 7 else 6) ≠ 0x27) awake true) := by
  refine ⟨?_, ?_, ?_, ?_, ?_, ?_, ?_, ?_, ?_, ?_, ?_, ?_, ?_, ?_, ?_, ?_, ?_⟩ <;> (try dsimp only) <;> decide +kernel

theorem witness_HalyardFreeze :
    ((fun (s : State) (p : Path) (v : BitVec 32) => let go := (fun src => setFld (setFld v 31 31 1) 30 29 src); let armed :=
      (s.flag R.CHIP_HALSTAT_ARMED = true); let timer := (∃ i ∈ [3, 4, 5, 6, 7], s.claim.aot.get i = 0x14 ∨ s.claim.aot.get
      i = 0); Writable s p R.CHIP_HALCTL (go 0) ∧ ¬ armed ∧ timer) awake .bar 0) ∧
    ((fun (s : State) (p : Path) (v : BitVec 32) => let go := (fun src => setFld (setFld v 31 31 1) 30 29 src); let armed :=
      (s.flag R.CHIP_HALSTAT_ARMED = true); let timer := (∃ i ∈ [3, 4, 5, 6, 7], s.claim.aot.get i = 0x14 ∨ s.claim.aot.get
      i = 0); Writable s p R.CHIP_HALCTL (go 0) ∧ ¬ armed ∧ timer) ((put awake (R.CHIP_HALTGT_T 1) 0xFFFFFFFF)) .bar 0) ∧
    ((fun (s : State) (p : Path) (v : BitVec 32) => let go := (fun src => setFld (setFld v 31 31 1) 30 29 src); let armed :=
      (s.flag R.CHIP_HALSTAT_ARMED = true); let timer := (∃ i ∈ [3, 4, 5, 6, 7], s.claim.aot.get i = 0x14 ∨ s.claim.aot.get
      i = 0); Writable s p R.CHIP_HALCTL (go 0) ∧ ¬ armed ∧ ¬ timer)
      ((let s := awake; { s with claim := { s.claim with aot := ⟨(List.range 8).map fun i => (i, 0x10)⟩ } })) .bar 0) ∧
    ((fun (s : State) (p : Path) (v : BitVec 32) => let go := (fun src => setFld (setFld v 31 31 1) 30 29 src); let armed :=
      (s.flag R.CHIP_HALSTAT_ARMED = true); Writable s p R.CHIP_HALCTL (go 1) ∧ ¬ armed) awake .bar 0x000FFFFF) ∧
    ((fun (s : State) (p : Path) (v : BitVec 32) => let go := (fun src => setFld (setFld v 31 31 1) 30 29 src); let armed :=
      (s.flag R.CHIP_HALSTAT_ARMED = true); Writable s p R.CHIP_HALCTL (go 1) ∧ ¬ armed) awake .bar 0) ∧
    ((fun (s : State) (p : Path) (v : BitVec 32) => let go := (fun src => setFld (setFld v 31 31 1) 30 29 src); let armed :=
      (s.flag R.CHIP_HALSTAT_ARMED = true); Writable s p R.CHIP_HALCTL (go 2) ∧ ¬ armed ∧ s.claim.mfp.get 4 = 0x24)
      awake .bar 0) ∧
    ((fun (s : State) (p : Path) (v : BitVec 32) => let go := (fun src => setFld (setFld v 31 31 1) 30 29 src); let armed :=
      (s.flag R.CHIP_HALSTAT_ARMED = true); Writable s p R.CHIP_HALCTL (go 0) ∧ Writable s p R.CHIP_HALCTL (go 1) ∧ armed)
      ((put awake R.CHIP_HALSTAT_ARMED 1)) .bar 0) ∧
    ((fun (s : State) (p : Path) (v : BitVec 32) => let go := (fun src => setFld (setFld v 31 31 1) 30 29 src); let armed :=
      (s.flag R.CHIP_HALSTAT_ARMED = true); Writable s p R.CHIP_HALCTL (go 0) ∧ Writable s p R.CHIP_HALCTL (go 1) ∧ armed)
      ((let s : State := (put awake R.CHIP_HALSTAT_ARMED 1); { s with ctr := { s.ctr with target := some 77 } })) .bar 5) ∧
    ((fun (s : State) (p : Path) (v : BitVec 32) => let go := (fun src => setFld (setFld v 31 31 1) 30 29 src); Writable s p
      R.CHIP_HALCTL (go 3))
      ((let s : State := (put awake R.CHIP_HALSTAT_ARMED 1); { s with ctr := { s.ctr with target := some 77 } })) .bar 0) ∧
    ((fun (s : State) (p : Path) (v : BitVec 32) => Writable s p R.CHIP_HALCTL (setFld (setFld v 31 31 0) 27 27 1))
      ((let s : State := awake; { s with ctr := { s.ctr with frozen := ⟨[(1, true)]⟩ } })) .bar 0) ∧
    ((fun (s : State) => let armed := (s.flag R.CHIP_HALSTAT_ARMED = true); s.ctr.awaitEdge = true ∧ s.claim.mfp.get 4 =
      0x24 ∧ ¬ armed) ((let s : State := { awake with gtc := 1023 }; { s with ctr := { s.ctr with awaitEdge := true } }))) ∧
    ((fun (s : State) => let armed := (s.flag R.CHIP_HALSTAT_ARMED = true); s.ctr.awaitEdge = true ∧ s.claim.mfp.get 4 =
      0x24 ∧ ¬ armed) ((let s : State := { awake with gtc := 1024 }; { s with ctr := { s.ctr with awaitEdge := true } }))) ∧
    ((fun (s : State) => let armed := (s.flag R.CHIP_HALSTAT_ARMED = true); armed) ((put awake R.CHIP_HALSTAT_ARMED 1))) ∧
    ((fun (s : State) (bank : Fin 5) (x : Nat) => let due := (fun (x : Nat) => s.ctr.target = some x ∧ x ≤ s.gtc ∧ bank.val
      ∉ s.ctr.taken ∧ s.rd R.PS_STAT_STATE ≤ 1); due x)
      ((let s : State := (put awake R.CHIP_HALSTAT_ARMED 1); { s with ctr := { s.ctr with target := some 0, count := ⟨[(1, 5), (600, 7)]⟩ } })) 0 0)
      ∧
    ((fun (s : State) (bank : Fin 5) (x : Nat) => let due := (fun (x : Nat) => s.ctr.target = some x ∧ x ≤ s.gtc ∧ bank.val
      ∉ s.ctr.taken ∧ s.rd R.PS_STAT_STATE ≤ 1); due x)
      ((let s : State := (put awake R.CHIP_HALSTAT_ARMED 1); { s with ctr := { s.ctr with target := some 0, count := ⟨[(1, 5), (600, 7)]⟩, taken := [0, 1, 2, 3] } })) 4 0)
      ∧
    ((fun (s : State) (x : Nat) => s.ctr.target = some x ∧ s.gtc < x)
      ((let s : State := (put awake R.CHIP_HALSTAT_ARMED 1); { s with ctr := { s.ctr with target := some 1 } })) 1) ∧
    ((fun (s : State) => s.ctr.target = none) ((put awake R.CHIP_HALSTAT_ARMED 1))) := by
  refine ⟨?_, ?_, ?_, ?_, ?_, ?_, ?_, ?_, ?_, ?_, ?_, ?_, ?_, ?_, ?_, ?_, ?_⟩ <;> (try dsimp only) <;> decide +kernel

theorem witness_LaneFaultsAndTraining :
    ((fun (s : State) (g : Fin 16) (l : Fin 9) (n : BitVec 32) => let st := (s.laneSt g l); st = 3 ∧ n.toNat ≤ s.rd
      (R.PG_SDCTL_ERRTH g)) ((withLane awake 15 2 8 3)) 15 8 64) ∧
    ((fun (s : State) (g : Fin 16) (l : Fin 9) (n : BitVec 32) => let st := (s.laneSt g l); st = 3 ∧ n.toNat ≤ s.rd
      (R.PG_SDCTL_ERRTH g)) ((withLane awake 15 1 0 3)) 15 0 0) ∧
    ((fun (s : State) (g : Fin 16) (l : Fin 9) (n : BitVec 32) => let st := (s.laneSt g l); let judge := ((s.laneOf g
      l).judge); st = 3 ∧ s.rd (R.PG_SDCTL_ERRTH g) < n.toNat ∧ judge = 0) ((withLane awake 15 2 8 3)) 15 8 65) ∧
    ((fun (s : State) (g : Fin 16) (l : Fin 9) (n : BitVec 32) => let st := (s.laneSt g l); let judge := ((s.laneOf g
      l).judge); st = 3 ∧ s.rd (R.PG_SDCTL_ERRTH g) < n.toNat ∧ judge = 0) ((withLane awake 15 2 8 3)) 15 8 0xFFFFFFFF) ∧
    ((fun (s : State) (g : Fin 16) (l : Fin 9) => let st := (s.laneSt g l); let judge := ((s.laneOf g l).judge); ((st = 2 ∨
      st = 3)) ∧ judge = 0) ((withLane awake 15 2 8 2)) 15 8) ∧
    ((fun (s : State) (g : Fin 16) (l : Fin 9) => let st := (s.laneSt g l); let judge := ((s.laneOf g l).judge); ((st = 2 ∨
      st = 3)) ∧ judge = 0) ((withLane awake 15 1 0 3)) 15 0) ∧
    ((fun (s : State) (g : Fin 16) (l : Fin 9) => let st := (s.laneSt g l); let judge := ((s.laneOf g l).judge); ((st = 2 ∨
      st = 3)) ∧ judge ≠ 0) (((withLane awake 15 2 8 2).updLane 15 8 fun x => { x with judge := 1 })) 15 8) ∧
    ((fun (s : State) (g : Fin 16) (l : Fin 9) => let st := (s.laneSt g l); let judge := ((s.laneOf g l).judge); ((st = 2 ∨
      st = 3)) ∧ judge ≠ 0) (((withLane awake 15 2 8 3).updLane 15 8 fun x => { x with judge := 3 })) 15 8) ∧
    ((fun (s : State) (g : Fin 16) (l : Fin 9) => let st := (s.laneSt g l); st = 4) ((withLane awake 15 2 8 4)) 15 8) ∧
    ((fun (s : State) (g : Fin 16) (l : Fin 9) => let judge := ((s.laneOf g l).judge); judge = 3)
      (((withLane awake 15 2 8 3).updLane 15 8 fun x => { x with judge := 3 })) 15 8) ∧
    ((fun (s : State) (g : Fin 16) (l : Fin 9) => let judge := ((s.laneOf g l).judge); judge = 4 ∧ s.pgMode g ≠ 2)
      (((withLane awake 15 1 3 2).updLane 15 3 fun x => { x with judge := 4 })) 15 3) ∧
    ((fun (s : State) (g : Fin 16) (l : Fin 9) => let st := (s.laneSt g l); st = 2) ((withLane awake 15 2 8 2)) 15 8) ∧
    ((fun (s : State) (g : Fin 16) (l : Fin 9) => let st := (s.laneSt g l); s.rd (R.PG_LN_RXEQ_ADAPT g l) = 0 ∧ ((st = 3 ∨
      st = 4))) ((withLane awake 15 2 8 4)) 15 8) ∧
    ((fun (s : State) (g : Fin 16) (l : Fin 9) => let st := (s.laneSt g l); s.rd (R.PG_LN_RXEQ_ADAPT g l) = 0 ∧ ((st = 3 ∨
      st = 4))) ((withLane awake 15 1 0 3)) 15 0) ∧
    ((fun (s : State) (g : Fin 16) (l : Fin 9) (p : Path) (v : BitVec 32) => let st := (s.laneSt g l); Writable s p
      (R.PG_LN_DETECT g l) v ∧ v.getLsbD 31 = true ∧ s.flag (R.PG_LN_DETECT_BUSY g l) = false ∧ ((st = 0 ∨ st = 5 ∨ st =
      6))) ((withLane awake 15 2 8 0)) 15 8 .bar 0x80000000) ∧
    ((fun (s : State) (g : Fin 16) (l : Fin 9) (p : Path) (v : BitVec 32) => let st := (s.laneSt g l); Writable s p
      (R.PG_LN_DETECT g l) v ∧ v.getLsbD 31 = true ∧ s.flag (R.PG_LN_DETECT_BUSY g l) = false ∧ ((st = 0 ∨ st = 5 ∨ st =
      6))) ((withLane awake 15 1 3 5)) 15 3 .bar 0x80000000) ∧
    ((fun (s : State) (g : Fin 16) (l : Fin 9) (p : Path) (v : BitVec 32) => let st := (s.laneSt g l); Writable s p
      (R.PG_LN_DETECT g l) v ∧ v.getLsbD 31 = true ∧ s.flag (R.PG_LN_DETECT_BUSY g l) = false ∧ ((st = 0 ∨ st = 5 ∨ st =
      6))) ((withLane awake 15 3 3 6)) 15 3 .bar 0x80000000) ∧
    ((fun (s : State) (g : Fin 16) (l : Fin 9) => s.flag (R.PG_LN_DETECT_BUSY g l) = true ∧ s.pgMode g ≠ 2 ∧
      s.lane.subst.get g = 0 ∧ (s.laneOf g l).was = 0) ((put (withLane awake 15 1 3 1) (R.PG_LN_DETECT_BUSY 15 3) 1)) 15 3)
      ∧
    ((fun (s : State) (g : Fin 16) (l : Fin 9) => s.flag (R.PG_LN_DETECT_BUSY g l) = true ∧ s.pgMode g ≠ 2 ∧
      s.lane.subst.get g = 0) ((put (withLane awake 15 1 3 1) (R.PG_LN_DETECT_BUSY 15 3) 1)) 15 3) ∧
    ((fun (s : State) (g : Fin 16) => s.alone g = true)
      (((List.range 9).foldl (fun (s : State) l => (s.wr (R.PG_LN_STAT_STATE 15 l) 1).wr (R.PG_LN_DETECT_TXRES 15 l) 7) (withLane awake 15 2 8 1))) 15)
      ∧
    ((fun (s : State) (g : Fin 16) (lanes : BitVec 9) => s.pgMode g = 2 ∧ s.flag (R.PG_SDCTL_WAKEEN g) = true ∧ s.rd
      (R.PG_SDCTL_WAKEMIN g) + 1 ≤ (bitsOf 9 lanes).length) ((withLane awake 15 2 8 0)) 15 0x3) ∧
    ((fun (s : State) (g : Fin 16) (lanes : BitVec 9) => s.pgMode g = 2 ∧ s.flag (R.PG_SDCTL_WAKEEN g) = true ∧ s.rd
      (R.PG_SDCTL_WAKEMIN g) + 1 ≤ (bitsOf 9 lanes).length) ((withLane awake 15 2 8 0)) 15 0x180) ∧
    ((fun (s : State) (g : Fin 16) => s.flag (R.PG_SDCTL_WAKEEN g) = false)
      (put (withLane awake 15 2 8 0) (R.PG_SDCTL_WAKEEN 15) 0) 15) := by
  refine ⟨?_, ?_, ?_, ?_, ?_, ?_, ?_, ?_, ?_, ?_, ?_, ?_, ?_, ?_, ?_, ?_, ?_, ?_, ?_, ?_, ?_, ?_, ?_⟩ <;> (try dsimp only) <;> decide +kernel

theorem witness_LaneTestsAndMargining :
    ((fun (s : State) (p : Path) (g : Fin 16) (v : BitVec 32) => Writable s p (R.PG_SDCTL g) v ∧ fld v 31 30 = 3 ∧ s.pgMode
      g ≠ 3) (withPort awake 30) .bar 15 0xC3084000) ∧
    ((fun (s : State) (p : Path) (g : Fin 16) (v : BitVec 32) => Writable s p (R.PG_SDCTL g) v ∧ fld v 31 30 = 3 ∧ s.pgMode
      g ≠ 3) ((withLane awake 15 1 0 3)) .bar 15 0xC3084000) ∧
    ((fun (s : State) (p : Path) (g : Fin 16) (v : BitVec 32) => Writable s p (R.PG_SDCTL g) v ∧ fld v 31 30 = 2 ∧ fld v 29
      27 < 6 ∧ s.flag R.CF_STAT_DEVLOST = false) awake .bar 15 0x80000100) ∧
    ((fun (s : State) (p : Path) (g : Fin 16) (v : BitVec 32) => Writable s p (R.PG_SDCTL g) v ∧ fld v 31 30 = 2 ∧ fld v 29
      27 < 6 ∧ s.flag R.CF_STAT_DEVLOST = false) awake .bar 0 0xA8380100) ∧
    ((fun (s : State) (p : Path) (g : Fin 16) (l : Fin 9) (v : BitVec 32) => Writable s p (R.PG_LN_PRBSCTL g l) v ∧ s.pgMode
      g ≠ 3 ∧ fld v 30 28 ≠ 0) ((withLane awake 15 2 8 3)) .bar 15 8 0x50000000) ∧
    ((fun (s : State) (p : Path) (g : Fin 16) (l : Fin 9) (v : BitVec 32) => Writable s p (R.PG_LN_PRBSCTL g l) v ∧ s.pgMode
      g ≠ 3 ∧ fld v 30 28 ≠ 0) ((withLane awake 15 0 8 3)) .bar 15 8 0x10000000) ∧
    ((fun (s : State) (p : Path) (g : Fin 16) (l : Fin 9) (v : BitVec 32) => let st := (s.laneSt g l); Writable s p
      (R.PG_LN_PRBSCTL g l) v ∧ s.pgMode g = 3 ∧ st ≠ 4) ((withLane awake 15 3 8 6)) .bar 15 8 0x52000000) ∧
    ((fun (s : State) (p : Path) (g : Fin 16) (l : Fin 9) (v : BitVec 32) => let st := (s.laneSt g l); Writable s p
      (R.PG_LN_PRBSCTL g l) v ∧ s.pgMode g = 3 ∧ st ≠ 4) ((withLane awake 15 3 8 6)) .bar 15 8 0x00000000) ∧
    ((fun (s : State) (p : Path) (g : Fin 16) (l : Fin 9) (v : BitVec 32) => let clr := (setFld v 31 31 1); Writable s p
      (R.PG_LN_PRBSCTL g l) clr ∧ s.pgMode g = 3)
      ((put (put (withLane awake 15 3 8 6) (R.PG_LN_PRBSCTL_CHK 15 8) 3) (R.PG_LN_PRBSCTL_LOCK 15 8) 1)) .bar 15 8 0) ∧
    ((fun (s : State) (g : Fin 16) (l : Fin 9) => s.checks g l = true)
      ((put (put (withLane awake 15 3 8 6) (R.PG_LN_PRBSCTL_CHK 15 8) 3) (R.PG_LN_PRBSCTL_LOCK 15 8) 0)) 15 8) ∧
    ((fun (s : State) (g : Fin 16) (l : Fin 9) => s.checks g l = false) ((withLane awake 15 2 8 3)) 15 8) ∧
    ((fun (s : State) (g : Fin 16) (l : Fin 9) => s.checks g l = false) awake 15 8) ∧
    ((fun (s : State) (g : Fin 16) (l : Fin 9) => let locked := (s.checks g l = true ∧ s.flag (R.PG_LN_PRBSCTL_LOCK g l) =
      true); locked)
      ((put (put (withLane awake 15 3 8 6) (R.PG_LN_PRBSCTL_CHK 15 8) 3) (R.PG_LN_PRBSCTL_LOCK 15 8) 1)) 15 8) ∧
    ((fun (s : State) (p : Path) (g : Fin 16) (l : Fin 9) => let locked := (s.checks g l = true ∧ s.flag
      (R.PG_LN_PRBSCTL_LOCK g l) = true); Reachable s p ∧ locked)
      ((put (put (withLane awake 15 3 8 6) (R.PG_LN_PRBSCTL_CHK 15 8) 3) (R.PG_LN_PRBSCTL_LOCK 15 8) 1)) .bar 15 8) ∧
    ((fun (s : State) (p : Path) (g : Fin 16) (l : Fin 9) (v : BitVec 32) => let st := (s.laneSt g l); let busy := (s.flag
      (R.PG_LN_MARGSTAT_BUSY g l)); Writable s p (R.PG_LN_MARGCTL g l) v ∧ v.getLsbD 31 = true ∧ busy = false ∧ ((st = 3 ∨
      st = 4 ∨ st = 6))) ((withLane awake 15 2 8 3)) .bar 15 8 (0x80000000 ||| 0x5000)) ∧
    ((fun (s : State) (p : Path) (g : Fin 16) (l : Fin 9) (v : BitVec 32) => let st := (s.laneSt g l); let busy := (s.flag
      (R.PG_LN_MARGSTAT_BUSY g l)); Writable s p (R.PG_LN_MARGCTL g l) v ∧ v.getLsbD 31 = true ∧ busy = false ∧ ((st = 3 ∨
      st = 4 ∨ st = 6))) ((withLane awake 15 3 8 6)) .bar 15 8 (0xDFFFF5FF &&& 0xDFFFFFFF)) ∧
    ((fun (s : State) (p : Path) (g : Fin 16) (l : Fin 9) (v : BitVec 32) => let st := (s.laneSt g l); let busy := (s.flag
      (R.PG_LN_MARGSTAT_BUSY g l)); Writable s p (R.PG_LN_MARGCTL g l) v ∧ v.getLsbD 31 = true ∧ busy = false ∧ ((st = 3 ∨
      st = 4 ∨ st = 6))) ((withLane awake 15 3 8 6)) .bar 15 8 0x80005000) ∧
    ((fun (s : State) (p : Path) (g : Fin 16) (l : Fin 9) (v : BitVec 32) => let busy := (s.flag (R.PG_LN_MARGSTAT_BUSY g
      l)); let host := ((s.laneOf g l).margHost); Writable s p (R.PG_LN_MARGCTL g l) v ∧ v.getLsbD 31 = true ∧ busy = true ∧
      host = true)
      (((put (withLane awake 15 1 8 3) (R.PG_LN_MARGSTAT_BUSY 15 8) 1).updLane 15 8 fun x => { x with margHost := true })) .bar 15 8 0x80005000)
      ∧
    ((fun (s : State) (g : Fin 16) (l : Fin 9) => let busy := (s.flag (R.PG_LN_MARGSTAT_BUSY g l)); let host := ((s.laneOf g
      l).margHost); busy = true ∧ host = false) ((put (withLane awake 15 2 8 3) (R.PG_LN_MARGSTAT_BUSY 15 8) 1)) 15 8) ∧
    ((fun (s : State) (g : Fin 16) (l : Fin 9) => let busy := (s.flag (R.PG_LN_MARGSTAT_BUSY g l)); let host := ((s.laneOf g
      l).margHost); busy = true ∧ host = false) ((put (withLane awake 15 3 8 6) (R.PG_LN_MARGSTAT_BUSY 15 8) 1)) 15 8) ∧
    ((fun (s : State) (g : Fin 16) (l : Fin 9) => let busy := (s.flag (R.PG_LN_MARGSTAT_BUSY g l)); busy = false)
      ((withLane awake 15 2 8 3)) 15 8) ∧
    ((fun (s : State) (g : Fin 16) (l : Fin 9) => let st := (s.laneSt g l); let busy := (s.flag (R.PG_LN_MARGSTAT_BUSY g
      l)); let cxl := (s.pgMode g = 1 ∧ 3 ≤ s.rd (R.PG_SDSTAT_RATECUR g) ∧ st = 3); cxl ∧ busy = false)
      ((put (withLane awake 15 1 8 3) (R.PG_SDSTAT_RATECUR 15) 3)) 15 8) ∧
    ((fun (s : State) (g : Fin 16) (l : Fin 9) => let st := (s.laneSt g l); let host := ((s.laneOf g l).margHost); let cxl
      := (s.pgMode g = 1 ∧ 3 ≤ s.rd (R.PG_SDSTAT_RATECUR g) ∧ st = 3); cxl ∧ host = true)
      (((put (put (withLane awake 15 1 8 3) (R.PG_SDSTAT_RATECUR 15) 4) (R.PG_LN_MARGSTAT_BUSY 15 8) 1).updLane 15 8 fun x => { x with margHost := true })) 15 8)
      ∧
    ((fun (s : State) (g : Fin 16) (l : Fin 9) => let st := (s.laneSt g l); let cxl := (s.pgMode g = 1 ∧ 3 ≤ s.rd
      (R.PG_SDSTAT_RATECUR g) ∧ st = 3); ¬ cxl) ((withLane awake 15 1 8 3)) 15 8) ∧
    ((fun (s : State) (g : Fin 16) (l : Fin 9) => let st := (s.laneSt g l); let cxl := (s.pgMode g = 1 ∧ 3 ≤ s.rd
      (R.PG_SDSTAT_RATECUR g) ∧ st = 3); ¬ cxl) ((put (withLane awake 15 2 8 3) (R.PG_SDSTAT_RATECUR 15) 4)) 15 8) := by
  refine ⟨?_, ?_, ?_, ?_, ?_, ?_, ?_, ?_, ?_, ?_, ?_, ?_, ?_, ?_, ?_, ?_, ?_, ?_, ?_, ?_, ?_, ?_, ?_, ?_, ?_⟩ <;> (try dsimp only) <;> decide +kernel

theorem witness_LinkFlitsSent :
    ((fun (s : State) (g : Fin 16) => let e := (s.linkEnd g); let live := (s.pgMode g = 2 ∧ s.flag R.CF_STAT_DEVLOST =
      false); let slotOpen := (live ∧ s.lt g = 6 ∧ e.slot % 2048 ≠ 2047 ∧ e.slot < 16384); slotOpen ∧ e.nakDue = true)
      (((withLink awake 15 6).updEnd 15 fun e => { e with nakDue := true, slot := 16383 - 1 })) 15) ∧
    ((fun (s : State) (g : Fin 16) => let e := (s.linkEnd g); let live := (s.pgMode g = 2 ∧ s.flag R.CF_STAT_DEVLOST =
      false); let slotOpen := (live ∧ s.lt g = 6 ∧ e.slot % 2048 ≠ 2047 ∧ e.slot < 16384); slotOpen ∧ e.nakDue = true)
      (((withLink awake 15 6).updEnd 15 fun e => { e with nakDue := true })) 15) ∧
    ((fun (s : State) (g : Fin 16) (q : Nat) (f : KeptFlit) => let e := (s.linkEnd g); let live := (s.pgMode g = 2 ∧ s.flag
      R.CF_STAT_DEVLOST = false); let slotOpen := (live ∧ s.lt g = 6 ∧ e.slot % 2048 ≠ 2047 ∧ e.slot < 16384); slotOpen ∧
      e.nakDue = false ∧ e.replayAt = some q ∧ e.buf.find? (fun x => x.seq == q) = some f)
      (((withLink awake 15 6).updEnd 15 fun e => { e with replayAt := some 9, buf := [{ seq := 8, msgs := [], prc := 0, pwc := 0 }, { seq := 9, msgs := [], prc := 1, pwc := 2 }] })) 15 9 ({ seq := 9, msgs := [], prc := 1, pwc := 2 }))
      ∧
    ((fun (s : State) (g : Fin 16) => let e := (s.linkEnd g); let d := (s.peerDev g); let live := (s.pgMode g = 2 ∧ s.flag
      R.CF_STAT_DEVLOST = false); let slotOpen := (live ∧ s.lt g = 6 ∧ e.slot % 2048 ≠ 2047 ∧ e.slot < 16384); slotOpen ∧
      e.nakDue = false ∧ e.replayAt = none ∧ s.link.outq.get d = [] ∧ s.link.pret.get (2 * d) = 0 ∧ s.link.pret.get (2 * d +
      1) = 0) ((withLink awake 15 6)) 15) ∧
    ((fun (s : State) (g : Fin 16) => let e := (s.linkEnd g); e.slot % 2048 = 2047)
      (((withLink awake 15 6).updEnd 15 fun e => { e with slot := 2047 })) 15) ∧
    ((fun (s : State) (g : Fin 16) => let e := (s.linkEnd g); e.slot % 2048 = 2047)
      (((withLink awake 15 6).updEnd 15 fun e => { e with slot := 16383 })) 15) ∧
    ((fun (s : State) (g : Fin 16) => let e := (s.linkEnd g); let live := (s.pgMode g = 2 ∧ s.flag R.CF_STAT_DEVLOST =
      false); live ∧ ((s.lt g = 5 ∨ s.lt g = 6)) ∧ e.slot % 2048 = 2047)
      (((withLink awake 15 6).updEnd 15 fun e => { e with slot := 2047 })) 15) ∧
    ((fun (s : State) (g : Fin 16) => let e := (s.linkEnd g); let live := (s.pgMode g = 2 ∧ s.flag R.CF_STAT_DEVLOST =
      false); live ∧ ((s.lt g = 5 ∨ s.lt g = 6)) ∧ e.slot % 2048 = 2047)
      (((withLink awake 15 5).updEnd 15 fun e => { e with slot := 16383 })) 15) ∧
    ((fun (s : State) (g : Fin 16) => let e := (s.linkEnd g); e.slot % 2048 ≠ 2047)
      (((withLink awake 15 6).updEnd 15 fun e => { e with slot := 2048 })) 15) ∧
    ((fun (s : State) (g : Fin 16) => let e := (s.linkEnd g); let live := (s.pgMode g = 2 ∧ s.flag R.CF_STAT_DEVLOST =
      false); let due := ((s.lt g = 4 ∨ s.lt g = 5 ∨ s.lt g = 6) ∧ (s.lt g = 4 ∨ 16384 ≤ e.slot)); live ∧ due)
      ((withLink awake 15 4)) 15) ∧
    ((fun (s : State) (g : Fin 16) => let e := (s.linkEnd g); let live := (s.pgMode g = 2 ∧ s.flag R.CF_STAT_DEVLOST =
      false); let due := ((s.lt g = 4 ∨ s.lt g = 5 ∨ s.lt g = 6) ∧ (s.lt g = 4 ∨ 16384 ≤ e.slot)); live ∧ due)
      (((withLink awake 15 6).updEnd 15 fun e => { e with slot := 16384 })) 15) ∧
    ((fun (s : State) (g : Fin 16) => let e := (s.linkEnd g); let due := ((s.lt g = 4 ∨ s.lt g = 5 ∨ s.lt g = 6) ∧ (s.lt g =
      4 ∨ 16384 ≤ e.slot)); ¬ due) (((withLink awake 15 6).updEnd 15 fun e => { e with slot := 16383 })) 15) ∧
    ((fun (s : State) (g : Fin 16) => let e := (s.linkEnd g); let due := ((s.lt g = 4 ∨ s.lt g = 5 ∨ s.lt g = 6) ∧ (s.lt g =
      4 ∨ 16384 ≤ e.slot)); ¬ due) ((withLink awake 15 3)) 15) ∧
    ((fun (s : State) => s.flag R.CF_STAT_DEVLOST = true) ((withLink (put awake R.CF_STAT_DEVLOST 1) 15 6))) ∧
    ((fun (s : State) (g : Fin 16) => let e := (s.linkEnd g); e.rwait = true)
      (((withLink awake 15 6).updEnd 15 fun e => { e with rwait := true })) 15) ∧
    ((fun (s : State) (g : Fin 16) => let e := (s.linkEnd g); e.rwait = false) ((withLink awake 15 6)) 15) := by
  refine ⟨?_, ?_, ?_, ?_, ?_, ?_, ?_, ?_, ?_, ?_, ?_, ?_, ?_, ?_, ?_, ?_⟩ <;> (try dsimp only) <;> decide +kernel

theorem witness_LinkFlitsReceived :
    ((fun (s : State) (g : Fin 16) (raw : BitVec 2048) => let e := (s.linkEnd g); let live := (s.pgMode g = 2 ∧ s.flag
      R.CF_STAT_DEVLOST = false); let due := (live ∧ (s.lt g = 5 ∨ s.lt g = 6) ∧ e.rxSlot % 2048 ≠ 2047); due ∧ flitCorrect
      (leBytes 256 raw) = none) ((withLink awake 15 6)) 15 (2 ^ 2000 - 7)) ∧
    ((fun (s : State) (g : Fin 16) (raw : BitVec 2048) (f : List Byte) (n : Nat) => let e := (s.linkEnd g); let live :=
      (s.pgMode g = 2 ∧ s.flag R.CF_STAT_DEVLOST = false); let due := (live ∧ (s.lt g = 5 ∨ s.lt g = 6) ∧ e.rxSlot % 2048 ≠
      2047); due ∧ flitCorrect (leBytes 256 raw) = some (f, n) ∧ (flitHead (ofLe 32 (f.take 4))).ftype = 0 ∧ leBytes 8
      (crc64 (s.expSeq g) (f.take 240)) ≠ f.drop 240) ((withLink awake 15 6)) 15 0 (List.replicate 248 0) 0) ∧
    ((fun (s : State) (g : Fin 16) (raw : BitVec 2048) (f : List Byte) (n : Nat) => let e := (s.linkEnd g); let live :=
      (s.pgMode g = 2 ∧ s.flag R.CF_STAT_DEVLOST = false); let due := (live ∧ (s.lt g = 5 ∨ s.lt g = 6) ∧ e.rxSlot % 2048 ≠
      2047); due ∧ flitCorrect (leBytes 256 raw) = some (f, n) ∧ (flitHead (ofLe 32 (f.take 4))).ftype ≠ 0 ∧ leBytes 8
      (crc64 0x1000 (f.take 240)) ≠ f.drop 240) ((withLink awake 15 5)) 15 oddRaw ((leBytes 256 oddRaw).take 248) 0) ∧
    ((fun (s : State) (g : Fin 16) (raw : BitVec 2048) (f : List Byte) (n : Nat) => let e := (s.linkEnd g); let live :=
      (s.pgMode g = 2 ∧ s.flag R.CF_STAT_DEVLOST = false); let due := (live ∧ (s.lt g = 5 ∨ s.lt g = 6) ∧ e.rxSlot % 2048 ≠
      2047); due ∧ flitCorrect (leBytes 256 raw) = some (f, n) ∧ (flitHead (ofLe 32 (f.take 4))).ftype = 3 ∧ leBytes 8
      (crc64 0x1000 (f.take 240)) = f.drop 240) ((withLink awake 15 5)) 15 skipRaw ((leBytes 256 skipRaw).take 248) 0) ∧
    ((fun (s : State) (g : Fin 16) => let e := (s.linkEnd g); let live := (s.pgMode g = 2 ∧ s.flag R.CF_STAT_DEVLOST =
      false); live ∧ ((s.lt g = 5 ∨ s.lt g = 6)) ∧ e.rxSlot % 2048 = 2047)
      (((withLink awake 15 6).updEnd 15 fun e => { e with rxSlot := 2047 })) 15) ∧
    ((fun (s : State) (g : Fin 16) => s.lt g ≠ 5 ∧ s.lt g ≠ 6) ((withLink awake 15 4)) 15) ∧
    ((fun (s : State) (g : Fin 16) (l : Fin 9) (b : BitVec 256) => let live := (s.pgMode g = 2 ∧ s.flag R.CF_STAT_DEVLOST =
      false); live ∧ ((s.lt g = 5 ∨ s.lt g = 6)) ∧ l.val ∈ s.laneMap g ∧ markerOk b = true)
      (((withLink (put awake (R.PG_LKSTAT_WIDTH 15) 2) 15 6).updEnd 15 fun e => { e with missed := ⟨[(1, 2)]⟩ })) 15 1 (markerBits 0 0 0))
      ∧
    ((fun (s : State) (g : Fin 16) (l : Fin 9) (b : BitVec 256) => let e := (s.linkEnd g); let live := (s.pgMode g = 2 ∧
      s.flag R.CF_STAT_DEVLOST = false); live ∧ ((s.lt g = 5 ∨ s.lt g = 6)) ∧ l.val ∈ s.laneMap g ∧ markerOk b = false ∧
      e.missed.get l = 0) ((withLink (put awake (R.PG_LKSTAT_WIDTH 15) 2) 15 6)) 15 7 5) ∧
    ((fun (s : State) (g : Fin 16) (b : BitVec 256) => let live := (s.pgMode g = 2 ∧ s.flag R.CF_STAT_DEVLOST = false); live
      ∧ s.lt g = 6 ∧ trainOk b = false) (((withLink awake 15 6).updEnd 15 fun e => { e with l0Run := 3 })) 15 5) ∧
    ((fun (s : State) (g : Fin 16) (b : BitVec 256) => let e := (s.linkEnd g); let live := (s.pgMode g = 2 ∧ s.flag
      R.CF_STAT_DEVLOST = false); live ∧ s.lt g = 6 ∧ trainOk b = true ∧ (trainBlock b).full = false ∧ e.l0Run < 3)
      (((withLink awake 15 6).updEnd 15 fun e => { e with l0Run := 2 })) 15 (({ (default : TrainBlock) with lane := 3, dev := 5, nonce := 9 } : TrainBlock).bits))
      ∧
    ((fun (s : State) (g : Fin 16) (b : BitVec 256) => let e := (s.linkEnd g); let live := (s.pgMode g = 2 ∧ s.flag
      R.CF_STAT_DEVLOST = false); live ∧ s.lt g ≠ 0 ∧ s.lt g ≠ 7 ∧ trainOk b = true ∧ (trainBlock b).full = true ∧ e.full =
      false ∧ s.rd (R.PG_SDCTL_MODE g) = 2)
      ((withLink (put awake (R.PG_SDCTL_MODE 15) 2) 15 6)) 15 (({ (default : TrainBlock) with full := true, lane := 3, dev := 5, nonce := 9 } : TrainBlock).bits))
      ∧
    ((fun (s : State) (d : Fin 16) => s.flag R.CF_STAT_DEVLOST = false ∧ s.peerLost d = false ∧ s.link.pwait.get d = [])
      ((withLink awake 15 6)) 5) ∧
    ((fun (s : State) (d : Fin 16) => s.flag R.CF_STAT_DEVLOST = false ∧ s.peerLost d = false ∧ s.link.pwait.get d = [])
      awake 5) ∧
    ((fun (s : State) (d : Fin 16) (r : Fin 16) => (s.lt r = 6 ∨ s.peerDev r ≠ d.val ∨ s.pgMode r ≠ 2))
      ((withLink awake 14 6)) 5 14) ∧
    ((fun (s : State) (d : Fin 16) (r : Fin 16) => (s.lt r = 6 ∨ s.peerDev r ≠ d.val ∨ s.pgMode r ≠ 2)) awake 5 14) ∧
    ((fun (s : State) (d : Fin 16) (r : Fin 16) (ev : Bool) => s.flag R.CF_STAT_DEVLOST = false ∧ s.peerLost d = false ∧
      s.lt r ≠ 6 ∧ s.peerDev r = d.val ∧ s.pgMode r = 2 ∧ ev = false)
      (((withLink awake 14 4).updEnd 14 fun e => { e with buf := [{ seq := 8, msgs := [], prc := 0, pwc := 0 }] })) 5 14 false)
      ∧
    ((fun (s : State) (d : Fin 16) (p : Path) (v : BitVec 32) => let fits := (legalWrite (R.CHIP_PEERLIM d) v = true ∧
      (s.putReg (R.CHIP_PEERLIM d) v).limitsFit = true); Reachable s p ∧ fits) awake 5 .bar 0x04008030) ∧
    ((fun (s : State) (d : Fin 16) (p : Path) (v : BitVec 32) => let fits := (legalWrite (R.CHIP_PEERLIM d) v = true ∧
      (s.putReg (R.CHIP_PEERLIM d) v).limitsFit = true); Reachable s p ∧ fits) awake 5 .bar 0x00100401) ∧
    ((fun (s : State) (d : Fin 16) (p : Path) (v : BitVec 32) => let fits := (legalWrite (R.CHIP_PEERLIM d) v = true ∧
      (s.putReg (R.CHIP_PEERLIM d) v).limitsFit = true); Reachable s p ∧ ¬ fits ∧ s.flag R.CF_STAT_DEVLOST = false)
      awake 5 .bar 0x7FFFFFFF) ∧
    ((fun (s : State) (d : Fin 16) (p : Path) (v : BitVec 32) => let fits := (legalWrite (R.CHIP_PEERLIM d) v = true ∧
      (s.putReg (R.CHIP_PEERLIM d) v).limitsFit = true); Reachable s p ∧ ¬ fits ∧ s.flag R.CF_STAT_DEVLOST = false)
      awake 5 .bar 0) ∧
    ((fun (s : State) (d : Fin 16) (p : Path) (v : BitVec 32) => let fits := (legalWrite (R.CHIP_PEERLIM d) v = true ∧
      (s.putReg (R.CHIP_PEERLIM d) v).limitsFit = true); Reachable s p ∧ ¬ fits ∧ s.flag R.CF_STAT_DEVLOST = false)
      awake 5 .bar 0x001004FF) := by
  refine ⟨?_, by exact ⟨by decide +kernel, zeroFlit_clean, by decide +kernel, zeroFlit_crc⟩, by exact ⟨by decide +kernel, oddRaw_clean, by decide +kernel, oddRaw_crc⟩, by exact ⟨by decide +kernel, skipRaw_clean, by decide +kernel, skipRaw_crc⟩, ?_, ?_, ?_, ?_, ?_, ?_, ?_, ?_, ?_, ?_, ?_, ?_, ?_, ?_, ?_, ?_, ?_⟩ <;> (try dsimp only) <;> decide +kernel

theorem witness_LinkTrainingStates :
    ((fun (s : State) (g : Fin 16) => s.pgMode g = 2 ∧ s.lt g = 1 ∧ (s.linkEnd g).full = true)
      (((withLink awake 15 1).updEnd 15 fun e => { e with full := true })) 15) ∧
    ((fun (s : State) (g : Fin 16) => s.pgMode g = 2 ∧ ((s.lt g = 2 ∨ s.lt g = 4 ∨ s.lt g = 5))) ((withLink awake 15 2)) 15)
      ∧
    ((fun (s : State) (g : Fin 16) => s.pgMode g = 2 ∧ ((s.lt g = 2 ∨ s.lt g = 4 ∨ s.lt g = 5))) ((withLink awake 15 5)) 15)
      ∧
    ((fun (s : State) (g : Fin 16) => s.pgMode g = 2 ∧ ((s.lt g = 2 ∨ s.lt g = 4 ∨ s.lt g = 5))) ((withLink awake 15 4)) 15)
      ∧
    ((fun (s : State) (g : Fin 16) => s.lt g = 6) ((withLink awake 15 6)) 15) ∧
    ((fun (s : State) (g : Fin 16) => (s.lt g = 6 ∨ (s.linkEnd g).downAt = none))
      (((withLink awake 15 6).updEnd 15 fun e => { e with downAt := some 0 })) 15) ∧
    ((fun (s : State) (g : Fin 16) => (s.lt g = 6 ∨ (s.linkEnd g).downAt = none)) ((withLink awake 15 1)) 15) ∧
    ((fun (s : State) (g : Fin 16) (t : Nat) => (s.linkEnd g).downAt = some t ∧ s.gtc < t + s.rd (R.PG_LKCTL_DOWNLIM g) *
      1000000) (((withLink awake 15 1).updEnd 15 fun e => { e with downAt := some 1 })) 15 1) ∧
    ((fun (s : State) (g : Fin 16) (p : Path) (v : BitVec 32) => let retrain := (setFld v 31 31 1); Writable s p (R.PG_LKCTL
      g) retrain ∧ fld v 29 27 = fld (s.reg (R.PG_LKCTL g)) 29 27 ∧ s.pgMode g = 2 ∧ s.lt g = 6 ∧ v.getLsbD 30 = false)
      ((withLink awake 15 6)) 15 .bar 0x00CD0064) ∧
    ((fun (s : State) (g : Fin 16) (p : Path) (v : BitVec 32) => let reset := (setFld v 30 30 1); Writable s p (R.PG_LKCTL
      g) reset ∧ s.pgMode g = 2 ∧ s.rd (R.PG_SDCTL_MODE g) = 2)
      ((withLink (put awake (R.PG_SDCTL_MODE 15) 2) 15 6)) 15 .bar 0x00CD0064) ∧
    ((fun (s : State) (g : Fin 16) (p : Path) (v : BitVec 32) => let reset := (setFld v 30 30 1); Writable s p (R.PG_LKCTL
      g) reset ∧ s.pgMode g = 2 ∧ s.rd (R.PG_SDCTL_MODE g) = 2)
      ((withLink (put awake (R.PG_SDCTL_MODE 15) 2) 15 0)) 15 .bar 0x00CD0064) ∧
    ((fun (s : State) (g : Fin 16) (p : Path) (v : BitVec 32) => let reset := (setFld v 30 30 1); Writable s p (R.PG_LKCTL
      g) reset ∧ s.pgMode g = 1) ((withLane awake 15 1 0 3)) 15 .bar 0x00CD0064) ∧
    ((fun (s : State) (g : Fin 16) (p : Path) (v : BitVec 32) => let retrain := (setFld v 31 31 1); Writable s p (R.PG_LKCTL
      g) retrain ∧ s.pgMode g = 1 ∧ v.getLsbD 30 = false) ((withLane awake 15 1 0 3)) 15 .bar 0x00CD0064) := by
  refine ⟨?_, ?_, ?_, ?_, ?_, ?_, ?_, ?_, ?_, ?_, ?_, ?_, ?_⟩ <;> (try dsimp only) <;> decide +kernel

theorem witness_RingsTakeAndComplete :
    ((fun (s : State) (k : Fin 8) => let h := (s.rd (R.CR_SQ_SQHEAD k)); let tail := (s.rd (R.CR_CQ_CQTAIL k)); let d :=
      (s.slotBytes (0x410000 + k.val * 0x10000 + 128 * h)); let full := ((tail + 1) % 256 = s.rd (R.CR_CQ_CQHEAD k)); let
      may := (s.ringsOn = true ∧ s.flag (R.CR_CTL_EN k) = true ∧ h ≠ s.rd (R.CR_SQ_SQTAIL k) ∧ (s.ringOf k).cur = none ∧ ¬
      full ∧ (descFence d = true → ∀ j ∈ s.ring.jobs, j.src ≠ k.val)); may ∧ descStatus d = 0)
      (((put (awake.putSlot 0x410000 (desc 2 [(17, 16, 5)])) (R.CR_CTL_EN 0) 1).wr (R.CR_SQ_SQTAIL 0) 1)) 0) ∧
    ((fun (s : State) (k : Fin 8) => let h := (s.rd (R.CR_SQ_SQHEAD k)); let tail := (s.rd (R.CR_CQ_CQTAIL k)); let d :=
      (s.slotBytes (0x410000 + k.val * 0x10000 + 128 * h)); let full := ((tail + 1) % 256 = s.rd (R.CR_CQ_CQHEAD k)); let
      may := (s.ringsOn = true ∧ s.flag (R.CR_CTL_EN k) = true ∧ h ≠ s.rd (R.CR_SQ_SQTAIL k) ∧ (s.ringOf k).cur = none ∧ ¬
      full ∧ (descFence d = true → ∀ j ∈ s.ring.jobs, j.src ≠ k.val)); may ∧ descStatus d = 0)
      (((put (awake.putSlot 0x410000 (desc 32 [(17, 16, 5)])) (R.CR_CTL_EN 0) 1).wr (R.CR_SQ_SQTAIL 0) 1)) 0) ∧
    ((fun (s : State) (k : Fin 8) => let h := (s.rd (R.CR_SQ_SQHEAD k)); let tail := (s.rd (R.CR_CQ_CQTAIL k)); let d :=
      (s.slotBytes (0x410000 + k.val * 0x10000 + 128 * h)); let full := ((tail + 1) % 256 = s.rd (R.CR_CQ_CQHEAD k)); let
      may := (s.ringsOn = true ∧ s.flag (R.CR_CTL_EN k) = true ∧ h ≠ s.rd (R.CR_SQ_SQTAIL k) ∧ (s.ringOf k).cur = none ∧ ¬
      full ∧ (descFence d = true → ∀ j ∈ s.ring.jobs, j.src ≠ k.val)); may ∧ descStatus d ≠ 0)
      (((put (awake.putSlot 0x410000 (desc 153 [])) (R.CR_CTL_EN 0) 1).wr (R.CR_SQ_SQTAIL 0) 1)) 0) ∧
    ((fun (s : State) (k : Fin 8) => let h := (s.rd (R.CR_SQ_SQHEAD k)); let tail := (s.rd (R.CR_CQ_CQTAIL k)); let d :=
      (s.slotBytes (0x410000 + k.val * 0x10000 + 128 * h)); let full := ((tail + 1) % 256 = s.rd (R.CR_CQ_CQHEAD k)); let
      may := (s.ringsOn = true ∧ s.flag (R.CR_CTL_EN k) = true ∧ h ≠ s.rd (R.CR_SQ_SQTAIL k) ∧ (s.ringOf k).cur = none ∧ ¬
      full ∧ (descFence d = true → ∀ j ∈ s.ring.jobs, j.src ≠ k.val)); may ∧ descStatus d ≠ 0)
      (((put (awake.putSlot 0x410000 (desc 2 [(100, 99, 1)])) (R.CR_CTL_EN 0) 1).wr (R.CR_SQ_SQTAIL 0) 1)) 0) ∧
    ((fun (s : State) (k : Fin 8) => let h := (s.rd (R.CR_SQ_SQHEAD k)); let tail := (s.rd (R.CR_CQ_CQTAIL k)); let full :=
      ((tail + 1) % 256 = s.rd (R.CR_CQ_CQHEAD k)); (h = s.rd (R.CR_SQ_SQTAIL k) ∨ s.flag (R.CR_CTL_EN k) = false ∨ full))
      awake 0) ∧
    ((fun (s : State) (k : Fin 8) => let h := (s.rd (R.CR_SQ_SQHEAD k)); let tail := (s.rd (R.CR_CQ_CQTAIL k)); let full :=
      ((tail + 1) % 256 = s.rd (R.CR_CQ_CQHEAD k)); (h = s.rd (R.CR_SQ_SQTAIL k) ∨ s.flag (R.CR_CTL_EN k) = false ∨ full))
      awake 7) ∧
    ((fun (s : State) (k : Fin 8) (r : BitVec 1024) (irq : Bool) (rest : List (BitVec 1024 × Bool)) => let tail := (s.rd
      (R.CR_CQ_CQTAIL k)); let full := ((tail + 1) % 256 = s.rd (R.CR_CQ_CQHEAD k)); s.ringsOn = true ∧ ¬ full ∧ (s.ringOf
      k).due = (r, irq) :: rest)
      ((awake.updRing 0 fun r => { r with cur := some 2, due := [(5, true), (6, false)] })) 0 5 true ([(6, false)])) ∧
    ((fun (s : State) (k : Fin 8) (r : BitVec 1024) (irq : Bool) (rest : List (BitVec 1024 × Bool)) => let tail := (s.rd
      (R.CR_CQ_CQTAIL k)); let full := ((tail + 1) % 256 = s.rd (R.CR_CQ_CQHEAD k)); s.ringsOn = true ∧ ¬ full ∧ (s.ringOf
      k).due = (r, irq) :: rest)
      ((awake.updRing 0 fun r => { r with cur := some 2, due := [(setFld 5 63 56 3, true)] })) 0 (setFld 5 63 56 3) true ([]))
      ∧
    ((fun (s : State) (k : Fin 8) => let tail := (s.rd (R.CR_CQ_CQTAIL k)); let full := ((tail + 1) % 256 = s.rd
      (R.CR_CQ_CQHEAD k)); ((s.ringOf k).due = [] ∨ full)) awake 0) := by
  refine ⟨?_, ?_, ?_, ?_, ?_, ?_, ?_, ?_, ?_⟩ <;> (try dsimp only) <;> decide +kernel

theorem witness_ProgramDescriptors :
    ((fun (s : State) (k : Fin 8) (d : BitVec 1024) => Taken s k d ∧ descOp d = 0x0002)
      ((taken (withDom awake) (desc 2 [(17, 16, 5)]))) 0 ((desc 2 [(17, 16, 5)]))) ∧
    ((fun (s : State) (k : Fin 8) (d : BitVec 1024) => Taken s k d ∧ descOp d = 0x0002)
      ((taken awake (desc 2 [(17, 16, 16383)]))) 0 ((desc 2 [(17, 16, 16383)]))) ∧
    ((fun (s : State) (k : Fin 8) (d : BitVec 1024) => Taken s k d ∧ descOp d = 0x0001)
      ((taken awake (desc 1 [(17, 16, 5), (24, 24, 9)]))) 0 ((desc 1 [(17, 16, 5), (24, 24, 9)]))) ∧
    ((fun (s : State) (k : Fin 8) (d : BitVec 1024) (c : Nat) => let load := (descOp d = 0x0010 ∧ descBytes d 16 16 = c);
      let size := (descBytes d 23 20); Taken s k d ∧ load ∧ size % 4 = 0 ∧ 4 ≤ size ∧ size ≤ 262144 ∧ descBytes d 27 24 ≤
      516096 ∧ capBad s.stagedCap = false ∧ (s.gcore c).prog = 0 ∧ (s.gcore c).load = none ∧ s.coreSt c = 0)
      ((taken awake (desc 16 [(16, 16, 3), (23, 20, 4)]))) 0 ((desc 16 [(16, 16, 3), (23, 20, 4)])) 3) ∧
    ((fun (s : State) (k : Fin 8) (d : BitVec 1024) (c : Nat) => let load := (descOp d = 0x0010 ∧ descBytes d 16 16 = c);
      let size := (descBytes d 23 20); Taken s k d ∧ load ∧ size % 4 = 0 ∧ 4 ≤ size ∧ size ≤ 262144 ∧ descBytes d 27 24 ≤
      516096 ∧ capBad s.stagedCap = false ∧ (s.gcore c).prog = 0 ∧ (s.gcore c).load = none ∧ s.coreSt c = 0)
      ((taken awake (desc 16 [(16, 16, 7), (23, 20, 262144), (27, 24, 516096)]))) 0 ((desc 16 [(16, 16, 7), (23, 20, 262144), (27, 24, 516096)])) 7)
      ∧
    ((fun (s : State) (k : Fin 8) (d : BitVec 1024) (c : Nat) => let load := (descOp d = 0x0010 ∧ descBytes d 16 16 = c);
      let size := (descBytes d 23 20); Taken s k d ∧ load ∧ ((size % 4 ≠ 0 ∨ size < 4 ∨ 262144 < size)))
      ((taken awake (desc 16 [(16, 16, 3), (23, 20, 6)]))) 0 ((desc 16 [(16, 16, 3), (23, 20, 6)])) 3) ∧
    ((fun (s : State) (k : Fin 8) (d : BitVec 1024) (c : Nat) => let load := (descOp d = 0x0010 ∧ descBytes d 16 16 = c);
      let size := (descBytes d 23 20); Taken s k d ∧ load ∧ ((size % 4 ≠ 0 ∨ size < 4 ∨ 262144 < size)))
      ((taken awake (desc 16 [(16, 16, 3), (23, 20, 262148)]))) 0 ((desc 16 [(16, 16, 3), (23, 20, 262148)])) 3) ∧
    ((fun (s : State) (k : Fin 8) (d : BitVec 1024) (c : Nat) => let load := (descOp d = 0x0010 ∧ descBytes d 16 16 = c);
      let size := (descBytes d 23 20); Taken s k d ∧ load ∧ ((size % 4 ≠ 0 ∨ size < 4 ∨ 262144 < size)))
      ((taken awake (desc 16 [(16, 16, 3)]))) 0 ((desc 16 [(16, 16, 3)])) 3) ∧
    ((fun (s : State) (k : Fin 8) (d : BitVec 1024) (c : Nat) => let load := (descOp d = 0x0010 ∧ descBytes d 16 16 = c);
      let size := (descBytes d 23 20); Taken s k d ∧ load ∧ size % 4 = 0 ∧ 4 ≤ size ∧ size ≤ 262144 ∧ descBytes d 27 24 ≤
      516096 ∧ capBad s.stagedCap = false ∧ (s.gcore c).load.isSome = true)
      ((taken ((loaded awake 0 0).updCore 0 fun c => { c with load := some (0, 4, false, 0) }) (desc 16 [(16, 16, 0), (23, 20, 4)]))) 0 ((desc 16 [(16, 16, 0), (23, 20, 4)])) 0)
      ∧
    ((fun (s : State) (k : Fin 8) (d : BitVec 1024) (c : Nat) => let p := (descBytes d 17 16); let code := (descBytes d 18
      18); let of_ := (p ≠ 0 ∧ s.coreOf p = some c); Taken s k d ∧ descOp d = 0x0011 ∧ descBytes d 19 19 = 1 ∧ of_ ∧
      (s.gcore c).host = false ∧ 3 ≤ code ∧ code ≤ 11 ∧ (s.core.binds.filter fun b => b.prog == p).length < 16)
      ((taken awake (desc 17 [(17, 16, 4), (18, 18, 3), (19, 19, 1), (23, 20, 7)]))) 0 ((desc 17 [(17, 16, 4), (18, 18, 3), (19, 19, 1), (23, 20, 7)])) 8)
      ∧
    ((fun (s : State) (k : Fin 8) (d : BitVec 1024) (c : Nat) => let p := (descBytes d 17 16); let code := (descBytes d 18
      18); let of_ := (p ≠ 0 ∧ s.coreOf p = some c); Taken s k d ∧ descOp d = 0x0011 ∧ descBytes d 19 19 = 1 ∧ of_ ∧
      (s.gcore c).host = false ∧ 3 ≤ code ∧ code ≤ 11 ∧ (s.core.binds.filter fun b => b.prog == p).length < 16)
      ((taken awake (desc 17 [(17, 16, 5), (18, 18, 11), (19, 19, 1), (23, 20, 7)]))) 0 ((desc 17 [(17, 16, 5), (18, 18, 11), (19, 19, 1), (23, 20, 7)])) 8)
      ∧
    ((fun (s : State) (k : Fin 8) (d : BitVec 1024) (c : Nat) => let p := (descBytes d 17 16); let code := (descBytes d 18
      18); let of_ := (p ≠ 0 ∧ s.coreOf p = some c); Taken s k d ∧ descOp d = 0x0011 ∧ descBytes d 19 19 = 0 ∧ of_ ∧ 3 ≤
      code ∧ code ≤ 11) ((taken awake (desc 17 [(17, 16, 5), (18, 18, 3)]))) 0 ((desc 17 [(17, 16, 5), (18, 18, 3)])) 8) ∧
    ((fun (s : State) (k : Fin 8) (d : BitVec 1024) (c : Nat) => let p := (descBytes d 17 16); let code := (descBytes d 18
      18); let of_ := (p ≠ 0 ∧ s.coreOf p = some c); Taken s k d ∧ descOp d = 0x0011 ∧ descBytes d 19 19 = 0 ∧ of_ ∧ 3 ≤
      code ∧ code ≤ 11)
      ((taken (loaded awake 0 0) (desc 17 [(17, 16, 32768), (18, 18, 11)]))) 0 ((desc 17 [(17, 16, 32768), (18, 18, 11)])) 0)
      ∧
    ((fun (s : State) (k : Fin 8) (d : BitVec 1024) (c : Nat) => let p := (descBytes d 17 16); let ctl := (fun (a : Nat) =>
      descOp d = 0x0012 ∧ descBytes d 18 18 = a); let of_ := (p ≠ 0 ∧ s.coreOf p = some c); let at_ := (fun (st : Nat) =>
      of_ ∧ s.coreSt c = st); Taken s k d ∧ ctl 0 ∧ at_ 0)
      ((taken (loaded awake 0 0) (desc 18 [(17, 16, 32768), (18, 18, 0)]))) 0 ((desc 18 [(17, 16, 32768), (18, 18, 0)])) 0)
      ∧
    ((fun (s : State) (k : Fin 8) (d : BitVec 1024) (c : Nat) => let p := (descBytes d 17 16); let ctl := (fun (a : Nat) =>
      descOp d = 0x0012 ∧ descBytes d 18 18 = a); let of_ := (p ≠ 0 ∧ s.coreOf p = some c); let at_ := (fun (st : Nat) =>
      of_ ∧ s.coreSt c = st); Taken s k d ∧ ctl 1 ∧ at_ 3)
      ((taken (loaded awake 0 3) (desc 18 [(17, 16, 32768), (18, 18, 1)]))) 0 ((desc 18 [(17, 16, 32768), (18, 18, 1)])) 0)
      ∧
    ((fun (s : State) (k : Fin 8) (d : BitVec 1024) (c : Nat) => let p := (descBytes d 17 16); let ctl := (fun (a : Nat) =>
      descOp d = 0x0012 ∧ descBytes d 18 18 = a); let of_ := (p ≠ 0 ∧ s.coreOf p = some c); let at_ := (fun (st : Nat) =>
      of_ ∧ s.coreSt c = st); Taken s k d ∧ ctl 1 ∧ at_ 3)
      ((taken ((loaded awake 0 3).updCore 0 fun c => { c with run := 0x8000, pc := 4 }) (desc 18 [(17, 16, 32768), (18, 18, 1)]))) 0 ((desc 18 [(17, 16, 32768), (18, 18, 1)])) 0)
      ∧
    ((fun (s : State) (k : Fin 8) (d : BitVec 1024) (c : Nat) => let p := (descBytes d 17 16); let ctl := (fun (a : Nat) =>
      descOp d = 0x0012 ∧ descBytes d 18 18 = a); let of_ := (p ≠ 0 ∧ s.coreOf p = some c); let at_ := (fun (st : Nat) =>
      of_ ∧ s.coreSt c = st); Taken s k d ∧ ctl 1 ∧ at_ 0)
      ((taken (loaded awake 0 0) (desc 18 [(17, 16, 32768), (18, 18, 1)]))) 0 ((desc 18 [(17, 16, 32768), (18, 18, 1)])) 0)
      ∧
    ((fun (s : State) (k : Fin 8) (d : BitVec 1024) (c : Nat) => let p := (descBytes d 17 16); let ctl := (fun (a : Nat) =>
      descOp d = 0x0012 ∧ descBytes d 18 18 = a); let of_ := (p ≠ 0 ∧ s.coreOf p = some c); let at_ := (fun (st : Nat) =>
      of_ ∧ s.coreSt c = st); Taken s k d ∧ ctl 2 ∧ at_ 2 ∧ (s.gcore c).run = p)
      ((taken ((loaded awake 0 2).updCore 0 fun c => { c with run := 0x8000 }) (desc 18 [(17, 16, 32768), (18, 18, 2)]))) 0 ((desc 18 [(17, 16, 32768), (18, 18, 2)])) 0)
      ∧
    ((fun (s : State) (k : Fin 8) (d : BitVec 1024) (c : Nat) => let p := (descBytes d 17 16); let ctl := (fun (a : Nat) =>
      descOp d = 0x0012 ∧ descBytes d 18 18 = a); let of_ := (p ≠ 0 ∧ s.coreOf p = some c); let at_ := (fun (st : Nat) =>
      of_ ∧ s.coreSt c = st); Taken s k d ∧ ctl 3 ∧ at_ 4 ∧ (s.gcore c).stopped = false)
      ((taken (loaded awake 0 4) (desc 18 [(17, 16, 32768), (18, 18, 3)]))) 0 ((desc 18 [(17, 16, 32768), (18, 18, 3)])) 0)
      ∧
    ((fun (s : State) (k : Fin 8) (d : BitVec 1024) (c : Nat) => let p := (descBytes d 17 16); let ctl := (fun (a : Nat) =>
      descOp d = 0x0012 ∧ descBytes d 18 18 = a); let of_ := (p ≠ 0 ∧ s.coreOf p = some c); let at_ := (fun (st : Nat) =>
      of_ ∧ s.coreSt c = st); Taken s k d ∧ ctl 3 ∧ at_ 4 ∧ (s.gcore c).stopped = true)
      ((taken ((loaded awake 0 4).updCore 0 fun c => { c with stopped := true }) (desc 18 [(17, 16, 32768), (18, 18, 3)]))) 0 ((desc 18 [(17, 16, 32768), (18, 18, 3)])) 0)
      ∧
    ((fun (s : State) (k : Fin 8) (d : BitVec 1024) (c : Nat) => let p := (descBytes d 17 16); let ctl := (fun (a : Nat) =>
      descOp d = 0x0012 ∧ descBytes d 18 18 = a); let of_ := (p ≠ 0 ∧ s.coreOf p = some c); let at_ := (fun (st : Nat) =>
      of_ ∧ s.coreSt c = st); Taken s k d ∧ ctl 4 ∧ at_ 0)
      ((taken (loaded awake 7 0) (desc 18 [(17, 16, 32768), (18, 18, 4)]))) 0 ((desc 18 [(17, 16, 32768), (18, 18, 4)])) 7)
      ∧
    ((fun (s : State) (k : Fin 8) (d : BitVec 1024) (c : Nat) => let p := (descBytes d 17 16); let ctl := (fun (a : Nat) =>
      descOp d = 0x0012 ∧ descBytes d 18 18 = a); let of_ := (p ≠ 0 ∧ s.coreOf p = some c); let at_ := (fun (st : Nat) =>
      of_ ∧ s.coreSt c = st); Taken s k d ∧ ctl 5 ∧ at_ 0 ∧ (s.core.binds.any fun b => b.prog == p && b.code == 0x0B) = true
      ∧ s.core.pend = [])
      ((taken ({ (loaded awake 0 0) with core := { ((loaded awake 0 0)).core with binds := [{ prog := 0x8000, code := 0x0B, period := 0, next := 0 }] } } : State) (desc 18 [(17, 16, 32768), (18, 18, 5), (31, 24, 77)]))) 0 ((desc 18 [(17, 16, 32768), (18, 18, 5), (31, 24, 77)])) 0)
      ∧
    ((fun (s : State) (k : Fin 8) (d : BitVec 1024) => let p := (descBytes d 17 16); Taken s k d ∧ s.coreOf p = none)
      ((taken awake (desc 18 [(17, 16, 32768), (18, 18, 0)]))) 0 ((desc 18 [(17, 16, 32768), (18, 18, 0)]))) ∧
    ((fun (s : State) (k : Fin 8) (d : BitVec 1024) => let p := (descBytes d 17 16); Taken s k d ∧ s.coreOf p = none)
      ((taken awake (desc 18 [(17, 16, 0), (18, 18, 4)]))) 0 ((desc 18 [(17, 16, 0), (18, 18, 4)]))) ∧
    ((fun (s : State) (k : Fin 8) (d : BitVec 1024) => Taken s k d)
      ((taken awake (desc 19 [(17, 16, 2), (18, 18, 3), (31, 24, 50)]))) 0 ((desc 19 [(17, 16, 2), (18, 18, 3), (31, 24, 50)])))
      ∧
    ((fun (s : State) (k : Fin 8) (d : BitVec 1024) => let p := (descBytes d 17 16); let code := (descBytes d 18 18); Taken
      s k d ∧ descOp d = 0x0013 ∧ p = 2 ∧ code = 3 ∧ 100 < descBytes d 31 24)
      ((taken awake (desc 19 [(17, 16, 2), (18, 18, 3), (31, 24, 101)]))) 0 ((desc 19 [(17, 16, 2), (18, 18, 3), (31, 24, 101)]))) := by
  refine ⟨?_, ?_, ?_, ?_, ?_, ?_, ?_, ?_, ?_, ?_, ?_, ?_, ?_, ?_, ?_, ?_, ?_, ?_, ?_, ?_, ?_, ?_, ?_, ?_, ?_, ?_⟩ <;> (try dsimp only) <;> decide +kernel

theorem witness_JobDescriptors :
    ((fun (s : State) (k : Fin 8) (d : BitVec 1024) => let e := (s.entry (descBytes d 17 16)); let free := (s.ring.jobs =
      []); Taken s k d ∧ descOp d = 0x0020 ∧ e.valid = true ∧ s.memberHere e = true ∧ free)
      ((taken (withDom awake) (desc 32 [(17, 16, 5)]))) 0 ((desc 32 [(17, 16, 5)]))) ∧
    ((fun (s : State) (k : Fin 8) (d : BitVec 1024) => let e := (s.entry (descBytes d 17 16)); Taken s k d ∧ descOp d =
      0x0020 ∧ e.valid = false) ((taken (withDom awake) (desc 32 [(17, 16, 6)]))) 0 ((desc 32 [(17, 16, 6)]))) ∧
    ((fun (s : State) (k : Fin 8) (d : BitVec 1024) => let e := (s.entry (descBytes d 17 16)); let free := (s.ring.jobs =
      []); Taken s k d ∧ descOp d = 0x0021 ∧ e.valid = true ∧ s.memberHere e = true ∧ descBytes d 19 19 = 15 ∧ descBytes d
      31 24 + descBytes d 35 32 ≤ e.pages ∧ free)
      ((taken (withDom awake) (desc 33 [(17, 16, 5), (19, 19, 15), (35, 32, 512)]))) 0 ((desc 33 [(17, 16, 5), (19, 19, 15), (35, 32, 512)])))
      ∧
    ((fun (s : State) (k : Fin 8) (d : BitVec 1024) => let e := (s.entry (descBytes d 17 16)); let free := (s.ring.jobs =
      []); Taken s k d ∧ descOp d = 0x0021 ∧ e.valid = true ∧ s.memberHere e = true ∧ descBytes d 19 19 = 15 ∧ descBytes d
      31 24 + descBytes d 35 32 ≤ e.pages ∧ free)
      ((taken (withDom awake) (desc 33 [(17, 16, 5), (19, 19, 15), (31, 24, 7), (35, 32, 3)]))) 0 ((desc 33 [(17, 16, 5), (19, 19, 15), (31, 24, 7), (35, 32, 3)])))
      ∧
    ((fun (s : State) (k : Fin 8) (d : BitVec 1024) => let e := (s.entry (descBytes d 17 16)); Taken s k d ∧ descOp d =
      0x0021 ∧ e.valid = false) ((taken (withDom awake) (desc 33 [(17, 16, 6)]))) 0 ((desc 33 [(17, 16, 6)]))) ∧
    ((fun (s : State) (k : Fin 8) (d : BitVec 1024) => let free := (s.ring.jobs = []); Taken s k d ∧ descOp d = 0x0022 ∧
      free) ((taken awake (desc 34 [(17, 16, 3), (20, 20, 4)]))) 0 ((desc 34 [(17, 16, 3), (20, 20, 4)]))) ∧
    ((fun (s : State) (k : Fin 8) (d : BitVec 1024) => let free := (s.ring.jobs = []); Taken s k d ∧ descOp d = 0x0022 ∧
      free) ((taken awake (desc 34 [(17, 16, 15)]))) 0 ((desc 34 [(17, 16, 15)]))) ∧
    ((fun (s : State) (k : Fin 8) (d : BitVec 1024) => Taken s k d ∧ descOp d = 0x0022 ∧ 64 ≤ s.ring.jobs.length ∧ ((∀ j ∈
      s.ring.jobs, j.op ≠ 0x23)))
      ((taken ({ awake with ring := { awake.ring with jobs := List.replicate 64 (default : Job) } } : State) (desc 34 [(17, 16, 3)]))) 0 ((desc 34 [(17, 16, 3)])))
      ∧
    ((fun (s : State) (k : Fin 8) (d : BitVec 1024) => let free := (s.ring.jobs = []); let open_ := ((s.entry (descBytes d
      19 18)).rdPorts ≠ 0 ∨ (s.entry (descBytes d 19 18)).wrPorts ≠ 0); Taken s k d ∧ descOp d = 0x0023 ∧ descBytes d 16 16
      = 0 ∧ (s.entry (descBytes d 19 18)).valid = true ∧ open_ ∧ free)
      ((taken (withDom awake) (desc 35 [(19, 18, 5)]))) 0 ((desc 35 [(19, 18, 5)]))) ∧
    ((fun (s : State) (k : Fin 8) (d : BitVec 1024) => Taken s k d ∧ descOp d = 0x0023)
      ((taken (withDom awake) (desc 35 [(19, 18, 5)]))) 0 ((desc 35 [(19, 18, 5)]))) ∧
    ((fun (s : State) (k : Fin 8) (d : BitVec 1024) => Taken s k d ∧ descOp d = 0x0023)
      ((taken awake (desc 35 [(16, 16, 1)]))) 0 ((desc 35 [(16, 16, 1)]))) ∧
    ((fun (s : State) (k : Fin 8) (d : BitVec 1024) => Taken s k d ∧ descOp d = 0x0023)
      ((taken (awake.setEntry 5 (setFld (setFld plainDom 287 256 0) 319 288 0)) (desc 35 [(16, 16, 2)]))) 0 ((desc 35 [(16, 16, 2)])))
      ∧
    ((fun (s : State) (k : Fin 8) (d : BitVec 1024) => let e := (s.entry (descBytes d 17 16)); Taken s k d ∧ descOp d =
      0x0024 ∧ e.valid = false) ((taken (withDom awake) (desc 36 [(17, 16, 6)]))) 0 ((desc 36 [(17, 16, 6)]))) ∧
    ((fun (s : State) (k : Fin 8) (d : BitVec 1024) => let e := (s.entry (descBytes d 17 16)); Taken s k d ∧ descOp d =
      0x0024 ∧ e.valid = true ∧ ((e.rdPorts ≠ 0 ∨ e.wrPorts ≠ 0)))
      ((taken (withDom awake) (desc 36 [(17, 16, 5)]))) 0 ((desc 36 [(17, 16, 5)]))) ∧
    ((fun (s : State) (k : Fin 8) (d : BitVec 1024) (j : Job) => let id := (descBytes d 19 16); let ctl := (fun (a : Nat) =>
      descOp d = 0x0030 ∧ descBytes d 20 20 = a); Taken s k d ∧ s.job id = some j ∧ ctl 0 ∧ j.st = 0 ∧ j.op ≠ 0x23 ∧ j.hold
      = false ∧ j.stop = false)
      ((taken (withJob awake 32 0) (desc 48 [(19, 16, 5), (20, 20, 0)]))) 0 ((desc 48 [(19, 16, 5), (20, 20, 0)])) (({ (default : Job) with id := 5, op := 32, st := 0, dom := 5 } : Job)))
      ∧
    ((fun (s : State) (k : Fin 8) (d : BitVec 1024) (j : Job) => let id := (descBytes d 19 16); let ctl := (fun (a : Nat) =>
      descOp d = 0x0030 ∧ descBytes d 20 20 = a); Taken s k d ∧ s.job id = some j ∧ ctl 0 ∧ j.st = 1 ∧ j.op ≠ 0x23 ∧ j.op ≠
      0x20 ∧ j.hold = false ∧ j.stop = false)
      ((taken (withJob awake 33 1) (desc 48 [(19, 16, 5), (20, 20, 0)]))) 0 ((desc 48 [(19, 16, 5), (20, 20, 0)])) (({ (default : Job) with id := 5, op := 33, st := 1, dom := 5 } : Job)))
      ∧
    ((fun (s : State) (k : Fin 8) (d : BitVec 1024) (j : Job) => let id := (descBytes d 19 16); let ctl := (fun (a : Nat) =>
      descOp d = 0x0030 ∧ descBytes d 20 20 = a); Taken s k d ∧ s.job id = some j ∧ ctl 0 ∧ j.st ≠ 3 ∧ j.op = 0x23)
      ((taken (withJob awake 35 1) (desc 48 [(19, 16, 5), (20, 20, 0)]))) 0 ((desc 48 [(19, 16, 5), (20, 20, 0)])) (({ (default : Job) with id := 5, op := 35, st := 1, dom := 5 } : Job)))
      ∧
    ((fun (s : State) (k : Fin 8) (d : BitVec 1024) (j : Job) => let id := (descBytes d 19 16); let ctl := (fun (a : Nat) =>
      descOp d = 0x0030 ∧ descBytes d 20 20 = a); Taken s k d ∧ s.job id = some j ∧ ctl 1 ∧ j.st = 2 ∧ j.hold = false ∧ j.op
      ≠ 0x20)
      ((taken (withJob awake 33 2) (desc 48 [(19, 16, 5), (20, 20, 1)]))) 0 ((desc 48 [(19, 16, 5), (20, 20, 1)])) (({ (default : Job) with id := 5, op := 33, st := 2, dom := 5 } : Job)))
      ∧
    ((fun (s : State) (k : Fin 8) (d : BitVec 1024) (j : Job) => let id := (descBytes d 19 16); let ctl := (fun (a : Nat) =>
      descOp d = 0x0030 ∧ descBytes d 20 20 = a); Taken s k d ∧ s.job id = some j ∧ ctl 2 ∧ j.st = 1 ∧ j.op = 0x21 ∧ j.stop
      = false ∧ s.tier.migs = [])
      ((taken (withJob awake 33 1) (desc 48 [(19, 16, 5), (20, 20, 2)]))) 0 ((desc 48 [(19, 16, 5), (20, 20, 2)])) (({ (default : Job) with id := 5, op := 33, st := 1, dom := 5 } : Job)))
      ∧
    ((fun (s : State) (k : Fin 8) (d : BitVec 1024) => let id := (descBytes d 19 16); Taken s k d ∧ s.anyJob id = none)
      ((taken (withJob awake 33 1) (desc 48 [(19, 16, 9), (20, 20, 0)]))) 0 ((desc 48 [(19, 16, 9), (20, 20, 0)]))) ∧
    ((fun (s : State) (k : Fin 8) (d : BitVec 1024) => let id := (descBytes d 19 16); Taken s k d ∧ s.anyJob id = none)
      ((taken (withJob awake 33 1) (desc 49 [(19, 16, 9)]))) 0 ((desc 49 [(19, 16, 9)]))) ∧
    ((fun (s : State) (k : Fin 8) (d : BitVec 1024) (j : Job) => let id := (descBytes d 19 16); Taken s k d ∧ s.anyJob id =
      some j ∧ descOp d = 0x0031)
      ((taken (withJob awake 33 1) (desc 49 [(19, 16, 5)]))) 0 ((desc 49 [(19, 16, 5)])) (({ (default : Job) with id := 5, op := 33, st := 1, dom := 5 } : Job)))
      ∧
    ((fun (s : State) (k : Fin 8) (d : BitVec 1024) (job : BitVec 32) (j : Job) => Taken s k d ∧ s.ring.jobs = [j] ∧ j.id =
      job.toNat ∧ j.op = 0x20 ∧ j.st = 0)
      ((taken (withJob awake 32 0) 2)) 0 2 5 (({ (default : Job) with id := 5, op := 32, st := 0, dom := 5 } : Job))) ∧
    ((fun (s : State) (k : Fin 8) (d : BitVec 1024) (job : BitVec 32) => Taken s k d ∧ s.job job.toNat = none)
      ((taken (withJob awake 32 0) 2)) 0 2 9) ∧
    ((fun (s : State) (k : Fin 8) (d : BitVec 1024) (job : BitVec 32) (j : Job) => Taken s k d ∧ s.ring.jobs = [j] ∧ j.id =
      job.toNat ∧ j.op = 0x20 ∧ j.st = 1 ∧ j.cur < j.last ∧ s.serving = true ∧ j.cur % 4 ≠ 0 ∧ (s.page ((s.entry
      j.dom).mapKey ((s.pageDpa (s.entry j.dom) (j.cur / 4) / 1024 + j.cur % 4) * 1024))).state = 0)
      ((taken ((withJob (withDom awake) 32 1).updJob 5 fun j => { j with cur := 1, last := 8 }) 2)) 0 2 5 (({ (default : Job) with id := 5, op := 32, st := 1, dom := 5, cur := 1, last := 8 } : Job))) := by
  refine ⟨?_, ?_, ?_, ?_, ?_, ?_, ?_, ?_, ?_, ?_, ?_, ?_, ?_, ?_, ?_, ?_, ?_, ?_, ?_, ?_, ?_, ?_, ?_, ?_, ?_⟩ <;> (try dsimp only) <;> decide +kernel

theorem witness_FaultBlockCommands :
    ((fun (s : State) => let alive := (s.flag R.CF_STAT_DEVLOST = false); alive) awake) ∧
    ((fun (s : State) (p : Path) (v : BitVec 32) => let alive := (s.flag R.CF_STAT_DEVLOST = false); Writable s p R.CF_CTL
      (setFld v 30 30 1) ∧ alive ∧ v.getLsbD 31 = false) awake .bar 0) ∧
    ((fun (s : State) (p : Path) (v : BitVec 32) => let alive := (s.flag R.CF_STAT_DEVLOST = false); Writable s p R.CF_CTL
      (setFld v 30 30 1) ∧ alive ∧ v.getLsbD 31 = false) awake .bar 0x07000000) ∧
    ((fun (s : State) (p : Path) (v : BitVec 32) => Writable s p R.CF_CTL (setFld v 31 31 1) ∧ v.getLsbD 30 = false ∧ fld v
      27 24 ≠ s.devNum ∧ s.coh = State.reset.coh ∧ s.link.preqs = []) awake .bar 0x0F000000) ∧
    ((fun (s : State) (p : Path) (v : BitVec 32) => Writable s p R.CF_CTL (setFld v 31 31 1) ∧ v.getLsbD 30 = false ∧ fld v
      27 24 ≠ s.devNum ∧ s.coh = State.reset.coh ∧ s.link.preqs = []) awake .bar 0x85000000) ∧
    ((fun (s : State) => let alive := (s.flag R.CF_STAT_DEVLOST = false); s.boot.hold = false ∧ s.boot.supplies = true ∧
      s.rd R.PS_STAT_STATE ≠ 3 ∧ alive) awake) ∧
    ((fun (s : State) => (s.boot.hold = true ∨ s.boot.supplies = false ∨ s.rd R.PS_STAT_STATE = 3)) held) ∧
    ((fun (s : State) => (s.boot.hold = true ∨ s.boot.supplies = false ∨ s.rd R.PS_STAT_STATE = 3))
      ((put awake R.PS_STAT_STATE 3))) ∧
    ((fun (s : State) => let alive := (s.flag R.CF_STAT_DEVLOST = false); ¬ alive)
      ((put (put awake R.CF_STAT_DEVLOST 1) R.CF_STAT_CAUSE 4))) ∧
    ((fun (s : State) (p : Path) => let idx := (s.rd R.CF_RECIDX_IDX); Reachable s p ∧ idx < s.rd R.CF_NEXT_NEXT)
      ((put ({ (put awake R.CF_NEXT_NEXT 3) with flt := { awake.flt with ring := [{ index := 2, type := 5 }, { index := 1, type := 7, unread := true }] } } : State) R.CF_RECIDX_IDX 1)) .bar)
      ∧
    ((fun (s : State) (p : Path) => let idx := (s.rd R.CF_RECIDX_IDX); Reachable s p ∧ idx < s.rd R.CF_NEXT_NEXT)
      (({ (put awake R.CF_NEXT_NEXT 3) with flt := { awake.flt with ring := [{ index := 2, type := 5 }, { index := 1, type := 7, unread := true }] } } : State)) .bar) := by
  refine ⟨?_, ?_, ?_, ?_, ?_, ?_, ?_, ?_, ?_, ?_, ?_⟩ <;> (try dsimp only) <;> decide +kernel

theorem witness_HostPortCommands :
    ((fun (s : State) (port : Fin 32) => let x := (s.place port); x.on = true)
      (((withPort awake 5).updHead 5 fun h => { h with mbx := true, tolScale := 3, bg := some 5 })) 5) ∧
    ((fun (s : State) (port : Fin 32) => let x := (s.place port); x.on = true) (((withPort awake 31).updHead 31 id)) 31) ∧
    ((fun (s : State) (port : Fin 32) => let x := (s.place port); x.on = true ∧ s.cxlWidth x.group = 1 ∧ s.flag
      (R.PG_CXLCFG_HRSCOPE x.group) = false)
      (((fun (s : State) => ({ s with lane := { s.lane with cfg := s.lane.cfg.put 2 0x40000000, mode := s.lane.mode.put 2 1 } } : State)) ((withPort (withPort awake 5) 4).updHead 5 id))) 5)
      ∧
    ((fun (s : State) (port : Fin 32) => let x := (s.place port); x.on = true ∧ s.cxlWidth x.group = 1 ∧ s.flag
      (R.PG_CXLCFG_HRSCOPE x.group) = false)
      (((fun (s : State) => ({ s with lane := { s.lane with cfg := s.lane.cfg.put 2 0x40000000, mode := s.lane.mode.put 2 1 } } : State)) ((withPort (withPort awake 4) 5).updHead 4 fun h => { h with mbx := true, ide := 1, dec := ⟨[(2, { (default : HdmDecoder) with committed := true })]⟩ }))) 4)
      ∧
    ((fun (s : State) (port : Fin 32) => let x := (s.place port); x.on = true ∧ s.flag (R.PG_CXLCFG_HRSCOPE x.group) = true)
      ((put ((withPort awake 5).updHead 5 id) (R.PG_CXLCFG_HRSCOPE 2) 1)) 5) ∧
    ((fun (s : State) (port : Fin 32) => let x := (s.place port); x.on = false) awake 5) ∧
    ((fun (s : State) (p : Path) (g : Fin 16) (v : BitVec 32) => Writable s p (R.PG_CXLCFG g) (setFld v 16 16 1) ∧ s.rd
      (R.PG_SDCTL_MODE g) = 1) ((put awake (R.PG_SDCTL_MODE 7) 1)) .bar 7 0x500) ∧
    ((fun (s : State) (p : Path) (g : Fin 16) (v : BitVec 32) => Writable s p (R.PG_CXLCFG g) (setFld v 16 16 1) ∧ s.rd
      (R.PG_SDCTL_MODE g) = 1)
      ((put (withPort (put awake (R.PG_SDCTL_MODE 7) 1) 14) (R.PG_LN_STAT_STATE 7 3) 3)) .bar 7 0x500) ∧
    ((fun (s : State) (port : Fin 32) (big : Bool) (rate : Fin 6) => let x := (s.place port); s.flag R.CF_STAT_DEVLOST =
      false ∧ x.on = true ∧ x.wide = false ∧ s.portCfgError x.group = false ∧ s.cxlWidth x.group = 0 ∧ ((∃ l, l < 8 ∧
      s.laneSt x.group l = 3)) ∧ rate.val ≤ s.rd (R.PG_SDCTL_RATE x.group) ∧ ((big = true → rate = 5)) ∧ s.coh.biOut = [] ∧
      s.coh.biWait = []) ((put (withPort awake 5) (R.PG_SDCTL_RATE 2) 5).wr (R.PG_LN_STAT_STATE 2 7) 3) 5 false 3) ∧
    ((fun (s : State) (port : Fin 32) (big : Bool) (rate : Fin 6) => let x := (s.place port); s.flag R.CF_STAT_DEVLOST =
      false ∧ x.on = true ∧ x.wide = false ∧ s.portCfgError x.group = false ∧ s.cxlWidth x.group = 0 ∧ ((∃ l, l < 8 ∧
      s.laneSt x.group l = 3)) ∧ rate.val ≤ s.rd (R.PG_SDCTL_RATE x.group) ∧ ((big = true → rate = 5)) ∧ s.coh.biOut = [] ∧
      s.coh.biWait = []) ((put (withPort awake 5) (R.PG_SDCTL_RATE 2) 5).wr (R.PG_LN_STAT_STATE 2 0) 3) 5 true 5) ∧
    ((fun (s : State) (port : Fin 32) => s.portOpen port = true) (((withPort awake 5).updHead 5 id)) 5) ∧
    ((fun (s : State) (port : Fin 32) => let h := (s.head port); s.portOpen port = true ∧ h.ltrSent = false)
      (((withPort awake 5).updHead 5 id)) 5) ∧
    ((fun (s : State) (port : Fin 32) => let h := (s.head port); h.ltrSent = true)
      (((withPort awake 5).updHead 5 fun h => { h with ltrSent := true })) 5) ∧
    ((fun (s : State) (port : Fin 32) => let h := (s.head port); h.ide = 1 ∧ s.flag R.CF_STAT_DEVLOST = false)
      (((withPort awake 5).updHead 5 fun h => { h with ide := 1 })) 5) ∧
    ((fun (s : State) (port : Fin 32) => let h := (s.head port); h.ide ≠ 1) (((withPort awake 5).updHead 5 id)) 5) ∧
    ((fun (s : State) (port : Fin 32) => let h := (s.head port); h.ide ≠ 1)
      (((withPort awake 5).updHead 5 fun h => { h with ide := 2 })) 5) ∧
    ((fun (s : State) (port : Fin 32) (dec : Fin 16) => let h := (s.head port); let awake := ((s.rd R.PS_STAT_STATE = 0 ∧
      s.pow.target = none) ∧ h.l1 = false); s.portOpen port = true ∧ awake ∧ (h.dec.get dec).lock = false)
      (((withPort awake 5).updHead 5 id)) 5 3) ∧
    ((fun (s : State) (port : Fin 32) (dec : Fin 16) => let h := (s.head port); let awake := ((s.rd R.PS_STAT_STATE = 0 ∧
      s.pow.target = none) ∧ h.l1 = false); s.portOpen port = true ∧ awake ∧ (h.dec.get dec).lock = false)
      (((withPort awake 5).updHead 5 id)) 5 15) ∧
    ((fun (s : State) (port : Fin 32) (dec : Fin 16) => let h := (s.head port); (h.dec.get dec).committed = true ∧
      (h.dec.get dec).lock = true)
      (((withPort awake 5).updHead 5 fun h => { h with dec := ⟨[(3, { (default : HdmDecoder) with committed := true, lock := true })]⟩ })) 5 3)
      ∧
    ((fun (s : State) (port : Fin 32) => let h := (s.head port); let awake := ((s.rd R.PS_STAT_STATE = 0 ∧ s.pow.target =
      none) ∧ h.l1 = false); s.portOpen port = true ∧ awake ∧ s.coh.biWait = []) (((withPort awake 5).updHead 5 id)) 5) := by
  refine ⟨?_, ?_, ?_, ?_, ?_, ?_, ?_, ?_, ?_, ?_, ?_, ?_, ?_, ?_, ?_, ?_, ?_, ?_, ?_, ?_⟩ <;> (try dsimp only) <;> decide +kernel

theorem witness_MailboxReads :
    ((fun (s : State) (p : Fin 32) => MailboxOpen s p)
      ((put ((withPort (withDom awake) 5).updHead 5 id) (R.PG_CXLCFG_MBXEN 2) 1)) 5) ∧
    ((fun (s : State) (p : Fin 32) => MailboxOpen s p)
      ((put ((withPort awake 31).updHead 31 id) (R.PG_CXLCFG_MBXEN 15) 1)) 31) ∧
    ((fun (s : State) (p : Fin 32) => MailboxOpen s p)
      ((put ((withPort ({ (put awake R.CF_NEXT_NEXT 3) with flt := { awake.flt with ring := [{ index := 2, type := 5 }, { index := 1, type := 7, unread := true }] } } : State) 5).updHead 5 id) (R.PG_CXLCFG_MBXEN 2) 1)) 5)
      ∧
    ((fun (s : State) (p : Fin 32) => MailboxOpen s p) ((put ((withPort awake 5).updHead 5 id) (R.PG_CXLCFG_MBXEN 2) 1)) 5)
      ∧
    ((fun (s : State) (p : Fin 32) (job : BitVec 32) (j : Job) => MailboxOpen s p ∧ s.anyJob job.toNat = some j)
      ((put ((withPort (withJob awake 32 1) 5).updHead 5 id) (R.PG_CXLCFG_MBXEN 2) 1)) 5 5 (({ (default : Job) with id := 5, op := 32, st := 1, dom := 5 } : Job)))
      ∧
    ((fun (s : State) (p : Fin 32) (job : BitVec 32) => MailboxOpen s p ∧ s.anyJob job.toNat = none)
      ((put ((withPort awake 5).updHead 5 id) (R.PG_CXLCFG_MBXEN 2) 1)) 5 5) ∧
    ((fun (s : State) (p : Fin 32) => MailboxOpen s p ∧ s.flag R.CF_STAT_DEVLOST = false)
      ((put ((withPort awake 5).updHead 5 id) (R.PG_CXLCFG_MBXEN 2) 1)) 5) ∧
    ((fun (s : State) (p : Fin 32) => DoeOpen s p ∧ (s.head p).bg.isSome = true ∧ s.flag (R.PG_CXLCFG_MBXEN (s.place
      p).group) = true)
      ((put ((withPort awake 5).updHead 5 fun h => { h with bg := some 0xC000 }) (R.PG_CXLCFG_MBXEN 2) 1)) 5) ∧
    ((fun (s : State) (p : Fin 32) => DoeOpen s p ∧ s.flag (R.PG_CXLCFG_MBXEN (s.place p).group) = false)
      ((put ((withPort awake 5).updHead 5 id) (R.PG_CXLCFG_MBXEN 2) 0)) 5) := by
  refine ⟨?_, ?_, ?_, ?_, ?_, ?_, ?_, ?_, ?_⟩ <;> (try dsimp only) <;> decide +kernel

theorem witness_MailboxActions :
    ((fun (s : State) (p : Fin 32) => MailboxOpen s p) ((put ((withPort awake 5).updHead 5 id) (R.PG_CXLCFG_MBXEN 2) 1)) 5)
      ∧
    ((fun (s : State) (p : Fin 32) (dom : BitVec 14) => let u := (mailboxUsed s p); let back := (fun (op : Nat) =>
      (u.updHead p fun h => { h with bg := some op }).send (.mailbox p op .background 0 [])); let destroy := ((back
      0xC011).destroyKey dom.toNat none (some p.val)); MailboxOpen s p ∧ destroy.1 = 0)
      ((put ((withPort awake 5).updHead 5 id) (R.PG_CXLCFG_MBXEN 2) 1)) 5 5) ∧
    ((fun (s : State) (p : Fin 32) (dom : BitVec 14) => let u := (mailboxUsed s p); let back := (fun (op : Nat) =>
      (u.updHead p fun h => { h with bg := some op }).send (.mailbox p op .background 0 [])); let destroy := ((back
      0xC011).destroyKey dom.toNat none (some p.val)); MailboxOpen s p ∧ destroy.1 = 0)
      ((put ((withPort (awake.setEntry 5 (setFld (setFld (setFld plainDom 61 61 1) 287 256 0) 319 288 0)) 5).updHead 5 id) (R.PG_CXLCFG_MBXEN 2) 1)) 5 5)
      ∧
    ((fun (s : State) (p : Fin 32) (dom : BitVec 14) => let u := (mailboxUsed s p); let back := (fun (op : Nat) =>
      (u.updHead p fun h => { h with bg := some op }).send (.mailbox p op .background 0 [])); let destroy := ((back
      0xC011).destroyKey dom.toNat none (some p.val)); MailboxOpen s p ∧ destroy.1 ≠ 0)
      ((put ((withPort (withDom awake) 5).updHead 5 id) (R.PG_CXLCFG_MBXEN 2) 1)) 5 5) ∧
    ((fun (s : State) (p : Fin 32) (d : BitVec 1024) => MailboxOpen s p ∧ descStatus d ≠ 0)
      ((put ((withPort awake 5).updHead 5 id) (R.PG_CXLCFG_MBXEN 2) 1)) 5 0x99) ∧
    ((fun (s : State) (p : Fin 32) (d : BitVec 1024) => MailboxOpen s p ∧ descStatus d ≠ 0)
      ((put ((withPort awake 5).updHead 5 id) (R.PG_CXLCFG_MBXEN 2) 1)) 5 ((desc 32 [(100, 100, 1)]))) ∧
    ((fun (s : State) (p : Fin 32) (d : BitVec 1024) => MailboxOpen s p ∧ descStatus d = 0)
      ((put ((withPort awake 5).updHead 5 id) (R.PG_CXLCFG_MBXEN 2) 1)) 5 ((desc 2 [(17, 16, 5)]))) ∧
    ((fun (s : State) (p : Fin 32) (base : BitVec 64) => MailboxOpen s p ∧ ((∀ c ∈ s.domains, Entry.baseAddr c.2 ≠
      base.toNat))) ((put ((withPort awake 5).updHead 5 id) (R.PG_CXLCFG_MBXEN 2) 1)) 5 77) ∧
    ((fun (s : State) (p : Fin 32) (dpa : Dpa) => let u := (mailboxUsed s p); MailboxOpen s p ∧ u.servedDomain (dpa.toNat /
      64 * 64) = none) ((put ((withPort awake 5).updHead 5 id) (R.PG_CXLCFG_MBXEN 2) 1)) 5 64) ∧
    ((fun (s : State) (p : Fin 32) (dpa : Dpa) (k : Nat) (e : Entry) => let u := (mailboxUsed s p); MailboxOpen s p ∧
      u.servedDomain (dpa.toNat / 64 * 64) = some (k, e) ∧ e.wrPorts.testBit p = false)
      ((put ((withPort (awake.setEntry 5 (setFld plainDom 319 288 0)) 5).updHead 5 id) (R.PG_CXLCFG_MBXEN 2) 1)) 5 64 5 ((setFld plainDom 319 288 0))) := by
  refine ⟨?_, ?_, ?_, ?_, ?_, ?_, ?_, ?_, ?_, ?_⟩ <;> (try dsimp only) <;> decide +kernel

theorem witness_ChannelIssueAndRefresh :
    ((fun (s : State) (n : Fin 16) (b : Fin 2) => let u := (s.sub n b); let serves := (s.chanServes n = true); ((¬ serves ∨
      u.alert ≠ .none ∨ s.escalating n = true ∨ 40 ≤ u.retry.length))) awake 3 0) ∧
    ((fun (s : State) (n : Fin 16) (b : Fin 2) => let u := (s.sub n b); let serves := (s.chanServes n = true); ((¬ serves ∨
      u.alert ≠ .none ∨ s.escalating n = true ∨ 40 ≤ u.retry.length)))
      (((chan awake 3 2).updSub 3 0 fun u => { u with alert := .stopped })) 3 0) ∧
    ((fun (s : State) (n : Fin 16) (b : Fin 2) => let u := (s.sub n b); let serves := (s.chanServes n = true); ((¬ serves ∨
      u.alert ≠ .none ∨ s.escalating n = true ∨ 40 ≤ u.retry.length)))
      (((chan awake 3 4).updSub 3 0 fun u => { u with retry := List.replicate 40 (.precharge 1) })) 3 0) ∧
    ((fun (s : State) (n : Fin 16) (b : Fin 2) (e : RdEntry) => OneRead s n b e ∧ s.rowHit n e.line = true)
      (({ ((chan awake 3 2).updSub 3 0 fun u => { u with rq := [({ line := 0, use := .demand 1, at_ := 0, seq := 9 } : RdEntry)] }) with dram := { (((chan awake 3 2).updSub 3 0 fun u => { u with rq := [({ line := 0, use := .demand 1, at_ := 0, seq := 9 } : RdEntry)] })).dram with banks := (((chan awake 3 2).updSub 3 0 fun u => { u with rq := [({ line := 0, use := .demand 1, at_ := 0, seq := 9 } : RdEntry)] })).dram.banks.upd (3 * 1024) fun b => { b with row := some 0, act := [(1, 5)] } } } : State)) 3 0 (({ line := 0, use := .demand 1, at_ := 0, seq := 9 } : RdEntry)))
      ∧
    ((fun (s : State) (n : Fin 16) (b : Fin 2) (e : RdEntry) => OneRead s n b e ∧ s.rowHit n e.line = true)
      (((chan ({ awake with dram := { (awake).dram with banks := (awake).dram.banks.upd (15 * 1024 + 512) fun b => { b with row := some 0, act := [(1, 5)] } } } : State) 15 3).updSub 15 1 fun u => { u with rq := [({ line := 1, use := .demand 1, at_ := 0, seq := 9 } : RdEntry)] })) 15 1 (({ line := 1, use := .demand 1, at_ := 0, seq := 9 } : RdEntry)))
      ∧
    ((fun (s : State) (n : Fin 16) (b : Fin 2) (e : RdEntry) => let ch := (s.dram.chans.get n); let place := (fun (e :
      RdEntry) => s.coord n e.line); let bankOf := (fun (t : State) (e : RdEntry) => t.bank n (place e).sub (place e).rank
      (place e).bank); OneRead s n b e ∧ ch.save = none ∧ (bankOf s e).row = none)
      (((chan awake 3 2).updSub 3 0 fun u => { u with rq := [({ line := 0, use := .demand 1, at_ := 0, seq := 9 } : RdEntry)] })) 3 0 (({ line := 0, use := .demand 1, at_ := 0, seq := 9 } : RdEntry)))
      ∧
    ((fun (s : State) (n : Fin 16) (b : Fin 2) (rank : Fin 16) => let k := (rankKey n b rank); let serves := (s.chanServes n
      = true); serves ∧ rank.val < s.ranks n ∧ 0 < s.dram.refAhead.get k)
      (({ (chan awake 3 2) with dram := { (chan awake 3 2).dram with refAhead := (chan awake 3 2).dram.refAhead.put (rankKey 3 0 0) 2 } } : State)) 3 0 0)
      ∧
    ((fun (s : State) (n : Fin 16) (b : Fin 2) (rank : Fin 16) => let k := (rankKey n b rank); let serves := (s.chanServes n
      = true); serves ∧ rank.val < s.ranks n ∧ s.dram.refAhead.get k = 0) ((chan awake 3 2)) 3 0 0) ∧
    ((fun (s : State) (n : Fin 16) (b : Fin 2) (rank : Fin 16) => let k := (rankKey n b rank); let serves := (s.chanServes n
      = true); serves ∧ rank.val < s.ranks n ∧ s.dram.refAhead.get k = 0)
      ((put (chan awake 3 4) (R.CH_CFG_RANKS 3) 15)) 3 1 15) ∧
    ((fun (s : State) (n : Fin 16) (rank : Fin 16) => let serves := (s.chanServes n = true); (¬ serves ∨ s.ranks n ≤
      rank.val)) awake 3 0) ∧
    ((fun (s : State) (n : Fin 16) (rank : Fin 16) => let serves := (s.chanServes n = true); (¬ serves ∨ s.ranks n ≤
      rank.val)) ((chan awake 3 2)) 3 1) ∧
    ((fun (s : State) (n : Fin 16) => let serves := (s.chanServes n = true); serves) ((chan awake 3 2)) 3) ∧
    ((fun (s : State) (n : Fin 16) => let serves := (s.chanServes n = true); serves) ((chan awake 3 3)) 3) ∧
    ((fun (s : State) (n : Fin 16) => let serves := (s.chanServes n = true); ¬ serves) ((chan awake 3 5)) 3) ∧
    ((fun (s : State) (n : Fin 16) (t : BitVec 8) => let serves := (s.chanServes n = true); let timer := (∃ t ∈ [3, 4, 5, 6,
      7], s.claim.aot.get t = 0x10); serves ∧ timer)
      (({ (chan awake 3 2) with claim := { ((chan awake 3 2)).claim with aot := ((chan awake 3 2)).claim.aot.put 4 0x10 } } : State)) 3 90)
      ∧
    ((fun (s : State) (n : Fin 16) (t : BitVec 8) => let serves := (s.chanServes n = true); let timer := (∃ t ∈ [3, 4, 5, 6,
      7], s.claim.aot.get t = 0x10); serves ∧ timer)
      (({ (chan awake 3 2) with claim := { ((chan awake 3 2)).claim with aot := ((chan awake 3 2)).claim.aot.put 4 0x10 } } : State)) 3 85)
      ∧
    ((fun (s : State) (n : Fin 16) (t : BitVec 8) => let serves := (s.chanServes n = true); let timer := (∃ t ∈ [3, 4, 5, 6,
      7], s.claim.aot.get t = 0x10); serves ∧ timer)
      (({ (chan awake 3 2) with claim := { ((chan awake 3 2)).claim with aot := ((chan awake 3 2)).claim.aot.put 4 0x10 } } : State)) 3 255)
      ∧
    ((fun (s : State) (n : Fin 16) (t : BitVec 8) => let serves := (s.chanServes n = true); let timer := (∃ t ∈ [3, 4, 5, 6,
      7], s.claim.aot.get t = 0x10); serves ∧ timer)
      (({ (chan awake 3 2) with claim := { ((chan awake 3 2)).claim with aot := ((chan awake 3 2)).claim.aot.put 4 0x10 } } : State)) 3 0)
      ∧
    ((fun (s : State) (n : Fin 16) => let serves := (s.chanServes n = true); let timer := (∃ t ∈ [3, 4, 5, 6, 7],
      s.claim.aot.get t = 0x10); serves ∧ timer)
      (({ (chan awake 3 2) with claim := { ((chan awake 3 2)).claim with aot := ((chan awake 3 2)).claim.aot.put 4 0x10 } } : State)) 3)
      ∧
    ((fun (s : State) (n : Fin 16) => let serves := (s.chanServes n = true); let timer := (∃ t ∈ [3, 4, 5, 6, 7],
      s.claim.aot.get t = 0x10); serves ∧ timer)
      (({ ((chan awake 3 2).updChan 3 fun c => { c with tsFails := 2 }) with claim := { (((chan awake 3 2).updChan 3 fun c => { c with tsFails := 2 })).claim with aot := (((chan awake 3 2).updChan 3 fun c => { c with tsFails := 2 })).claim.aot.put 4 0x10 } } : State)) 3)
      ∧
    ((fun (s : State) (n : Fin 16) => let serves := (s.chanServes n = true); let timer := (∃ t ∈ [3, 4, 5, 6, 7],
      s.claim.aot.get t = 0x10); (¬ serves ∨ ¬ timer))
      (({ (chan awake 3 2) with claim := { awake.claim with aot := Tab.empty } } : State)) 3) ∧
    ((fun (s : State) (n : Fin 16) => let serves := (s.chanServes n = true); let timer := (∃ t ∈ [3, 4, 5, 6, 7],
      s.claim.aot.get t = 0x10); (¬ serves ∨ ¬ timer)) awake 3) ∧
    ((fun (s : State) (n : Fin 16) (b : Fin 2) (id : Nat) (rest : List DramCmd) => let u := (s.sub n b); u.alert = .none ∧
      u.retry = .write id :: rest)
      (((chan awake 3 2).updSub 3 0 fun u => { u with retry := [.write 1], wq := [{ (default : WrEntry) with id := 1 }, { (default : WrEntry) with id := 2 }] })) 3 0 1 ([]))
      ∧
    ((fun (s : State) (n : Fin 16) (b : Fin 2) => let u := (s.sub n b); (u.alert ≠ .none ∨ u.retry = [])) awake 3 0) ∧
    ((fun (s : State) (n : Fin 16) (b : Fin 2) => let u := (s.sub n b); (u.alert ≠ .none ∨ u.retry = []))
      (((chan awake 3 2).updSub 3 0 fun u => { u with alert := .replay, retry := [.precharge 0] })) 3 0) ∧
    ((fun (s : State) (n : Fin 16) => let training := (s.chanState n = 1); ¬ training) awake 3) ∧
    ((fun (s : State) (n : Fin 16) => let training := (s.chanState n = 1); ¬ training) ((chan awake 3 2)) 3) ∧
    ((fun (s : State) (n : Fin 16) (spd : Spd) => let training := (s.chanState n = 1); training ∧ spd.slot0 = none ∧
      spd.slot1 = none) ((chan awake 3 1)) 3 ({ slot0 := none, slot1 := none, identity := 7 })) ∧
    ((fun (s : State) (n : Fin 16) (spd : Spd) => let training := (s.chanState n = 1); training ∧ ((spd.slot0 ≠ none ∨
      spd.slot1 ≠ none)) ∧ badPopulation spd ≠ 0)
      ((chan awake 3 1)) 3 ({ slot0 := none, slot1 := some dimm, identity := 7 })) ∧
    ((fun (s : State) (n : Fin 16) (spd : Spd) => let training := (s.chanState n = 1); training ∧ ((spd.slot0 ≠ none ∨
      spd.slot1 ≠ none)) ∧ badPopulation spd ≠ 0)
      ((chan awake 3 1)) 3 ({ slot0 := some { dimm with density := 8 }, slot1 := none, identity := 7 })) ∧
    ((fun (s : State) (n : Fin 16) (spd : Spd) => let training := (s.chanState n = 1); training ∧ ((spd.slot0 ≠ none ∨
      spd.slot1 ≠ none)) ∧ badPopulation spd ≠ 0)
      ((chan awake 3 1)) 3 ({ slot0 := some { dimm with crcOk := false }, slot1 := none, identity := 7 })) ∧
    ((fun (s : State) (n : Fin 16) (spd : Spd) => let training := (s.chanState n = 1); training ∧ ((spd.slot0 ≠ none ∨
      spd.slot1 ≠ none)) ∧ badPopulation spd ≠ 0)
      ((chan awake 3 1)) 3 ({ slot0 := some dimm, slot1 := some { dimm with ranks := 2 }, identity := 7 })) ∧
    ((fun (s : State) (n : Fin 16) (spd : Spd) => let training := (s.chanState n = 1); training ∧ spd.slot0 ≠ none ∧
      badPopulation spd = 0 ∧ ChannelEmpty s n) ((chan awake 3 1)) 3 ({ slot0 := some dimm, slot1 := none, identity := 7 }))
      ∧
    ((fun (s : State) (n : Fin 16) (spd : Spd) => let training := (s.chanState n = 1); training ∧ spd.slot0 ≠ none ∧
      badPopulation spd = 0) ((chan awake 3 1)) 3 ({ slot0 := some dimm, slot1 := none, identity := 7 })) ∧
    ((fun (s : State) (n : Fin 16) (spd : Spd) => let training := (s.chanState n = 1); training ∧ spd.slot0 ≠ none ∧
      badPopulation spd = 0)
      ((put (chan awake 3 1) (R.CH_MARK_MASK 3 4) 2)) 3 ({ slot0 := some dimm, slot1 := some dimm, identity := 7 })) ∧
    ((fun (s : State) (n : Fin 16) (spd : Spd) (v : Nat × Nat) => let training := (s.chanState n = 1); training ∧ s.stored n
      spd.identity = some v)
      (((chan awake 3 1).updChan 3 fun c => { c with ident := some 7, rate := 52, values := 9 })) 3 ({ slot0 := some dimm, slot1 := none, identity := 7 }) ((52, 9)))
      ∧
    ((fun (s : State) (n : Fin 16) (spd : Spd) (v : Nat × Nat) => let training := (s.chanState n = 1); training ∧ s.stored n
      spd.identity = some v)
      ((let s := (chan awake 3 1); { s with peat := { s.peat with trn := s.peat.trn.put 3 (some { ident := 7, rate := 300, values := 4, repairs := [] }) } })) 3 ({ slot0 := some dimm, slot1 := none, identity := 7 }) ((300, 4)))
      ∧
    ((fun (s : State) (n : Fin 16) (spd : Spd) (pass : Bool) => let training := (s.chanState n = 1); training ∧ ((s.stored n
      spd.identity = none ∨ pass = false)))
      ((chan awake 3 1)) 3 ({ slot0 := some dimm, slot1 := none, identity := 7 }) true) ∧
    ((fun (s : State) (n : Fin 16) (spd : Spd) (pass : Bool) => let training := (s.chanState n = 1); training ∧ ((s.stored n
      spd.identity = none ∨ pass = false)))
      (((chan awake 3 1).updChan 3 fun c => { c with ident := some 7 })) 3 ({ slot0 := some dimm, slot1 := none, identity := 7 }) false) := by
  refine ⟨?_, ?_, ?_, ?_, ?_, ?_, ?_, ?_, ?_, ?_, ?_, ?_, ?_, ?_, ?_, ?_, ?_, ?_, ?_, ?_, ?_, ?_, ?_, ?_, ?_, ?_, ?_, ?_, ?_, ?_, ?_, ?_, ?_, ?_, ?_, ?_, ?_, ?_, ?_⟩ <;> (try dsimp only) <;> decide +kernel

theorem witness_ChannelAlertsAndReplay :
    ((fun (s : State) (n : Fin 16) => let serves := (s.chanServes n = true); ¬ serves) awake 3) ∧
    ((fun (s : State) (n : Fin 16) => let serves := (s.chanServes n = true); ¬ serves) ((chan awake 3 5)) 3) ∧
    ((fun (s : State) (n : Fin 16) (b : Fin 2) => let u := (s.sub n b); let serves := (s.chanServes n = true); serves ∧
      u.alert = .none)
      (((chan awake 3 2).updSub 3 0 fun u => { u with alert := .none, replays := 0, retry := [.precharge 3, .write 1] })) 3 0)
      ∧
    ((fun (s : State) (n : Fin 16) (b : Fin 2) => let u := (s.sub n b); let serves := (s.chanServes n = true); serves ∧
      u.alert = .stopped)
      (((chan awake 3 2).updSub 3 0 fun u => { u with alert := .stopped, replays := 0, retry := [.precharge 3, .write 1] })) 3 0)
      ∧
    ((fun (s : State) (n : Fin 16) (b : Fin 2) => let u := (s.sub n b); let serves := (s.chanServes n = true); serves ∧
      u.alert = .replay ∧ u.replays < 3)
      (((chan awake 3 2).updSub 3 0 fun u => { u with alert := .replay, replays := 2, retry := [.precharge 3, .write 1] })) 3 0)
      ∧
    ((fun (s : State) (n : Fin 16) (b : Fin 2) => let u := (s.sub n b); let serves := (s.chanServes n = true); serves ∧
      u.alert = .replay ∧ 3 ≤ u.replays)
      (((chan awake 3 2).updSub 3 0 fun u => { u with alert := .replay, replays := 3, retry := [.precharge 3, .write 1] })) 3 0)
      ∧
    ((fun (s : State) (n : Fin 16) (b : Fin 2) => let u := (s.sub n b); let serves := (s.chanServes n = true); serves ∧
      u.alert = .replay ∧ 3 ≤ u.replays)
      (((chan awake 3 4).updSub 3 0 fun u => { u with alert := .replay, replays := 3, retry := [.precharge 3, .write 1] })) 3 0)
      ∧
    ((fun (s : State) (n : Fin 16) (b : Fin 2) => let u := (s.sub n b); u.alert = .stopped)
      (((chan awake 3 2).updSub 3 0 fun u => { u with alert := .stopped, replays := 1, retry := [.precharge 3, .write 1],  wq := [{ (default : WrEntry) with id := 1, issued := true }, { (default : WrEntry) with id := 2 }] })) 3 0)
      ∧
    ((fun (s : State) (n : Fin 16) (b : Fin 2) => let u := (s.sub n b); u.alert ≠ .stopped) awake 3 0) ∧
    ((fun (s : State) (n : Fin 16) (b : Fin 2) => let u := (s.sub n b); u.alert ≠ .stopped)
      (((chan awake 3 2).updSub 3 0 fun u => { u with alert := .replay, replays := 0, retry := [.precharge 3, .write 1] })) 3 0)
      ∧
    ((fun (s : State) (n : Fin 16) (b : Fin 2) => let u := (s.sub n b); let alive := (s.flag R.CF_STAT_DEVLOST = false); let
      calm := ((s.dram.chans.get n).retireWait = none); alive ∧ calm ∧ u.alert = .replay ∧ u.replays < 2)
      (((chan awake 3 2).updSub 3 0 fun u => { u with alert := .replay, replays := 1, retry := [.precharge 3, .write 1],  wq := [{ (default : WrEntry) with id := 1, issued := true }, { (default : WrEntry) with id := 2 }] })) 3 0)
      ∧
    ((fun (s : State) (n : Fin 16) (b : Fin 2) => let u := (s.sub n b); let alive := (s.flag R.CF_STAT_DEVLOST = false); let
      calm := ((s.dram.chans.get n).retireWait = none); alive ∧ calm ∧ u.alert = .replay ∧ u.replays < 2)
      (((chan awake 3 2).updSub 3 0 fun u => { u with alert := .replay, replays := 0, retry := [.precharge 3, .write 1] })) 3 0)
      ∧
    ((fun (s : State) (n : Fin 16) (b : Fin 2) => let u := (s.sub n b); let alive := (s.flag R.CF_STAT_DEVLOST = false); let
      calm := ((s.dram.chans.get n).retireWait = none); alive ∧ calm ∧ s.dram.alerts = [] ∧ u.alert = .replay ∧ 2 ≤
      u.replays)
      (((chan awake 3 2).updSub 3 0 fun u => { u with alert := .replay, replays := 2, retry := [.precharge 3, .write 1],  wq := [{ (default : WrEntry) with id := 1, issued := true }, { (default : WrEntry) with id := 2 }] })) 3 0)
      ∧
    ((fun (s : State) (n : Fin 16) (b : Fin 2) => let u := (s.sub n b); let alive := (s.flag R.CF_STAT_DEVLOST = false); let
      calm := ((s.dram.chans.get n).retireWait = none); alive ∧ calm ∧ s.dram.alerts = [] ∧ u.alert = .replay ∧ 2 ≤
      u.replays)
      (((chan awake 3 2).updSub 3 0 fun u => { u with alert := .replay, replays := 3, retry := [.precharge 3, .write 1],  wq := [{ (default : WrEntry) with id := 1, issued := true }, { (default : WrEntry) with id := 2 }] })) 3 0)
      ∧
    ((fun (s : State) (n : Fin 16) (b : Fin 2) => let u := (s.sub n b); (u.alert = .none ∨ u.alert = .stopped)) awake 3 0) ∧
    ((fun (s : State) (n : Fin 16) (b : Fin 2) => let u := (s.sub n b); (u.alert = .none ∨ u.alert = .stopped))
      (((chan awake 3 2).updSub 3 0 fun u => { u with alert := .stopped, replays := 0, retry := [.precharge 3, .write 1] })) 3 0)
      ∧
    ((fun (s : State) (n : Fin 16) (b : Fin 2) => let u := (s.sub n b); (u.alert ≠ .restore ∨ u.replays ≠ 3)) awake 3 0) ∧
    ((fun (s : State) (n : Fin 16) (b : Fin 2) => let u := (s.sub n b); (u.alert ≠ .restore ∨ u.replays ≠ 3))
      (((chan awake 3 2).updSub 3 0 fun u => { u with alert := .restore, replays := 4, retry := [.precharge 3, .write 1] })) 3 0)
      ∧
    ((fun (s : State) (n : Fin 16) (b : Fin 2) => let u := (s.sub n b); u.alert = .restore ∧ u.replays = 3)
      (((chan awake 3 2).updSub 3 0 fun u => { u with alert := .restore, replays := 3, retry := [.precharge 3, .write 1] })) 3 0)
      ∧
    ((fun (s : State) (n : Fin 16) (b : Fin 2) (r : Nat) => let u := (s.sub n b); u.alert = .restore ∧ u.replays = 3 ∧
      s.lowerRate n = some r)
      (((chan awake 3 2).updSub 3 0 fun u => { u with alert := .restore, replays := 3, retry := [.precharge 3, .write 1] })) 3 0 48)
      ∧
    ((fun (s : State) (n : Fin 16) (b : Fin 2) (r : Nat) => let u := (s.sub n b); u.alert = .lowerRate ∧ u.replays = 3 ∧
      s.lowerRate n = some r)
      (((chan awake 3 2).updSub 3 0 fun u => { u with alert := .lowerRate, replays := 3, retry := [.precharge 3, .write 1] })) 3 0 48)
      ∧
    ((fun (s : State) (n : Fin 16) (b : Fin 2) => let u := (s.sub n b); u.alert = .lowerRate ∧ u.replays = 3 ∧ ChannelEmpty
      s n) (((chan awake 3 2).updSub 3 0 fun u => { u with alert := .lowerRate, replays := 3 })) 3 0) ∧
    ((fun (s : State) (n : Fin 16) (b : Fin 2) => let u := (s.sub n b); u.alert ≠ .lowerRate) awake 3 0) ∧
    ((fun (s : State) (n : Fin 16) (b : Fin 2) => let u := (s.sub n b); u.alert ≠ .lowerRate)
      (((chan awake 3 2).updSub 3 0 fun u => { u with alert := .restore, replays := 3, retry := [.precharge 3, .write 1] })) 3 0)
      ∧
    ((fun (s : State) (n : Fin 16) (b : Fin 2) => let u := (s.sub n b); u.inflight = [] ∧ u.prq = []) awake 3 0) ∧
    ((fun (s : State) (n : Fin 16) (b : Fin 2) => let u := (s.sub n b); u.inflight = [] ∧ u.prq = [])
      ((chan awake 3 2)) 3 0) ∧
    ((fun (s : State) (n : Fin 16) (b : Fin 2) (e : RdEntry) (id : Nat) (t : HomeTx) => let u := (s.sub n b); let alive :=
      (s.flag R.CF_STAT_DEVLOST = false); alive ∧ u.inflight = [] ∧ u.prq = [e] ∧ s.deadRead n b e = false ∧ e.use = .paced
      id ∧ e.at_ + 260 ≤ s.gtc ∧ s.tx id = some t ∧ t.phase = .memory ∧ s.pacedOn t = [t])
      (({ (memTx ((chan awake 3 2).updSub 3 0 fun u => { u with prq := [({ line := 0, use := .paced 1, at_ := 0, seq := 9 } : RdEntry)] }) 0 (setFld plainDom 62 62 1)) with gtc := 260 } : State)) 3 0 (({ line := 0, use := .paced 1, at_ := 0, seq := 9 } : RdEntry)) 1 (((memTx awake 0 (setFld plainDom 62 62 1)).coh.txs.headD default))) := by
  refine ⟨?_, ?_, ?_, ?_, ?_, ?_, ?_, ?_, ?_, ?_, ?_, ?_, ?_, ?_, ?_, ?_, ?_, ?_, ?_, ?_, ?_, ?_, ?_, ?_, ?_, ?_, ?_⟩ <;> (try dsimp only) <;> decide +kernel

theorem witness_ReadDataAndScrubbing :
    ((fun (s : State) (n : Fin 16) (b : Fin 2) => let u := (s.sub n b); u.inflight = []) awake 3 0) ∧
    ((fun (s : State) (n : Fin 16) (b : Fin 2) => let u := (s.sub n b); u.inflight = []) ((chan awake 3 2)) 3 0) ∧
    ((fun (s : State) (n : Fin 16) (b : Fin 2) (e : RdEntry) (err : CodeWord) (id : Nat) (t : HomeTx) (y : Line) => let u :=
      (s.sub n b); u.inflight = [e] ∧ e.use = .demand id ∧ e.decode err = .clean y ∧ s.tx id = some t ∧ t.phase = .memory ∧
      t.req.entry.encrypt = false ∧ (s.entry t.req.dom).encrypt = false)
      (((memTx (chan awake 3 2) 0 plainDom).updSub 3 0 fun u => { u with inflight := [({ line := 0, use := .demand 1, at_ := 0, seq := 9 } : RdEntry)] })) 3 0 (({ line := 0, use := .demand 1, at_ := 0, seq := 9 } : RdEntry)) 0 1 (((memTx awake 0 plainDom).coh.txs.headD default)) ((match (({ line := 0, use := .demand 1, at_ := 0, seq := 9 } : RdEntry)).decode 0 with | .clean y => y | .uncorrectable y => y | _ => 0)))
      ∧
    ((fun (s : State) (n : Fin 16) (b : Fin 2) (e : RdEntry) (err : CodeWord) (id : Nat) (t : HomeTx) (y : Line) => let u :=
      (s.sub n b); u.inflight = [e] ∧ e.use = .demand id ∧ e.decode err = .uncorrectable y ∧ s.tx id = some t ∧ (s.entry
      t.req.dom).encrypt = false)
      (((memTx (chan awake 3 2) 0 plainDom).updSub 3 0 fun u => { u with inflight := [({ line := 0, use := .demand 1, at_ := 0, seq := 9 } : RdEntry)] })) 3 0 (({ line := 0, use := .demand 1, at_ := 0, seq := 9 } : RdEntry)) ((BitVec.ofNat 640 0x123456789ABCDEF0123456789ABCDEF)) 1 (((memTx awake 0 plainDom).coh.txs.headD default)) ((match (({ line := 0, use := .demand 1, at_ := 0, seq := 9 } : RdEntry)).decode (BitVec.ofNat 640 0x123456789ABCDEF0123456789ABCDEF) with | .clean y => y | .uncorrectable y => y | _ => 0)))
      ∧
    ((fun (s : State) (n : Fin 16) (b : Fin 2) => let u := (s.sub n b); u.rereads = []) awake 3 0) ∧
    ((fun (s : State) (n : Fin 16) (b : Fin 2) (e : RdEntry) (rest : List RdEntry) => let u := (s.sub n b); let held :=
      (s.claim.retry.get ((n * 2 + b) * 256 + 0x41)); u.rereads = e :: rest ∧ (held = 0 ∨ s.accessFree n e.line = false))
      (((let s := (chan awake 3 2); { s with claim := { s.claim with retry := s.claim.retry.put (6 * 256 + 0x41) 0 } }).updSub 3 0 fun u => { u with rereads := [({ line := 0, use := .demand 1, at_ := 0, seq := 9, answered := true, first := some (.corrected 0 1), nibbles := 1 } : RdEntry), ({ line := 0, use := .demand 1, at_ := 0, seq := 9 } : RdEntry)] })) 3 0 (({ line := 0, use := .demand 1, at_ := 0, seq := 9, answered := true, first := some (.corrected 0 1), nibbles := 1 } : RdEntry)) ([({ line := 0, use := .demand 1, at_ := 0, seq := 9 } : RdEntry)]))
      ∧
    ((fun (s : State) (n : Fin 16) (b : Fin 2) (e : RdEntry) (rest : List RdEntry) => let u := (s.sub n b); let held :=
      (s.claim.retry.get ((n * 2 + b) * 256 + 0x41)); u.rereads = e :: rest ∧ (held = 0 ∨ s.accessFree n e.line = false))
      (((let s := (chan awake 3 2); { s with claim := { s.claim with retry := s.claim.retry.put (6 * 256 + 0x41) 1 } }).updSub 3 0 fun u => { u with rereads := [({ line := 0, use := .demand 1, at_ := 0, seq := 9, answered := true, first := some (.corrected 0 1), nibbles := 1 } : RdEntry)], alert := .replay })) 3 0 (({ line := 0, use := .demand 1, at_ := 0, seq := 9, answered := true, first := some (.corrected 0 1), nibbles := 1 } : RdEntry)) ([]))
      ∧
    ((fun (s : State) (n : Fin 16) (b : Fin 2) (e : RdEntry) (err : CodeWord) (rest : List RdEntry) (y : Line) (z : Line) (k
      : Nat) => let u := (s.sub n b); let held := (s.claim.retry.get ((n * 2 + b) * 256 + 0x41)); let word := (s.readWord n
      e); s.flag R.CF_STAT_DEVLOST = false ∧ u.rereads = e :: rest ∧ u.rq = [] ∧ held ≠ 0 ∧ s.accessFree n e.line = true ∧
      e.line % 2 = b.val ∧ e.answered = true ∧ e.use.isMerge = false ∧ e.first = some (.corrected y k) ∧ word.decode err =
      .clean z)
      (((let s := (chan awake 3 2); { s with claim := { s.claim with retry := s.claim.retry.put (6 * 256 + 0x41) 1 } }).updSub 3 0 fun u => { u with rereads := [({ line := 0, use := .demand 1, at_ := 0, seq := 9, answered := true, first := some (.corrected 0 1), nibbles := 1 } : RdEntry), ({ line := 0, use := .demand 1, at_ := 0, seq := 9 } : RdEntry)] })) 3 0 (({ line := 0, use := .demand 1, at_ := 0, seq := 9, answered := true, first := some (.corrected 0 1), nibbles := 1 } : RdEntry)) 0 ([({ line := 0, use := .demand 1, at_ := 0, seq := 9 } : RdEntry)]) 0 0 1)
      ∧
    ((fun (s : State) (n : Fin 16) (b : Fin 2) (e : RdEntry) (err : CodeWord) (id : Nat) (m : MergeEntry) (y : Line) => let
      u := (s.sub n b); u.inflight = [e] ∧ u.rq = [] ∧ u.prq = [] ∧ u.wq = [] ∧ e.use = .merge id ∧ e.line = m.line ∧ m.line
      % 2 = b.val ∧ e.decode err = .clean y ∧ s.mergeEntry n id = some m ∧ s.resolve n m.line = (n.val, m.line) ∧ m.enc =
      false ∧ (s.entry m.dom).encrypt = false ∧ s.mergeFree n m false = true)
      ((((chan awake 3 2).updSub 3 0 fun u => { u with inflight := [({ line := 0, use := .merge 9, at_ := 0, seq := 9 } : RdEntry)] }).updChan 3 fun c => { c with merges := [({ (default : MergeEntry) with id := 9, line := 0, addr := 64, be := 0xFF, data := 7 } : MergeEntry)] })) 3 0 (({ line := 0, use := .merge 9, at_ := 0, seq := 9 } : RdEntry)) 0 9 (({ (default : MergeEntry) with id := 9, line := 0, addr := 64, be := 0xFF, data := 7 } : MergeEntry)) ((match (({ line := 0, use := .merge 9, at_ := 0, seq := 9 } : RdEntry)).decode 0 with | .clean y => y | .uncorrectable y => y | _ => 0)))
      ∧
    ((fun (s : State) (n : Fin 16) => let total := (s.chanLines n); let on := (s.flag (R.CH_ECCCTL_PATROLEN n) = true ∧
      s.chanServes n = true ∧ s.serving = true ∧ total ≠ 0); ¬ on) awake 3) ∧
    ((fun (s : State) (n : Fin 16) => let total := (s.chanLines n); let on := (s.flag (R.CH_ECCCTL_PATROLEN n) = true ∧
      s.chanServes n = true ∧ s.serving = true ∧ total ≠ 0); ¬ on)
      ((put (chan awake 3 2) (R.CH_ECCCTL_PATROLEN 3) 1).clr (R.CH_ECCCTL_PATROLEN 3)) 3) ∧
    ((fun (s : State) (n : Fin 16) (l : Nat) => let total := (s.chanLines n); let onward := (fun (l : Nat) => (s.patrolNext
      n (s.chanExtents n + 1) (l + 1)).isSome = true); let on := (s.flag (R.CH_ECCCTL_PATROLEN n) = true ∧ s.chanServes n =
      true ∧ s.serving = true ∧ total ≠ 0); on ∧ s.patrolAt n = some l ∧ s.inQueue n l = true ∧ onward l)
      (((put (chan awake 3 2) (R.CH_ECCCTL_PATROLEN 3) 1).updSub 3 0 fun u => { u with wq := [{ (default : WrEntry) with id := 1 }] })) 3 0)
      ∧
    ((fun (s : State) (n : Fin 16) (l : Nat) => let total := (s.chanLines n); let on := (s.flag (R.CH_ECCCTL_PATROLEN n) =
      true ∧ s.chanServes n = true ∧ s.serving = true ∧ total ≠ 0); on ∧ s.patrolAt n = some l ∧ s.inQueue n l = false ∧
      s.bgFree n l = false)
      (((put (chan awake 3 2) (R.CH_ECCCTL_PATROLEN 3) 1).updSub 3 0 fun u => { u with alert := .replay })) 3 0) ∧
    ((fun (s : State) (n : Fin 16) (err : CodeWord) (l : Nat) (y : Line) => let total := (s.chanLines n); let onward := (fun
      (l : Nat) => (s.patrolNext n (s.chanExtents n + 1) (l + 1)).isSome = true); let on := (s.flag (R.CH_ECCCTL_PATROLEN n)
      = true ∧ s.chanServes n = true ∧ s.serving = true ∧ total ≠ 0); on ∧ s.patrolAt n = some l ∧ s.inQueue n l = false ∧
      s.bgFree n l = true ∧ s.readNow n l err = .clean y ∧ onward l)
      ((put (chan awake 3 2) (R.CH_ECCCTL_PATROLEN 3) 1)) 3 0 0 ((match (((put (chan awake 3 2) (R.CH_ECCCTL_PATROLEN 3) 1)).readWord 3 { (default : RdEntry) with line := 0 }).decode 0 with | .clean y => y | _ => 0)))
      ∧
    ((fun (s : State) (n : Fin 16) => let total := (s.chanLines n); let on := (s.flag (R.CH_ECCCTL_PATROLEN n) = true ∧
      s.chanServes n = true ∧ s.serving = true ∧ total ≠ 0); on ∧ s.patrolAt n = none)
      (({ ((put (chan awake 3 2) (R.CH_ECCCTL_PATROLEN 3) 1).updChan 3 fun c => { c with patrol := { c.patrol with line := 2 ^ 40 } }) with gtc := 5 * 2 ^ 32 } : State)) 3) := by
  refine ⟨?_, ?_, ?_, ?_, ?_, ?_, ?_, ?_, ?_, ?_, ?_, ?_, ?_, ?_, ?_⟩ <;> (try dsimp only) <;> decide +kernel

theorem witness_MarksRepairsAndRetirement :
    ((fun (s : State) (p : Path) (n : Fin 16) (val : BitVec 32) (j : Nat) => let reach := (Reachable s p); j < 10 ∧ reach ∧
      fld val 9 0 = 2 ^ j ∧ s.chanState n = 2) ((chan awake 3 2)) .bar 3 1 0) ∧
    ((fun (s : State) (p : Path) (n : Fin 16) (val : BitVec 32) (j : Nat) => let reach := (Reachable s p); j < 10 ∧ reach ∧
      fld val 9 0 = 2 ^ j ∧ s.chanState n = 2) ((chan awake 3 2)) .bar 3 (0xFC00 + 512) 9) ∧
    ((fun (s : State) (p : Path) (n : Fin 16) (val : BitVec 32) => let reach := (Reachable s p); reach ∧ s.flag
      R.CF_STAT_DEVLOST = false ∧ maskLegal (s.flag (R.CH_CFG_WIDTH n)) (fld val 9 0) = false) awake .bar 3 3) ∧
    ((fun (s : State) (p : Path) (n : Fin 16) (val : BitVec 32) => let reach := (Reachable s p); reach ∧ s.flag
      R.CF_STAT_DEVLOST = false ∧ maskLegal (s.flag (R.CH_CFG_WIDTH n)) (fld val 9 0) = false) awake .bar 3 0x3FF) ∧
    ((fun (s : State) (p : Path) (n : Fin 16) (val : BitVec 32) => let reach := (Reachable s p); reach ∧ s.flag
      R.CF_STAT_DEVLOST = false ∧ maskLegal (s.flag (R.CH_CFG_WIDTH n)) (fld val 9 0) = false)
      ((put (chan awake 3 2) (R.CH_CFG_WIDTH 3) 1)) .bar 3 6) ∧
    ((fun (s : State) (p : Path) => let reach := (Reachable s p); reach ∧ s.flag R.MG_LOCK_INJLK = false) awake .bar) ∧
    ((fun (s : State) (p : Path) (n : Fin 16) => let ch := (s.dram.chans.get n); let reach := (Reachable s p); let l :=
      (s.injLine n); let waits := ((s.writesWait n (· == l) || s.merging n l) = true); let ready := (reach ∧ s.mayInject n =
      true ∧ ¬ waits ∧ (∀ r ∈ (s.sub n (l % 2)).reads, r.line ≠ l) ∧ s.accessFree n l = true ∧ ch.extCopy = none); ready)
      ((put (put (put (chan awake 3 2) (R.CH_INJCTL_INJEN 3) 1) (R.CH_INJADDRLO_LINELO 3) 77) (R.CH_INJDATA_BYTES 3 4) 99)) .bar 3)
      ∧
    ((fun (s : State) (p : Path) (n : Fin 16) => let ch := (s.dram.chans.get n); let reach := (Reachable s p); let l :=
      (s.injLine n); let waits := ((s.writesWait n (· == l) || s.merging n l) = true); let ready := (reach ∧ s.mayInject n =
      true ∧ ¬ waits ∧ (∀ r ∈ (s.sub n (l % 2)).reads, r.line ≠ l) ∧ s.accessFree n l = true ∧ ch.extCopy = none); ready)
      (((put (chan awake 3 2) (R.CH_INJCTL_INJEN 3) 1).setWord 3 0 0xABCDEF)) .bar 3) ∧
    ((fun (s : State) (p : Path) (n : Fin 16) => let ch := (s.dram.chans.get n); let reach := (Reachable s p); let l :=
      (s.injLine n); let waits := ((s.writesWait n (· == l) || s.merging n l) = true); let ready := (reach ∧ s.mayInject n =
      true ∧ ¬ waits ∧ (∀ r ∈ (s.sub n (l % 2)).reads, r.line ≠ l) ∧ s.accessFree n l = true ∧ ch.extCopy = none); ready)
      (((put (put (chan awake 3 2) (R.CH_INJCTL_INJEN 3) 1) (R.CH_INJDATA_BYTES 3 0) 3).setWord 3 0 0xABCDEF)) .bar 3) ∧
    ((fun (s : State) (p : Path) (n : Fin 16) => let reach := (Reachable s p); let l := (s.injLine n); let waits :=
      ((s.writesWait n (· == l) || s.merging n l) = true); reach ∧ s.mayInject n = true ∧ waits)
      (((put (chan awake 3 2) (R.CH_INJCTL_INJEN 3) 1).updSub 3 0 fun u => { u with wq := [{ (default : WrEntry) with id := 1 }] })) .bar 3)
      ∧
    ((fun (s : State) (p : Path) (n : Fin 16) => let reach := (Reachable s p); reach ∧ s.mayInject n = false) awake .bar 3)
      ∧
    ((fun (s : State) (p : Path) (n : Fin 16) => let reach := (Reachable s p); reach ∧ s.mayInject n = false)
      ((put (put (chan awake 3 2) (R.CH_INJCTL_INJEN 3) 1) (R.CH_INJADDRHI_LINEHI 3) 3)) .bar 3) ∧
    ((fun (s : State) (p : Path) (n : Fin 16) => let reach := (Reachable s p); let busy := (s.flag (R.CH_MAINT_BUSY n) =
      true); reach ∧ busy) ((put (chan awake 3 2) (R.CH_MAINT_BUSY 3) 1)) .bar 3) ∧
    ((fun (s : State) (p : Path) (n : Fin 16) => let reach := (Reachable s p); let busy := (s.flag (R.CH_MAINT_BUSY n) =
      true); reach ∧ ¬ busy ∧ s.chanServes n = false ∧ s.escalating n = false) ((chan awake 3 6)) .bar 3) ∧
    ((fun (s : State) (p : Path) (n : Fin 16) => let reach := (Reachable s p); let busy := (s.flag (R.CH_MAINT_BUSY n) =
      true); reach ∧ ¬ busy ∧ s.chanServes n = false ∧ s.escalating n = false) awake .bar 3) ∧
    ((fun (s : State) (p : Path) (n : Fin 16) => let reach := (Reachable s p); let busy := (s.flag (R.CH_MAINT_BUSY n) =
      true); reach ∧ ¬ busy ∧ s.chanServes n = true ∧ s.servesPaced n = true)
      (((chan awake 3 2).setEntry 5 (setFld plainDom 62 62 1))) .bar 3) ∧
    ((fun (s : State) (p : Path) (n : Fin 16) => let ch := (s.dram.chans.get n); let reach := (Reachable s p); let busy :=
      (s.flag (R.CH_MAINT_BUSY n) = true); let c := (s.maintCoord n); reach ∧ ¬ busy ∧ s.chanTakes n = true ∧ s.servesPaced
      n = false ∧ ch.save = none ∧ s.claim.retry.get ((n * 2 + c.sub) * 256 + 0x42) ≠ 0)
      (({ (put (chan awake 3 2) (R.CH_MAINTADDR_ROW 3) 7) with claim := { ((put (chan awake 3 2) (R.CH_MAINTADDR_ROW 3) 7)).claim with retry := ((put (chan awake 3 2) (R.CH_MAINTADDR_ROW 3) 7)).claim.retry.put ((3 * 2 + 0) * 256 + 0x42) 1 } } : State)) .bar 3)
      ∧
    ((fun (s : State) (p : Path) (n : Fin 16) => let reach := (Reachable s p); let busy := (s.flag (R.CH_MAINT_BUSY n) =
      true); reach ∧ ¬ busy ∧ s.chanTakes n = true ∧ s.escalating n = false ∧ s.retireStatus n = 0)
      ((chan awake 3 2)) .bar 3) ∧
    ((fun (s : State) (p : Path) (n : Fin 16) => let reach := (Reachable s p); let busy := (s.flag (R.CH_MAINT_BUSY n) =
      true); reach ∧ ¬ busy ∧ s.chanTakes n = true ∧ s.escalating n = false ∧ s.retireStatus n = 0)
      ((chan awake 3 3)) .bar 3) ∧
    ((fun (s : State) (p : Path) (n : Fin 16) => let reach := (Reachable s p); let busy := (s.flag (R.CH_MAINT_BUSY n) =
      true); reach ∧ ¬ busy ∧ s.chanTakes n = true ∧ s.escalating n = false ∧ s.retireStatus n = 0)
      (({ (chan awake 3 2) with tier := { ((chan awake 3 2)).tier with extents := ((chan awake 3 2)).tier.extents.put (extKey 3 0) { kind := 1, arg := 0, used := 1, auditOnly := false, noAlloc := false } } } : State)) .bar 3)
      ∧
    ((fun (s : State) (p : Path) (n : Fin 16) => let reach := (Reachable s p); let busy := (s.flag (R.CH_MAINT_BUSY n) =
      true); reach ∧ ¬ busy ∧ s.escalating n = true)
      (((chan awake 3 2).updSub 3 0 fun u => { u with alert := .restore, replays := 3 })) .bar 3) ∧
    ((fun (s : State) (p : Path) (n : Fin 16) => let reach := (Reachable s p); let busy := (s.flag (R.CH_MAINT_BUSY n) =
      true); reach ∧ ¬ busy ∧ s.chanServes n = true) ((chan awake 3 2)) .bar 3) ∧
    ((fun (s : State) (n : Fin 16) => let ch := (s.dram.chans.get n); ch.save = none) awake 3) ∧
    ((fun (s : State) (n : Fin 16) (r : RowSave) => let ch := (s.dram.chans.get n); let alerted := (fun (r : RowSave) =>
      (s.sub n r.sub).alert ≠ .none ∨ s.escalating n = true); ch.save = some r ∧ alerted r)
      ((((put (chan awake 3 2) (R.CH_MAINT_BUSY 3) 1).updChan 3 fun c => { c with save := some { sub := 0, rank := 0, bank := 0, row := 7, lines := Tab.empty } }).updSub 3 0 fun u => { u with alert := .stopped })) 3 ({ sub := 0, rank := 0, bank := 0, row := 7, lines := Tab.empty }))
      ∧
    ((fun (s : State) (n : Fin 16) (r : RowSave) => let ch := (s.dram.chans.get n); let alerted := (fun (r : RowSave) =>
      (s.sub n r.sub).alert ≠ .none ∨ s.escalating n = true); ch.save = some r ∧ ¬ alerted r)
      (((put (chan awake 3 2) (R.CH_MAINT_BUSY 3) 1).updChan 3 fun c => { c with save := some { sub := 0, rank := 0, bank := 0, row := 7, lines := Tab.empty } })) 3 ({ sub := 0, rank := 0, bank := 0, row := 7, lines := Tab.empty }))
      ∧
    ((fun (s : State) (n : Fin 16) => let ch := (s.dram.chans.get n); (s.chanState n ≠ 4 ∨ ch.extCopy ≠ none))
      ((chan awake 3 2)) 3) ∧
    ((fun (s : State) (n : Fin 16) => let ch := (s.dram.chans.get n); (s.chanState n ≠ 4 ∨ ch.extCopy ≠ none))
      (((chan awake 3 4).updChan 3 fun c => { c with extCopy := some { ext := 0, chan := 4, target := 0, left := [] } })) 3)
      ∧
    ((fun (s : State) (n : Fin 16) (e : Nat) (rest : List Nat) (t : Nat) (y : Nat) => let ch := (s.dram.chans.get n);
      s.chanState n = 4 ∧ ch.extCopy = none ∧ s.extentsToMove n = e :: rest ∧ s.moveTarget n e = some (t, y))
      (({ (chan (chan awake 3 4) 4 2) with tier := { ((chan (chan awake 3 4) 4 2)).tier with extents := ((chan (chan awake 3 4) 4 2)).tier.extents.put (extKey 3 0) { kind := 1, arg := 0, used := 1, auditOnly := false, noAlloc := false } } } : State)) 3 0 ([]) (((({ (chan (chan awake 3 4) 4 2) with tier := { ((chan (chan awake 3 4) 4 2)).tier with extents := ((chan (chan awake 3 4) 4 2)).tier.extents.put (extKey 3 0) { kind := 1, arg := 0, used := 1, auditOnly := false, noAlloc := false } } } : State)).moveTarget 3 0).get!.1) (((({ (chan (chan awake 3 4) 4 2) with tier := { ((chan (chan awake 3 4) 4 2)).tier with extents := ((chan (chan awake 3 4) 4 2)).tier.extents.put (extKey 3 0) { kind := 1, arg := 0, used := 1, auditOnly := false, noAlloc := false } } } : State)).moveTarget 3 0).get!.2))
      ∧
    ((fun (s : State) (n : Fin 16) (e : Nat) (rest : List Nat) => let ch := (s.dram.chans.get n); s.chanState n = 4 ∧
      ch.extCopy = none ∧ s.extentsToMove n = e :: rest ∧ s.moveTarget n e = none)
      (({ (chan awake 3 4) with tier := { ((chan awake 3 4)).tier with extents := ((chan awake 3 4)).tier.extents.put (extKey 3 0) { kind := 1, arg := 0, used := 1, auditOnly := false, noAlloc := false } } } : State)) 3 0 ([]))
      ∧
    ((fun (s : State) (n : Fin 16) => let ch := (s.dram.chans.get n); ch.extCopy = none) ((chan awake 3 4)) 3) ∧
    ((fun (s : State) (n : Fin 16) (e : ExtCopy) => let ch := (s.dram.chans.get n); ch.extCopy = some e ∧ (e.left ≠ [] ∨
      s.extentBusy n e.ext = true))
      (((chan awake 3 4).updChan 3 fun c => { c with extCopy := some { ext := 0, chan := 4, target := 0, left := [5] } })) 3 ({ ext := 0, chan := 4, target := 0, left := [5] }))
      ∧
    ((fun (s : State) (n : Fin 16) (e : ExtCopy) => let ch := (s.dram.chans.get n); ch.extCopy = some e ∧ (e.left ≠ [] ∨
      s.extentBusy n e.ext = true))
      ((((chan awake 3 4).updSub 3 0 fun u => { u with wq := [{ (default : WrEntry) with id := 1 }] }).updChan 3 fun c => { c with extCopy := some { ext := 0, chan := 4, target := 0, left := [] } })) 3 ({ ext := 0, chan := 4, target := 0, left := [] }))
      ∧
    ((fun (s : State) (n : Fin 16) (e : ExtCopy) => let ch := (s.dram.chans.get n); ch.extCopy = some e ∧ e.left = [] ∧
      s.extentBusy n e.ext = false ∧ s.metaAt n e.ext = none ∧ (s.ext n e.ext).kind = 1)
      ((({ (chan (chan awake 3 4) 4 2) with tier := { ((chan (chan awake 3 4) 4 2)).tier with extents := ((chan (chan awake 3 4) 4 2)).tier.extents.put (extKey 3 0) { kind := 1, arg := 0, used := 1, auditOnly := false, noAlloc := false } } } : State).updChan 3 fun c => { c with extCopy := some { ext := 0, chan := 4, target := 9, left := [] } })) 3 ({ ext := 0, chan := 4, target := 9, left := [] })) := by
  refine ⟨?_, ?_, ?_, ?_, ?_, ?_, ?_, ?_, ?_, ?_, ?_, ?_, ?_, ?_, ?_, ?_, ?_, ?_, ?_, ?_, ?_, ?_, ?_, ?_, ?_, ?_, ?_, ?_, ?_, ?_, ?_, ?_, ?_⟩ <;> (try dsimp only) <;> decide +kernel

theorem witness_KeySlotOperations :
    ((fun (s : State) (p : Path) => let b := (s.stagedBlob p); let act := (KeyPathFree s p); act ∧ b.getD 0 0 ≠ 1)
      awake .bar) ∧
    ((fun (s : State) (p : Path) => let b := (s.stagedBlob p); let act := (KeyPathFree s p); act ∧ b.getD 0 0 ≠ 1)
      awake .sideband) ∧
    ((fun (s : State) (p : Path) (k : BitVec 256) => let b := (s.stagedBlob p); let act := (KeyPathFree s p); act ∧ p = .bar
      ∧ b.getD 0 0 = 1 ∧ b.getD 1 0 = 0 ∧ s.eng.dk.get 0 = some k)
      ((blobAt ({ awake with eng := { (awake).eng with dk := (awake).eng.dk.put 0 (some 7) } } : State) [1, 0])) .bar 7) ∧
    ((fun (s : State) (p : Path) (dom : BitVec 14) => let d := (dom.toNat); let e := (s.entry d); let act := (KeyPathFree s
      p); act ∧ (s.slot d).st ≠ 3 ∧ e.valid = false) awake .bar 5) ∧
    ((fun (s : State) (p : Path) (dom : BitVec 14) => let d := (dom.toNat); let e := (s.entry d); let act := (KeyPathFree s
      p); act ∧ (s.slot d).st ≠ 3 ∧ e.valid = false)
      (({ awake with eng := { awake.eng with slots := awake.eng.slots.put 5 { st := 2, k1 := 1, k2 := 2, kt := 3 } } } : State)) .sideband 5)
      ∧
    ((fun (s : State) (p : Path) (dom : BitVec 14) => let d := (dom.toNat); let e := (s.entry d); let act := (KeyPathFree s
      p); act ∧ e.valid = true ∧ e.rdPorts ≠ 0) ((withDom awake)) .bar 5) ∧
    ((fun (s : State) (p : Path) (k : BitVec 256) => let act := (KeyPathFree s p); act ∧ s.eng.dk.get 6 = some k)
      (({ awake with eng := { (awake).eng with dk := (awake).eng.dk.put 6 (some 7) } } : State)) .bar 7) ∧
    ((fun (s : State) (p : Path) => let act := (KeyPathFree s p); act ∧ s.eng.dk.get 6 = none) awake .bar) ∧
    ((fun (s : State) (p : Path) (k : BitVec 256) => let act := (KeyPathFree s p); act ∧ s.eng.dk.get 7 = some k)
      (({ awake with eng := { (awake).eng with dk := (awake).eng.dk.put 7 (some 7) } } : State)) .bar 7) ∧
    ((fun (s : State) (p : Path) => let act := (KeyPathFree s p); act ∧ s.eng.dk.get 7 = none) awake .bar) ∧
    ((fun (s : State) (pipe : Fin 32) => (s.eng.kcache.get pipe).length < 32) awake 3) ∧
    ((fun (s : State) (pipe : Fin 32) => (s.eng.kcache.get pipe).length < 32)
      (({ awake with eng := { awake.eng with kcache := awake.eng.kcache.put 31 (List.range 31) } } : State)) 31) ∧
    ((fun (s : State) (dom : BitVec 14) => let d := (dom.toNat); s.eraseOf d = none) awake 5) ∧
    ((fun (s : State) (dom : BitVec 14) (x : Erase) => let d := (dom.toNat); let e := (s.entry d); s.eraseOf d = some x ∧
      x.dom = d ∧ x.entry.valid = false ∧ e.valid = false ∧ x.path = none ∧ x.port = none ∧ s.walkReady d = true ∧
      s.tier.migs = [])
      (({ awake with eng := { (awake).eng with erases := [{ dom := 5, entry := 0, path := none, port := none }], slots := (awake).eng.slots.put 5 { st := 3, k1 := 1, k2 := 2, kt := 3 } } } : State)) 5 ({ dom := 5, entry := 0, path := none, port := none })) := by
  refine ⟨?_, ?_, ?_, ?_, ?_, ?_, ?_, ?_, ?_, ?_, ?_, ?_, ?_, ?_⟩ <;> (try dsimp only) <;> decide +kernel

theorem witness_KindlingSlicesAndEngines :
    ((fun (s : State) (p : Path) (n : Fin 16) => let idle := (s.flag (R.KS_OPSTAT_BUSY n) = false); Reachable s p ∧ idle)
      awake .bar 3) ∧
    ((fun (s : State) (p : Path) (n : Fin 16) => let idle := (s.flag (R.KS_OPSTAT_BUSY n) = false); Reachable s p ∧ idle)
      awake .bar 15) ∧
    ((fun (s : State) (p : Path) (n : Fin 16) => let idle := (s.flag (R.KS_OPSTAT_BUSY n) = false); Reachable s p ∧ ¬ idle)
      ((put awake (R.KS_OPSTAT_BUSY 3) 1)) .bar 3) ∧
    ((fun (s : State) (n : Fin 16) => s.kind.op.get n = 0) awake 3) ∧
    ((fun (s : State) (n : Fin 16) => let set := (s.kind.opSet.get n); let emptySet := (∀ w, w < 16 → (s.kLine n set w).st =
      .invalid); s.kind.op.get n ≠ 0 ∧ emptySet ∧ set < 12287)
      (({ (put awake (R.KS_OPSTAT_BUSY 3) 1) with kind := { awake.kind with op := awake.kind.op.put 3 1, opSet := awake.kind.opSet.put 3 0 } } : State)) 3)
      ∧
    ((fun (s : State) (n : Fin 16) => let set := (s.kind.opSet.get n); let emptySet := (∀ w, w < 16 → (s.kLine n set w).st =
      .invalid); s.kind.op.get n ≠ 0 ∧ emptySet ∧ set < 12287)
      (({ (put awake (R.KS_OPSTAT_BUSY 3) 1) with kind := { awake.kind with op := awake.kind.op.put 3 4, opSet := awake.kind.opSet.put 3 12286 } } : State)) 3)
      ∧
    ((fun (s : State) (n : Fin 16) => let set := (s.kind.opSet.get n); let emptySet := (∀ w, w < 16 → (s.kLine n set w).st =
      .invalid); s.kind.op.get n ≠ 0 ∧ emptySet ∧ set = 12287)
      (({ (put awake (R.KS_OPSTAT_BUSY 3) 1) with kind := { awake.kind with op := awake.kind.op.put 3 2, opSet := awake.kind.opSet.put 3 12287 } } : State)) 3)
      ∧
    ((fun (s : State) (p : Path) => Reachable s p ∧ s.kind.lines = Tab.empty ∧ s.kind.drain = []) awake .bar) ∧
    ((fun (s : State) (n : Fin 16) => s.eng.cq.get n = []) awake 3) ∧
    ((fun (s : State) (n : Fin 16) (j : CzJob) (q : List CzJob) => s.eng.cq.get n = j :: q ∧ s.noEncrypt j.entry.encrypt =
      true)
      (((List.range 16).foldl (fun s k => put s (R.ENG_XCTL_XEDIS k) 1) ({ awake with eng := { awake.eng with cq := awake.eng.cq.put 3 [({ (default : CzJob) with dom := 5, entry := encDom } : CzJob)] } } : State))) 3 (({ (default : CzJob) with dom := 5, entry := encDom } : CzJob)) ([]))
      ∧
    ((fun (s : State) (n : Fin 16) (j : CzJob) (q : List CzJob) => s.eng.cq.get n = j :: q ∧ s.noEncrypt j.entry.encrypt =
      false ∧ j.poison = true ∧ j.mig = none ∧ j.first = none ∧ j.place = .out)
      (({ awake with eng := { awake.eng with cq := awake.eng.cq.put 3 [({ (default : CzJob) with dom := 5, entry := plainDom, poison := true } : CzJob), ({ (default : CzJob) with dom := 5, entry := plainDom } : CzJob)] } } : State)) 3 (({ (default : CzJob) with dom := 5, entry := plainDom, poison := true } : CzJob)) ([({ (default : CzJob) with dom := 5, entry := plainDom } : CzJob)]))
      ∧
    ((fun (s : State) (n : Fin 16) (j : CzJob) (q : List CzJob) => s.eng.cq.get n = j :: q ∧ j.mig = none ∧ j.first = some
      n.val ∧ j.place = .out)
      (({ awake with eng := { awake.eng with cq := awake.eng.cq.put 3 [({ (default : CzJob) with dom := 5, entry := plainDom, first := some 3 } : CzJob)] } } : State)) 3 (({ (default : CzJob) with dom := 5, entry := plainDom, first := some 3 } : CzJob)) ([]))
      ∧
    ((fun (s : State) (n : Fin 16) => s.eng.dq.get n = []) awake 3) ∧
    ((fun (s : State) (n : Fin 16) (id : Nat) (f : Fill) (b : List Byte) => s.eng.dq.get n = [id] ∧ s.kind.fills = [f] ∧
      f.id = id ∧ f.first = none ∧ tbcDecode f.unit f.n = some b)
      (({ awake with eng := { awake.eng with dq := awake.eng.dq.put 3 [4] }, kind := { awake.kind with fills := [({ (default : Fill) with id := 4, unit := (tbcUnit (2 * 16384 + 3) [1, 2, 3, 4]).2, n := (tbcUnit (2 * 16384 + 3) [1, 2, 3, 4]).1 } : Fill)] } } : State)) 3 4 (({ (default : Fill) with id := 4, unit := (tbcUnit (2 * 16384 + 3) [1, 2, 3, 4]).2, n := (tbcUnit (2 * 16384 + 3) [1, 2, 3, 4]).1 } : Fill)) ((tbcDecode (tbcUnit (2 * 16384 + 3) [1, 2, 3, 4]).2 (tbcUnit (2 * 16384 + 3) [1, 2, 3, 4]).1).get!))
      ∧
    ((fun (s : State) (id : Nat) (f : Fill) => s.fill id = some f ∧ f.ready = false)
      (({ awake with eng := { awake.eng with dq := awake.eng.dq.put 3 [4] }, kind := { awake.kind with fills := [({ (default : Fill) with id := 4, unit := (tbcUnit (2 * 16384 + 3) [1, 2, 3, 4]).2, n := (tbcUnit (2 * 16384 + 3) [1, 2, 3, 4]).1 } : Fill)] } } : State)) 4 (({ (default : Fill) with id := 4, unit := (tbcUnit (2 * 16384 + 3) [1, 2, 3, 4]).2, n := (tbcUnit (2 * 16384 + 3) [1, 2, 3, 4]).1 } : Fill)))
      ∧
    ((fun (s : State) (id : Nat) (f : Fill) => s.fill id = some f ∧ f.ready = true ∧ f.dirty = false ∧ s.waitsOn f = [] ∧
      (s.kWay f.slice (f.granule * 1024)).isSome = true)
      ((let s := ({ awake with eng := { awake.eng with dq := awake.eng.dq.put 3 [4] }, kind := { awake.kind with fills := [({ (default : Fill) with id := 4, slice := 3, dom := 5, entry := plainDom, ready := true, out := [1, 2] } : Fill)] } } : State); s.setKLine 3 0 0 { (default : KLine) with st := .homeClean, tag := 0, blk := true })) 4 (({ (default : Fill) with id := 4, slice := 3, dom := 5, entry := plainDom, ready := true, out := [1, 2] } : Fill)))
      ∧
    ((fun (s : State) (id : Nat) (f : Fill) (y : State) => s.fill id = some f ∧ f.ready = true ∧ f.dirty = false ∧ s.waitsOn
      f = [] ∧ s.kWay f.slice (f.granule * 1024) = none ∧ s.hasWay f.slice f.entry = true ∧ s.fillBlock f.slice f.entry
      f.granule .homeClean f.out = (true, y))
      ((put ({ awake with eng := { awake.eng with dq := awake.eng.dq.put 3 [4] }, kind := { awake.kind with fills := [({ (default : Fill) with id := 4, slice := 3, dom := 5, entry := plainDom, ready := true, out := [1, 2] } : Fill)] } } : State) (R.KS_SPILLWAYS_WAYS 3) 0xFFFF)) 4 (({ (default : Fill) with id := 4, slice := 3, dom := 5, entry := plainDom, ready := true, out := [1, 2] } : Fill)) ((((put ({ awake with eng := { awake.eng with dq := awake.eng.dq.put 3 [4] }, kind := { awake.kind with fills := [({ (default : Fill) with id := 4, slice := 3, dom := 5, entry := plainDom, ready := true, out := [1, 2] } : Fill)] } } : State) (R.KS_SPILLWAYS_WAYS 3) 0xFFFF)).fillBlock 3 plainDom 0 .homeClean [1, 2]).2))
      ∧
    ((fun (s : State) (id : Nat) => s.fill id = none) awake 4) := by
  refine ⟨?_, ?_, ?_, ?_, ?_, ?_, ?_, ?_, ?_, ?_, ?_, ?_, ?_, ?_, ?_, ?_, ?_, ?_⟩ <;> (try dsimp only) <;> decide +kernel

theorem witness_DomainCommitsAndCopies :
    ((fun (s : State) (p : Path) => Reachable s p ∧ s.flag R.CF_STAT_DEVLOST = false) awake .bar) ∧
    ((fun (s : State) (p : Path) => let busy := (s.flag (R.CHIP_DOMSTAT_BUSY.on p) = true); Reachable s p ∧ busy)
      ((put awake (R.CHIP_DOMSTAT_BUSY.on .bar) 1)) .bar) ∧
    ((fun (s : State) (p : Path) (dom : BitVec 14) => let d := (dom.toNat); let busy := (s.flag (R.CHIP_DOMSTAT_BUSY.on p) =
      true); let s1 := ((s.set1 (R.CHIP_DOMSTAT_BUSY.on p)).wr (R.CHIP_DOMSTAT_DOMAIN.on p) d); let e := (s.stagedEntry p);
      let new := (cleanEntry (s.entry d) e); Reachable s p ∧ ¬ busy ∧ ((∀ c ∈ s.dom.commits, c.dom ≠ d)) ∧ e.valid = true ∧
      e.size = 0 ∧ s1.commitWaits d new = false) ((entryAt awake (setFld plainDom 114 89 0))) .bar 5) ∧
    ((fun (s : State) (p : Path) (dom : BitVec 14) => let d := (dom.toNat); let busy := (s.flag (R.CHIP_DOMSTAT_BUSY.on p) =
      true); let s1 := ((s.set1 (R.CHIP_DOMSTAT_BUSY.on p)).wr (R.CHIP_DOMSTAT_DOMAIN.on p) d); let e := (s.stagedEntry p);
      let new := (cleanEntry (s.entry d) e); Reachable s p ∧ ¬ busy ∧ s1.commitWaits d new = true)
      (({ (put (withDom awake) (R.CHIP_DOMSTAT_BUSY.on .bar) 1) with dom := { ((withDom awake)).dom with commits := [{ dom := 5, path := some .bar, src := 0, arg := 0, old := 0, new := plainDom, inval := true, recalled := false }] } } : State)) .rom 5)
      ∧
    ((fun (s : State) (p : Path) (dom : BitVec 14) => let d := (dom.toNat); let busy := (s.flag (R.CHIP_DOMSTAT_BUSY.on p) =
      true); let s1 := ((s.set1 (R.CHIP_DOMSTAT_BUSY.on p)).wr (R.CHIP_DOMSTAT_DOMAIN.on p) d); let e := (s.stagedEntry p);
      let new := (cleanEntry (s.entry d) e); Reachable s p ∧ ¬ busy ∧ s1.commitWaits d new = false ∧ s1.commitStatus d new
      false = 0)
      ((entryAt ({ (withDom awake) with tier := { awake.tier with region := 4 } } : State) (setFld shutDom 287 256 1))) .bar 5)
      ∧
    ((fun (s : State) (p : Path) (dom : BitVec 14) => let d := (dom.toNat); let busy := (s.flag (R.CHIP_DOMSTAT_BUSY.on p) =
      true); let s1 := ((s.set1 (R.CHIP_DOMSTAT_BUSY.on p)).wr (R.CHIP_DOMSTAT_DOMAIN.on p) d); let e := (s.stagedEntry p);
      let new := (cleanEntry (s.entry d) e); Reachable s p ∧ ¬ busy ∧ s1.commitWaits d new = false ∧ s1.commitStatus d new
      false = 0) ((entryAt awake 0)) .bar 5) ∧
    ((fun (s : State) (p : Path) => let busy := (s.flag (R.CHIP_DOMSTAT_BUSY.on p) = true); Reachable s p ∧ ¬ busy)
      ((withDom awake)) .bar) ∧
    ((fun (s : State) (p : Path) => let busy := (s.flag (R.CHIP_DOMSTAT_BUSY.on p) = true); Reachable s p ∧ ¬ busy)
      ((withDom awake)) .rom) ∧
    ((fun (s : State) (dom : BitVec 14) => let d := (dom.toNat); ((∀ c ∈ s.dom.commits, c.dom ≠ d))) awake 5) ∧
    ((fun (s : State) (p : Path) (dom : BitVec 14) (c : Commit) => let d := (dom.toNat); s.dom.commits.find? (fun c => c.dom
      == d) = some c ∧ c.inval = true ∧ c.old.valid = false ∧ c.src = 0 ∧ c.path = some p ∧ s.dom.waiting = [])
      (({ (put (withDom awake) (R.CHIP_DOMSTAT_BUSY.on .bar) 1) with dom := { ((withDom awake)).dom with commits := [{ dom := 5, path := some .bar, src := 0, arg := 0, old := 0, new := plainDom, inval := true, recalled := false }] } } : State)) .bar 5 ({ dom := 5, path := some .bar, src := 0, arg := 0, old := 0, new := plainDom, inval := true, recalled := false }))
      ∧
    ((fun (s : State) (dom : BitVec 14) (port : Fin 32) => let d := (dom.toNat); (s.place port).on = true ∧ (s.head
      port).flit ≠ 0 ∧ (port.val, d) ∈ s.dom.decl)
      (({ (withPort awake 3) with dom := { awake.dom with decl := [(3, 5), (4, 5)] } } : State)) 5 3) ∧
    ((fun (s : State) (dom : BitVec 14) (port : Fin 32) => let d := (dom.toNat); (port.val, d) ∉ s.dom.decl) awake 5 3) ∧
    ((fun (s : State) => (s.pressure < 2 ∨ s.flag R.CHIP_TMCTL_RELEN = false)) ((awake.setReg R.CHIP_TMSTAT 0))) ∧
    ((fun (s : State) (k : Fin 16) => let cand := (s.rd (R.CHIP_TMREL_DOMAIN k)); let ports := ((List.range 32).filter fun q
      => (s.entry cand).rdPorts.testBit q || (s.entry cand).wrPorts.testBit q); 2 ≤ s.pressure ∧ s.flag R.CHIP_TMCTL_RELEN =
      true ∧ s.relCandidate k = true ∧ ((∀ i, i < k.val → s.relCandidate i = false)) ∧ ports ≠ [])
      ((put (put (put (withDom awake) R.CHIP_TMCTL_RELEN 1) (R.CHIP_TMREL_VALID 2) 1) (R.CHIP_TMREL_DOMAIN 2) 5)) 2) ∧
    ((fun (s : State) (p : Path) => Reachable s p) awake .bar) ∧
    ((fun (s : State) (p : Path) => Reachable s p)
      (({ awake with dom := { awake.dom with release := [(15, 5, [1], [1]), (14, 6, [1], [1])] } } : State)) .bar) := by
  refine ⟨?_, ?_, ?_, ?_, ?_, ?_, ?_, ?_, ?_, ?_, ?_, ?_, ?_, ?_, ?_, ?_⟩ <;> (try dsimp only) <;> decide +kernel

theorem witness_HeatAndMigrations :
    ((fun (s : State) (p : Path) (val : BitVec 32) => Reachable s p ∧ legalWrite R.CHIP_TMCTL val = true ∧ fld val 21 18 ≠
      s.rd R.CHIP_TMCTL_EPOCH) awake .bar ((awake.reg R.CHIP_TMCTL) ^^^ (3 <<< 18))) ∧
    ((fun (s : State) (p : Path) (val : BitVec 32) => Reachable s p ∧ legalWrite R.CHIP_TMCTL val = true ∧ fld val 21 18 =
      s.rd R.CHIP_TMCTL_EPOCH) awake .bar (awake.reg R.CHIP_TMCTL)) ∧
    ((fun (s : State) (p : Path) (val : BitVec 32) => Reachable s p ∧ s.flag R.CF_STAT_DEVLOST = false ∧ legalWrite
      R.CHIP_TMCTL val = false) awake .bar 0xFFFFFFFF) ∧
    ((fun (s : State) => s.tier.epoch < 2 ^ 64 - 1) awake) ∧
    ((fun (s : State) => s.tier.epoch < 2 ^ 64 - 1)
      (({ awake with tier := { awake.tier with epoch := 2 ^ 64 - 2 } } : State))) ∧
    ((fun (s : State) (o : Fin 16) (k : Nat) => let place := (s.tier.sweep.get o); let r := (s.tier.resync.get o); let room
      := (fun (k : Nat) => (s.tier.mcache.get (s.mapSet k)).length < 16); let held := (fun (k : Nat) => s.tier.inDram.get k
      = false ∧ room k); r = 0 ∧ s.nextOwned o place = some k ∧ held k)
      (({ ((withDom awake).setPage 0 (setFld (0 : PageEntry) 15 8 77)) with tier := { (((withDom awake).setPage 0 (setFld (0 : PageEntry) 15 8 77))).tier with sweep := (((withDom awake).setPage 0 (setFld (0 : PageEntry) 15 8 77))).tier.sweep.put 0 0, resync := (((withDom awake).setPage 0 (setFld (0 : PageEntry) 15 8 77))).tier.resync.put 0 0, epoch := 300 } } : State)) 0 (((({ ((withDom awake).setPage 0 (setFld (0 : PageEntry) 15 8 77)) with tier := { (((withDom awake).setPage 0 (setFld (0 : PageEntry) 15 8 77))).tier with sweep := (((withDom awake).setPage 0 (setFld (0 : PageEntry) 15 8 77))).tier.sweep.put 0 0, resync := (((withDom awake).setPage 0 (setFld (0 : PageEntry) 15 8 77))).tier.resync.put 0 0, epoch := 300 } } : State)).nextOwned 0 0).get!))
      ∧
    ((fun (s : State) (o : Fin 16) (k : Nat) => let place := (s.tier.sweep.get o); let r := (s.tier.resync.get o); let room
      := (fun (k : Nat) => (s.tier.mcache.get (s.mapSet k)).length < 16); let held := (fun (k : Nat) => s.tier.inDram.get k
      = false ∧ room k); r = 0 ∧ s.nextOwned o place = some k ∧ held k)
      (({ ((withDom awake).setPage 0 (setFld (0 : PageEntry) 15 8 77)) with tier := { (((withDom awake).setPage 0 (setFld (0 : PageEntry) 15 8 77))).tier with sweep := (((withDom awake).setPage 0 (setFld (0 : PageEntry) 15 8 77))).tier.sweep.put 0 5, resync := (((withDom awake).setPage 0 (setFld (0 : PageEntry) 15 8 77))).tier.resync.put 0 0, epoch := 300 } } : State)) 0 (((({ ((withDom awake).setPage 0 (setFld (0 : PageEntry) 15 8 77)) with tier := { (((withDom awake).setPage 0 (setFld (0 : PageEntry) 15 8 77))).tier with sweep := (((withDom awake).setPage 0 (setFld (0 : PageEntry) 15 8 77))).tier.sweep.put 0 5, resync := (((withDom awake).setPage 0 (setFld (0 : PageEntry) 15 8 77))).tier.resync.put 0 0, epoch := 300 } } : State)).nextOwned 0 5).get!))
      ∧
    ((fun (s : State) (o : Fin 16) => let place := (s.tier.sweep.get o); s.nextOwned o place = none) awake 0) ∧
    ((fun (s : State) (o : Fin 16) => let r := (s.tier.resync.get o); r = 0) awake 0) ∧
    ((fun (s : State) (o : Fin 16) (k : Nat) => let place := (s.tier.sweep.get o); let stuck := (fun (k : Nat) =>
      s.tier.inDram.get k = true ∧ s.metaRoom k = false); s.nextOwned o place = some k ∧ stuck k)
      ((let s := ({ ((withDom awake).setPage 0 (setFld (0 : PageEntry) 15 8 77)) with tier := { (((withDom awake).setPage 0 (setFld (0 : PageEntry) 15 8 77))).tier with sweep := (((withDom awake).setPage 0 (setFld (0 : PageEntry) 15 8 77))).tier.sweep.put 0 0, resync := (((withDom awake).setPage 0 (setFld (0 : PageEntry) 15 8 77))).tier.resync.put 0 0, epoch := 300 } } : State); { s with boot := { s.boot with initTotal := 9 }, tier := { s.tier with inDram := s.tier.inDram.put 0 true } })) 0 ((((let s := ({ ((withDom awake).setPage 0 (setFld (0 : PageEntry) 15 8 77)) with tier := { (((withDom awake).setPage 0 (setFld (0 : PageEntry) 15 8 77))).tier with sweep := (((withDom awake).setPage 0 (setFld (0 : PageEntry) 15 8 77))).tier.sweep.put 0 0, resync := (((withDom awake).setPage 0 (setFld (0 : PageEntry) 15 8 77))).tier.resync.put 0 0, epoch := 300 } } : State); { s with boot := { s.boot with initTotal := 9 }, tier := { s.tier with inDram := s.tier.inDram.put 0 true } })).nextOwned 0 0).get!))
      ∧
    ((fun (s : State) (o : Fin 16) (k : Nat) => let r := (s.tier.resync.get o); let stuck := (fun (k : Nat) =>
      s.tier.inDram.get k = true ∧ s.metaRoom k = false); r ≠ 0 ∧ s.nextOwned o (r - 1) = some k ∧ stuck k)
      ((let s := ({ ((withDom awake).setPage 0 (setFld (0 : PageEntry) 15 8 77)) with tier := { (((withDom awake).setPage 0 (setFld (0 : PageEntry) 15 8 77))).tier with sweep := (((withDom awake).setPage 0 (setFld (0 : PageEntry) 15 8 77))).tier.sweep.put 0 0, resync := (((withDom awake).setPage 0 (setFld (0 : PageEntry) 15 8 77))).tier.resync.put 0 1, epoch := 300 } } : State); { s with boot := { s.boot with initTotal := 9 }, tier := { s.tier with inDram := s.tier.inDram.put 0 true } })) 0 ((((let s := ({ ((withDom awake).setPage 0 (setFld (0 : PageEntry) 15 8 77)) with tier := { (((withDom awake).setPage 0 (setFld (0 : PageEntry) 15 8 77))).tier with sweep := (((withDom awake).setPage 0 (setFld (0 : PageEntry) 15 8 77))).tier.sweep.put 0 0, resync := (((withDom awake).setPage 0 (setFld (0 : PageEntry) 15 8 77))).tier.resync.put 0 1, epoch := 300 } } : State); { s with boot := { s.boot with initTotal := 9 }, tier := { s.tier with inDram := s.tier.inDram.put 0 true } })).nextOwned 0 0).get!))
      ∧
    ((fun (s : State) (o : Fin 16) (k : Nat) => let r := (s.tier.resync.get o); let room := (fun (k : Nat) =>
      (s.tier.mcache.get (s.mapSet k)).length < 16); let held := (fun (k : Nat) => s.tier.inDram.get k = false ∧ room k); r
      ≠ 0 ∧ s.nextOwned o (r - 1) = some k ∧ held k)
      (({ ((withDom awake).setPage 0 (setFld (0 : PageEntry) 15 8 77)) with tier := { (((withDom awake).setPage 0 (setFld (0 : PageEntry) 15 8 77))).tier with sweep := (((withDom awake).setPage 0 (setFld (0 : PageEntry) 15 8 77))).tier.sweep.put 0 0, resync := (((withDom awake).setPage 0 (setFld (0 : PageEntry) 15 8 77))).tier.resync.put 0 1, epoch := 300 } } : State)) 0 (((({ ((withDom awake).setPage 0 (setFld (0 : PageEntry) 15 8 77)) with tier := { (((withDom awake).setPage 0 (setFld (0 : PageEntry) 15 8 77))).tier with sweep := (((withDom awake).setPage 0 (setFld (0 : PageEntry) 15 8 77))).tier.sweep.put 0 0, resync := (((withDom awake).setPage 0 (setFld (0 : PageEntry) 15 8 77))).tier.resync.put 0 1, epoch := 300 } } : State)).nextOwned 0 0).get!))
      ∧
    ((fun (s : State) (o : Fin 16) => let r := (s.tier.resync.get o); r ≠ 0 ∧ s.nextOwned o (r - 1) = none)
      (({ awake with tier := { (awake).tier with sweep := (awake).tier.sweep.put 0 0, resync := (awake).tier.resync.put 0 5, epoch := 300 } } : State)) 0)
      ∧
    ((fun (s : State) => (s.pressure < 2 ∨ s.sparsest = none)) awake) ∧
    ((fun (s : State) => (s.pressure < 2 ∨ s.sparsest = none)) ((awake.setReg R.CHIP_TMSTAT 0))) ∧
    ((fun (s : State) (c : Nat) (y : Nat) => 2 ≤ s.pressure ∧ s.sparsest = some (c, y))
      ((movable.setReg R.CHIP_TMSTAT 0xF0000000)) 0 0) ∧
    ((fun (s : State) (mig : Nat) => s.mig mig = none) awake 1) ∧
    ((fun (s : State) (mig : Nat) (m : Mig) => s.mig mig = some m ∧ m.phase = .written ∧ s.migDead m = false ∧ m.redo = 0 ∧
      ((∀ g, g < 4 → s.granuleBusy m (m.dpa / 1024 + g) = false)))
      (({ (withDom awake) with tier := { ((withDom awake)).tier with migs := [({ (default : Mig) with id := 1, dom := 5, entry := plainDom, page := 0, dpa := 0, kind := .promote, phase := .written, dest := 6 } : Mig), { (default : Mig) with id := 2, page := 9 }] } } : State)) 1 (({ (default : Mig) with id := 1, dom := 5, entry := plainDom, page := 0, dpa := 0, kind := .promote, phase := .written, dest := 6 } : Mig)))
      ∧
    ((fun (s : State) (mig : Nat) (m : Mig) => s.mig mig = some m ∧ m.phase = .written ∧ s.migDead m = true)
      (({ (let s := withDom awake; { s with eng := { s.eng with slots := s.eng.slots.put 5 { st := 3, k1 := 0, k2 := 0, kt := 0 } } }) with tier := { ((let s := withDom awake; { s with eng := { s.eng with slots := s.eng.slots.put 5 { st := 3, k1 := 0, k2 := 0, kt := 0 } } })).tier with migs := [({ (default : Mig) with id := 1, dom := 5, entry := plainDom, page := 0, dpa := 0, kind := .promote, phase := .written, dest := 6 } : Mig), { (default : Mig) with id := 2, page := 9 }] } } : State)) 1 (({ (default : Mig) with id := 1, dom := 5, entry := plainDom, page := 0, dpa := 0, kind := .promote, phase := .written, dest := 6 } : Mig)))
      ∧
    ((fun (s : State) (mig : Nat) (m : Mig) (g : Nat) => s.mig mig = some m ∧ m.phase = .written ∧ s.migDead m = false ∧ g <
      4 ∧ s.granuleBusy m (m.dpa / 1024 + g) = true)
      (({ (let s := withDom awake; { s with kind := { s.kind with fills := [{ (default : Fill) with granule := 3 }] } }) with tier := { ((let s := withDom awake; { s with kind := { s.kind with fills := [{ (default : Fill) with granule := 3 }] } })).tier with migs := [({ (default : Mig) with id := 1, dom := 5, entry := plainDom, page := 0, dpa := 0, kind := .promote, phase := .written, dest := 6 } : Mig), { (default : Mig) with id := 2, page := 9 }] } } : State)) 1 (({ (default : Mig) with id := 1, dom := 5, entry := plainDom, page := 0, dpa := 0, kind := .promote, phase := .written, dest := 6 } : Mig)) 3)
      ∧
    ((fun (s : State) (mig : Nat) (m : Mig) => s.mig mig = some m ∧ m.phase ≠ .held)
      (({ (withDom awake) with tier := { ((withDom awake)).tier with migs := [({ (default : Mig) with id := 1, dom := 5, entry := plainDom, page := 0, dpa := 0, kind := .promote, phase := .written, dest := 6 } : Mig), { (default : Mig) with id := 2, page := 9 }] } } : State)) 1 (({ (default : Mig) with id := 1, dom := 5, entry := plainDom, page := 0, dpa := 0, kind := .promote, phase := .written, dest := 6 } : Mig)))
      ∧
    ((fun (s : State) (mig : Nat) (m : Mig) => let room := (fun (k : Nat) => (s.tier.mcache.get (s.mapSet k)).length < 16);
      s.mig mig = some m ∧ m.phase = .held ∧ m.redo = 0 ∧ room m.page)
      (({ (withDom awake) with tier := { ((withDom awake)).tier with migs := [({ (default : Mig) with id := 1, dom := 5, entry := plainDom, page := 0, dpa := 0, kind := .promote, phase := .held, dest := 6 } : Mig), { (default : Mig) with id := 2, page := 9 }] } } : State)) 1 (({ (default : Mig) with id := 1, dom := 5, entry := plainDom, page := 0, dpa := 0, kind := .promote, phase := .held, dest := 6 } : Mig)))
      ∧
    ((fun (s : State) (mig : Nat) (m : Mig) => let room := (fun (k : Nat) => (s.tier.mcache.get (s.mapSet k)).length < 16);
      s.mig mig = some m ∧ m.phase = .held ∧ m.redo = 0 ∧ room m.page)
      (({ (withDom awake) with tier := { ((withDom awake)).tier with migs := [({ (default : Mig) with id := 1, dom := 5, entry := plainDom, page := 0, dpa := 0, kind := .relocate, phase := .held, dest := 6 } : Mig), { (default : Mig) with id := 2, page := 9 }] } } : State)) 1 (({ (default : Mig) with id := 1, dom := 5, entry := plainDom, page := 0, dpa := 0, kind := .relocate, phase := .held, dest := 6 } : Mig)))
      ∧
    ((fun (s : State) (mig : Nat) (m : Mig) => let room := (fun (k : Nat) => (s.tier.mcache.get (s.mapSet k)).length < 16);
      s.mig mig = some m ∧ m.phase = .held ∧ m.redo = 0 ∧ room m.page)
      (({ (withDom awake) with tier := { ((withDom awake)).tier with migs := [({ (default : Mig) with id := 1, dom := 5, entry := plainDom, page := 0, dpa := 0, kind := .demote, phase := .held, dest := 6 } : Mig), { (default : Mig) with id := 2, page := 9 }] } } : State)) 1 (({ (default : Mig) with id := 1, dom := 5, entry := plainDom, page := 0, dpa := 0, kind := .demote, phase := .held, dest := 6 } : Mig))) := by
  refine ⟨?_, ?_, ?_, ?_, ?_, ?_, ?_, ?_, ?_, ?_, ?_, ?_, ?_, ?_, ?_, ?_, ?_, ?_, ?_, ?_, ?_, ?_, ?_, ?_⟩ <;> (try dsimp only) <;> decide +kernel

theorem witness_HostRequestsAndGrants :
    ((fun (s : State) (port : Fin 32) => s.portOpen port = false) awake 5) ∧
    ((fun (s : State) (port : Fin 32) => s.portOpen port = false) awake 31) ∧
    ((fun (s : State) (port : Fin 32) => s.m2sCredit port false = false)
      ((let s := (decoded (withDom awake) 5); { s with rgl := { s.rgl with admq := s.rgl.admq.put 2 (List.replicate 128 { (default : Waiting) with req := { (default : Req) with op := .hostRd .any, agent := .host 5 } }) } })) 5)
      ∧
    ((fun (s : State) (port : Fin 32) => s.m2sCredit port true = false)
      ((let s := (decoded (withDom awake) 5); { s with rgl := { s.rgl with admq := s.rgl.admq.put 2 (List.replicate 64 { (default : Waiting) with req := { (default : Req) with op := .hostWr .any, agent := .host 5 } }) } })) 5)
      ∧
    ((fun (s : State) (port : Fin 32) (hpa : BitVec 64) (dec : Nat) (line : Nat) (d : Nat) (e : Entry) => MayAsk s port hpa
      dec line d e false) ((decoded (withDom awake) 5)) 5 0x100040 3 64 5 plainDom) ∧
    ((fun (s : State) (port : Fin 32) (hpa : BitVec 64) (dec : Nat) (line : Nat) (d : Nat) (e : Entry) => MayAsk s port hpa
      dec line d e false) ((decoded (withDom awake) 5)) 5 0x2FFFFF 3 0x1FFFC0 5 plainDom) ∧
    ((fun (s : State) (port : Fin 32) (hpa : BitVec 64) (dec : Nat) (line : Nat) (d : Nat) (e : Entry) => let loose :=
      (s.biFor port line = none); MayAsk s port hpa dec line d e true ∧ loose)
      ((decoded (withDom awake) 5)) 5 0x100040 3 64 5 plainDom) ∧
    ((fun (s : State) (port : Fin 32) (hpa : BitVec 64) (dec : Nat) (line : Nat) (d : Nat) (e : Entry) => let loose :=
      (s.biFor port line = none); MayAsk s port hpa dec line d e true ∧ loose)
      ((let s := (decoded (withDom awake) 5); { s with rgl := { s.rgl with admq := s.rgl.admq.put 2 (List.replicate 128 { (default : Waiting) with req := { (default : Req) with op := .hostRd .any, agent := .host 5 } }) } })) 5 0x100040 3 64 5 plainDom)
      ∧
    ((fun (s : State) (port : Fin 32) (hpa : BitVec 64) (dec : Nat) (line : Nat) (d : Nat) (e : Entry) => MayAsk s port hpa
      dec line d e true) ((decoded (withDom awake) 5)) 5 0x100040 3 64 5 plainDom) ∧
    ((fun (s : State) (port : Fin 32) (hpa : BitVec 64) => let at_ := (hpaLine hpa); let undecoded := (s.translate port at_
      = none); let asks := (fun (w : Bool) => HostOpen s port ∧ s.m2sCredit port w = true); asks false ∧ undecoded)
      ((decoded (withDom awake) 5)) 5 0xFFFC0) ∧
    ((fun (s : State) (port : Fin 32) (hpa : BitVec 64) => let at_ := (hpaLine hpa); let undecoded := (s.translate port at_
      = none); let asks := (fun (w : Bool) => HostOpen s port ∧ s.m2sCredit port w = true); asks false ∧ undecoded)
      ((withPort (withDom awake) 5)) 5 0x100040) ∧
    ((fun (s : State) (port : Fin 32) (hpa : BitVec 64) => let at_ := (hpaLine hpa); let undecoded := (s.translate port at_
      = none); let asks := (fun (w : Bool) => HostOpen s port ∧ s.m2sCredit port w = true); asks true ∧ undecoded)
      ((decoded (withDom awake) 5)) 5 0x10100000) ∧
    ((fun (s : State) (port : Fin 32) => let asks := (fun (w : Bool) => HostOpen s port ∧ s.m2sCredit port w = true); asks
      false) ((decoded (withDom awake) 5)) 5) ∧
    ((fun (s : State) (port : Fin 32) => let asks := (fun (w : Bool) => HostOpen s port ∧ s.m2sCredit port w = true); asks
      true) ((decoded (withDom awake) 5)) 5) ∧
    ((fun (s : State) (port : Fin 32) => HostOpen s port) ((decoded (withDom awake) 5)) 5) ∧
    ((fun (s : State) (port : Fin 32) (hpa : BitVec 64) (dec : Nat) (line : Nat) (b : Nat × Nat × Nat × Nat) => let at_ :=
      (hpaLine hpa); HostOpen s port ∧ s.translate port at_ = some (dec, line) ∧ s.biFor port line = some b)
      ((biAt (decoded (withDom awake) 5) 5 64 biInv)) 5 0x100040 3 64 ((5, 64, biInv, 0))) ∧
    ((fun (s : State) (g : Fin 16) => let q := (s.rgl.admq.get g); q = []) ((decoded (withDom awake) 5)) 2) ∧
    ((fun (s : State) => s.serving = false) held) ∧
    ((fun (s : State) => s.serving = false)
      (({ held with rgl := { (held).rgl with admq := (held).rgl.admq.put 2 [({ (default : Waiting) with req := { (default : Req) with dom := 5, entry := plainDom, agent := .host 5, op := .hostRd .any, addr := 64 }, master := 80, lines := 1, accepted := false } : Waiting)] } } : State)))
      ∧
    ((fun (s : State) (g : Fin 16) (w : Waiting) => let q := (s.rgl.admq.get g); s.serving = true ∧ q = [w] ∧ w.accepted =
      true ∧ s.heldBack w.req = false ∧ s.mayAdmit g w = true)
      (({ (withDom awake) with rgl := { ((withDom awake)).rgl with admq := ((withDom awake)).rgl.admq.put 2 [({ (default : Waiting) with req := { (default : Req) with dom := 5, entry := plainDom, agent := .host 5, op := .hostRd .any, addr := 64 }, master := 80, lines := 1, accepted := true } : Waiting)] } } : State)) 2 (({ (default : Waiting) with req := { (default : Req) with dom := 5, entry := plainDom, agent := .host 5, op := .hostRd .any, addr := 64 }, master := 80, lines := 1, accepted := true } : Waiting)))
      ∧
    ((fun (s : State) (g : Fin 16) (w : Waiting) => let q := (s.rgl.admq.get g); s.serving = true ∧ q = [w] ∧ w.accepted =
      false ∧ s.heldBack w.req = false ∧ s.mayAdmit g w = true ∧ s.flag R.RGL_CTL_EN.com = false)
      (({ (put (withDom awake) R.RGL_CTL_EN.com 0) with rgl := { ((put (withDom awake) R.RGL_CTL_EN.com 0)).rgl with admq := ((put (withDom awake) R.RGL_CTL_EN.com 0)).rgl.admq.put 2 [({ (default : Waiting) with req := { (default : Req) with dom := 5, entry := plainDom, agent := .host 5, op := .hostRd .any, addr := 64 }, master := 80, lines := 1, accepted := false } : Waiting)] } } : State)) 2 (({ (default : Waiting) with req := { (default : Req) with dom := 5, entry := plainDom, agent := .host 5, op := .hostRd .any, addr := 64 }, master := 80, lines := 1, accepted := false } : Waiting)))
      ∧
    ((fun (s : State) => s.nextBacking = none) ((decoded (withDom awake) 5))) ∧
    ((fun (s : State) (n : Nat) (i : Nat) (t : HomeTx) => s.nextBacking = some n ∧ s.tier.waitq.get n = [i] ∧
      s.tier.overq.get n = [] ∧ s.tx i = some t ∧ s.pressure ≠ 3 ∧ s.waitingDraw t = 0 ∧ s.migHolds t.line = false ∧ (s.page
      (t.req.entry.mapKey t.req.addr)).state = 1)
      (({ (((memTx (withDom (awake.setReg R.CHIP_TMSTAT 0)) 0 plainDom).setPage (plainDom.mapKey 0) fwPage)) with tier := { ((((memTx (withDom (awake.setReg R.CHIP_TMSTAT 0)) 0 plainDom).setPage (plainDom.mapKey 0) fwPage))).tier with waitq := ((((memTx (withDom (awake.setReg R.CHIP_TMSTAT 0)) 0 plainDom).setPage (plainDom.mapKey 0) fwPage))).tier.waitq.put 4 [1] } } : State)) 4 1 (((memTx awake 0 plainDom).coh.txs.headD default)))
      ∧
    ((fun (s : State) (n : Nat) (i : Nat) (t : HomeTx) => s.nextBacking = some n ∧ s.tier.waitq.get n = [i] ∧
      s.tier.overq.get n = [] ∧ s.tx i = some t ∧ s.pressure ≠ 3 ∧ s.migHolds t.line = false ∧ 0 < s.waitingDraw t ∧
      s.mayDraw (s.waitingDraw t) = false)
      (({ (let s := (memTx (withDom (awake.setReg R.CHIP_TMSTAT 0)) 0 plainDom); ({ s with coh := { s.coh with txs := s.coh.txs.map fun t => { t with req := { t.req with op := .hostWr .any } } } } : State)) with tier := { ((let s := (memTx (withDom (awake.setReg R.CHIP_TMSTAT 0)) 0 plainDom); ({ s with coh := { s.coh with txs := s.coh.txs.map fun t => { t with req := { t.req with op := .hostWr .any } } } } : State))).tier with waitq := ((let s := (memTx (withDom (awake.setReg R.CHIP_TMSTAT 0)) 0 plainDom); ({ s with coh := { s.coh with txs := s.coh.txs.map fun t => { t with req := { t.req with op := .hostWr .any } } } } : State))).tier.waitq.put 4 [1] } } : State)) 4 1 ((((let s := (memTx (withDom (awake.setReg R.CHIP_TMSTAT 0)) 0 plainDom); ({ s with coh := { s.coh with txs := s.coh.txs.map fun t => { t with req := { t.req with op := .hostWr .any } } } } : State))).coh.txs.headD default)))
      ∧
    ((fun (s : State) => s.pressure = 3 ∧ s.nextBacking.all (fun n => ((s.tier.waitq.get n).head?.bind s.tx).isSome) = true)
      (({ (memTx (withDom awake) 0 plainDom) with tier := { ((memTx (withDom awake) 0 plainDom)).tier with waitq := ((memTx (withDom awake) 0 plainDom)).tier.waitq.put 4 [1] } } : State)))
      ∧
    ((fun (s : State) => s.pressure = 3 ∧ s.nextBacking.all (fun n => ((s.tier.waitq.get n).head?.bind s.tx).isSome) = true)
      ((decoded (withDom awake) 5))) := by
  refine ⟨?_, ?_, ?_, ?_, ?_, ?_, ?_, ?_, ?_, ?_, ?_, ?_, ?_, ?_, ?_, ?_, ?_, ?_, ?_, ?_, ?_, ?_, ?_, ?_, ?_, ?_⟩ <;> (try dsimp only) <;> decide +kernel

theorem witness_RegulationAndShaping :
    ((fun (s : State) => s.rgl.owed = Tab.empty) awake) ∧
    ((fun (s : State) => s.rgl.owed = Tab.empty)
      (({ awake with rgl := { awake.rgl with used := ⟨[(3, 2 ^ 26)]⟩, admitted := ⟨[(1, 4)]⟩ } } : State))) ∧
    ((fun (s : State) (off : Nat) (v : BitVec 32) => s.rgl.owed = Tab.empty ∧ s.rgl.pending = some ⟨[(off, v)]⟩ ∧ off < 2 ^
      28) (({ awake with rgl := { awake.rgl with pending := some ⟨[(0x900, 5)]⟩ } } : State)) 0x900 5) ∧
    ((fun (s : State) => ((∀ r, r < 4 → s.waitingWeight r = 0))) awake) ∧
    ((fun (s : State) (r : Nat) => r < 4 ∧ s.waitingWeight r ≠ 0)
      (({ ({ (put awake ((R.RGL_MST_WEIGHT 80).com) 3) with rgl := { awake.rgl with pool := ⟨[(0, 5), (2, 9)]⟩ } } : State) with rgl := { (({ (put awake ((R.RGL_MST_WEIGHT 80).com) 3) with rgl := { awake.rgl with pool := ⟨[(0, 5), (2, 9)]⟩ } } : State)).rgl with admq := (({ (put awake ((R.RGL_MST_WEIGHT 80).com) 3) with rgl := { awake.rgl with pool := ⟨[(0, 5), (2, 9)]⟩ } } : State)).rgl.admq.put 5 [({ (default : Waiting) with req := { (default : Req) with dom := 5, entry := plainDom, agent := .host 5, op := .hostRd .any, addr := 64 }, master := 80, lines := 1, accepted := false } : Waiting)] } } : State)) 1)
      ∧
    ((fun (s : State) (p : Path) => let busy := (s.flag (R.RGL_STAT_BUSY.on p) = true); Reachable s p ∧ busy)
      ((put awake (R.RGL_STAT_BUSY.on .bar) 1)) .bar) ∧
    ((fun (s : State) (p : Path) => let busy := (s.flag (R.RGL_STAT_BUSY.on p) = true); let ready := (s.flag
      R.CHIP_BOOTSTAT_READY = true); s.boot.hold = false ∧ s.pathShut p = false ∧ s.pow.target = none ∧ s.rd R.PS_STAT_STATE
      = 0 ∧ ¬ busy ∧ ¬ ready) ((put awake R.CHIP_BOOTSTAT_READY 0)) .bar) ∧
    ((fun (s : State) (p : Path) => let busy := (s.flag (R.RGL_STAT_BUSY.on p) = true); let ready := (s.flag
      R.CHIP_BOOTSTAT_READY = true); s.boot.hold = false ∧ s.pathShut p = false ∧ s.pow.target = none ∧ s.rd R.PS_STAT_STATE
      = 0 ∧ ¬ busy ∧ ¬ ready) (({ State.reset with boot := { State.reset.boot with hold := false } } : State)) .rom) ∧
    ((fun (s : State) (p : Path) => let busy := (s.flag (R.RGL_STAT_BUSY.on p) = true); let ready := (s.flag
      R.CHIP_BOOTSTAT_READY = true); Reachable s p ∧ ¬ busy ∧ ready) awake .bar) ∧
    ((fun (s : State) (p : Path) => let busy := (s.flag (R.RGL_STAT_BUSY.on p) = true); let ready := (s.flag
      R.CHIP_BOOTSTAT_READY = true); Reachable s p ∧ ¬ busy ∧ ready) ((put awake ((R.RGL_PACE_PQR 0).on .bar) 17)) .bar) ∧
    ((fun (s : State) (p : Path) => let busy := (s.flag (R.RGL_STAT_BUSY.on p) = true); Reachable s p ∧ ¬ busy) awake .bar)
      ∧
    ((fun (s : State) (x : Fin 32) => s.egressPick x = none) awake 5) ∧
    ((fun (s : State) (x : Fin 32) (e : Egress) (h : Nat) => s.egressPick x = some e ∧ e.toHost = true ∧ e.req.agent = .host
      h ∧ (s.head h).flit = 0)
      (({ awake with rgl := { (awake).rgl with egress := (awake).rgl.egress.put 5 [({ (default : Egress) with toHost := true, isData := true, data := 7, req := { (default : Req) with agent := .host 5, tag := 9 } } : Egress)] } } : State)) 5 (({ (default : Egress) with toHost := true, isData := true, data := 7, req := { (default : Req) with agent := .host 5, tag := 9 } } : Egress)) 5)
      ∧
    ((fun (s : State) (x : Fin 32) (e : Egress) (h : Nat) => s.egressPick x = some e ∧ e.toHost = true ∧ e.req.agent = .host
      h ∧ (s.head h).flit ≠ 0 ∧ e.req.tr.on = false ∧ e.credit = 0)
      (({ (withPort awake 5) with rgl := { ((withPort awake 5)).rgl with egress := ((withPort awake 5)).rgl.egress.put 5 [({ (default : Egress) with toHost := true, isData := true, data := 7, req := { (default : Req) with agent := .host 5, tag := 9 } } : Egress)] } } : State)) 5 (({ (default : Egress) with toHost := true, isData := true, data := 7, req := { (default : Req) with agent := .host 5, tag := 9 } } : Egress)) 5)
      ∧
    ((fun (s : State) (x : Fin 32) (e : Egress) (h : Nat) => s.egressPick x = some e ∧ e.toHost = true ∧ e.req.agent = .host
      h ∧ (s.head h).flit ≠ 0 ∧ e.req.tr.on = false ∧ e.credit = 0)
      (({ (withPort awake 5) with rgl := { ((withPort awake 5)).rgl with egress := ((withPort awake 5)).rgl.egress.put 5 [({ (default : Egress) with toHost := true, isData := false, req := { (default : Req) with agent := .host 5, tag := 9 } } : Egress)] } } : State)) 5 (({ (default : Egress) with toHost := true, isData := false, req := { (default : Req) with agent := .host 5, tag := 9 } } : Egress)) 5)
      ∧
    ((fun (s : State) (x : Fin 32) (e : Egress) => s.egressPick x = some e ∧ e.toHost = false ∧ e.req.tr.on = false ∧
      s.peerLost e.msg.dst = false)
      (({ awake with rgl := { (awake).rgl with egress := (awake).rgl.egress.put 5 [({ (default : Egress) with toHost := false, msg := { (default : Msg) with opc := 0x44, dst := 3 } } : Egress)] } } : State)) 5 (({ (default : Egress) with toHost := false, msg := { (default : Msg) with opc := 0x44, dst := 3 } } : Egress))) := by
  refine ⟨?_, ?_, ?_, ?_, ?_, ?_, ?_, ?_, ?_, ?_, ?_, ?_, ?_, ?_, ?_, ?_⟩ <;> (try dsimp only) <;> decide +kernel

theorem witness_RequestsSnoopsAndResponses :
    ((fun (s : State) (src : Fin 16) => (s.lost = true ∨ s.peerLost src = true)) ((put awake R.CF_STAT_DEVLOST 1)) 3) ∧
    ((fun (s : State) (src : Fin 16) => (s.lost = true ∨ s.peerLost src = true))
      ((put awake (R.CF_STAT_PEERLOST.bitAt 3) 1)) 3) ∧
    ((fun (s : State) (src : Fin 16) (addr : BitVec 44) => let a := (addr.toNat % 2 ^ 40 * 64); let notHeld := (PeerOpen s
      src ∧ NoWork s a ∧ s.peerWay a = none); notHeld) ((withDom awake)) 3 1) ∧
    ((fun (s : State) (src : Fin 16) (addr : BitVec 44) => let a := (addr.toNat % 2 ^ 40 * 64); let notHeld := (PeerOpen s
      src ∧ NoWork s a ∧ s.peerWay a = none); notHeld) awake 3 0xFFFFFFFFFFF) ∧
    ((fun (s : State) (src : Fin 16) (addr : BitVec 44) (d : Nat) (e : Entry) (w : Nat) => let a := (addr.toNat % 2 ^ 40 *
      64); PeerOpen s src ∧ NoWork s a ∧ s.peerWay a = some (d, e, w) ∧ s.ownHosts (e.slice a) a false = [] ∧ (s.kLine
      (e.slice a) (kSet a) w).st = .peerM)
      ((cached (awake.setEntry 5 (setFld plainDom 195 192 3)) 64 .peerM)) 3 1 5 ((setFld plainDom 195 192 3)) 0) ∧
    ((fun (s : State) (src : Fin 16) (addr : BitVec 44) (t : ReqTrack) => let a := (addr.toNat % 2 ^ 40 * 64); t ∈
      s.coh.reqs ∧ PeerOpen s src ∧ t.line / 64 = a / 64 ∧ t.wait = .isd)
      ((tracking (awake.setEntry 5 (setFld plainDom 195 192 3)) 3 64 .isd)) 3 1 (((tracking (awake.setEntry 5 (setFld plainDom 195 192 3)) 3 64 .isd).coh.reqs.headD default))) := by
  refine ⟨?_, ?_, ?_, ?_, ?_, ?_⟩ <;> (try dsimp only) <;> decide +kernel

theorem witness_RepliesWritebacksAndBackInvalidation :
    ((fun (s : State) (src : Fin 16) (txn : BitVec 12) (t : ReqTrack) => let reach := (PeerOpen s src); reach ∧ Tracks s src
      txn t ∧ t.wait = .iwa)
      ((tracking (awake.setEntry 5 (setFld plainDom 195 192 3)) 3 64 .iwa)) 3 9 ((((tracking (awake.setEntry 5 (setFld plainDom 195 192 3)) 3 64 .iwa)).coh.reqs.headD default)))
      ∧
    ((fun (s : State) (src : Fin 16) (txn : BitVec 12) (t : ReqTrack) => let reach := (PeerOpen s src); reach ∧ Tracks s src
      txn t ∧ (t.wait = .mia ∨ t.wait = .evt))
      ((tracking (awake.setEntry 5 (setFld plainDom 195 192 3)) 3 64 .mia)) 3 9 ((((tracking (awake.setEntry 5 (setFld plainDom 195 192 3)) 3 64 .mia)).coh.reqs.headD default)))
      ∧
    ((fun (s : State) (src : Fin 16) (txn : BitVec 12) (t : ReqTrack) => let reach := (PeerOpen s src); reach ∧ Tracks s src
      txn t ∧ (t.wait = .mia ∨ t.wait = .evt))
      ((tracking (awake.setEntry 5 (setFld plainDom 195 192 3)) 3 64 .evt)) 3 9 ((((tracking (awake.setEntry 5 (setFld plainDom 195 192 3)) 3 64 .evt)).coh.reqs.headD default)))
      ∧
    ((fun (s : State) (src : Fin 16) (txn : BitVec 12) => let reach := (PeerOpen s src); let alone := (∀ t ∈ s.coh.reqs,
      t.txn ≠ txn.toNat); let noMirror := (∀ x ∈ s.coh.mirOut, x.1 ≠ txn.toNat); reach ∧ alone ∧ noMirror)
      ((awake.setEntry 5 (setFld plainDom 195 192 3))) 2 9) ∧
    ((fun (s : State) (src : Fin 16) (txn : BitVec 12) (t : ReqTrack) => let reach := (PeerOpen s src); reach ∧ Tracks s src
      txn t ∧ (t.wait = .isd ∨ t.wait = .imd ∨ t.wait = .iwa))
      ((tracking (awake.setEntry 5 (setFld plainDom 195 192 3)) 3 64 .imd)) 3 9 ((((tracking (awake.setEntry 5 (setFld plainDom 195 192 3)) 3 64 .imd)).coh.reqs.headD default)))
      ∧
    ((fun (s : State) (src : Fin 16) (txn : BitVec 12) (t : ReqTrack) => let reach := (PeerOpen s src); reach ∧ Tracks s src
      txn t ∧ (t.wait = .isd ∨ t.wait = .imd ∨ t.wait = .iwa))
      ((tracking (awake.setEntry 5 (setFld plainDom 195 192 3)) 3 64 .iwa)) 3 9 ((((tracking (awake.setEntry 5 (setFld plainDom 195 192 3)) 3 64 .iwa)).coh.reqs.headD default)))
      ∧
    ((fun (s : State) (src : Fin 16) (txn : BitVec 12) (t : ReqTrack) (w : Nat) => let reach := (PeerOpen s src); reach ∧
      Tracks s src txn t ∧ t.wait = .smd ∧ s.kWay t.req.slice t.req.addr = some w ∧ s.ownHosts t.req.slice t.req.addr false
      = [])
      (((tracking (awake.setEntry 5 (setFld plainDom 195 192 3)) 3 64 .smd).setKLine 0 1 0 { st := .peerS, tag := 0, blk := false, poison := false, data := 7 })) 3 9 ((((tracking (awake.setEntry 5 (setFld plainDom 195 192 3)) 3 64 .smd)).coh.reqs.headD default)) 0)
      ∧
    ((fun (s : State) (src : Fin 16) (addr : BitVec 44) => let a := (addr.toNat % 2 ^ 40 * 64); let reach := (PeerOpen s
      src); reach ∧ s.servedDomain a = none ∧ s.coh.txs = []) awake 2 1) ∧
    ((fun (s : State) (src : Fin 16) => let reach := (PeerOpen s src); reach) ((withDom awake)) 2) ∧
    ((fun (s : State) (src : Fin 16) (addr : BitVec 44) => let a := (addr.toNat % 2 ^ 40 * 64); let reach := (PeerOpen s
      src); reach ∧ s.servedDomain a = none) awake 2 1) ∧
    ((fun (s : State) (src : Fin 16) (addr : BitVec 44) (held : BitVec 4) (d : Nat) (e : Entry) => let a := (addr.toNat % 2
      ^ 40 * 64); let reach := (PeerOpen s src); reach ∧ s.servedDomain a = some (d, e) ∧ held ≠ 0 ∧ dirLs (s.dirBits
      (e.slice a) a) (lineIn a) = dirPE ∧ dirPtr (s.dirBits (e.slice a) a) (lineIn a) = src.val)
      (((withDom awake).dirLine (Entry.slice plainDom 64) 64 dirPE 2)) 2 1 1 5 plainDom) ∧
    ((fun (s : State) (src : Fin 16) (addr : BitVec 44) => let a := (addr.toNat % 2 ^ 40 * 64); let reach := (PeerOpen s
      src); let partner := (fun (e : Entry) => e.repl = true ∧ e.replDev = s.devNum ∧ e.member 0 = src.val); reach ∧
      (s.servedDomain a).all (fun c => decide (¬ partner c.2)) = true) ((awake.setEntry 5 (setFld plainDom 195 192 3))) 2 1)
      ∧
    ((fun (s : State) (src : Fin 16) (addr : BitVec 44) => let a := (addr.toNat % 2 ^ 40 * 64); let reach := (PeerOpen s
      src); let partner := (fun (e : Entry) => e.repl = true ∧ e.replDev = s.devNum ∧ e.member 0 = src.val); reach ∧
      (s.servedDomain a).all (fun c => decide (¬ partner c.2)) = true) awake 2 1) ∧
    ((fun (s : State) (src : Fin 16) (addr : BitVec 44) => let a := (addr.toNat % 2 ^ 40 * 64); let reach := (PeerOpen s
      src); let partner := (fun (e : Entry) => e.repl = true ∧ e.replDev = s.devNum ∧ e.member 0 = src.val); reach ∧
      (s.servedDomain a).all (fun c => decide (¬ partner c.2)) = true) ((awake.setEntry 5 mirrored)) 4 1) ∧
    ((fun (s : State) (src : Fin 16) (addr : BitVec 44) (d : Nat) (e : Entry) => let a := (addr.toNat % 2 ^ 40 * 64); let
      reach := (PeerOpen s src); let partner := (fun (e : Entry) => e.repl = true ∧ e.replDev = s.devNum ∧ e.member 0 =
      src.val); reach ∧ s.servedDomain a = some (d, e) ∧ partner e ∧ s.keyAbsent d e = true)
      ((awake.setEntry 5 (setFld mirrored 61 61 1))) 2 1 5 ((setFld mirrored 61 61 1))) ∧
    ((fun (s : State) (src : Fin 16) (addr : BitVec 44) (d : Nat) (e : Entry) => let a := (addr.toNat % 2 ^ 40 * 64); let
      reach := (PeerOpen s src); let partner := (fun (e : Entry) => e.repl = true ∧ e.replDev = s.devNum ∧ e.member 0 =
      src.val); reach ∧ s.servedDomain a = some (d, e) ∧ partner e ∧ s.keyAbsent d e = false)
      (((awake.setEntry 5 mirrored).setPage (Entry.mapKey mirrored 64) fwPage)) 2 1 5 mirrored) ∧
    ((fun (s : State) (src : Fin 16) (addr : BitVec 44) (d : Nat) (e : Entry) => let a := (addr.toNat % 2 ^ 40 * 64); let
      reach := (PeerOpen s src); let partner := (fun (e : Entry) => e.repl = true ∧ e.replDev = s.devNum ∧ e.member 0 =
      src.val); reach ∧ s.servedDomain a = some (d, e) ∧ partner e ∧ s.keyAbsent d e = false)
      ((awake.setEntry 5 mirrored)) 2 1 5 mirrored) ∧
    ((fun (s : State) (src : Fin 16) (txn : BitVec 12) (i : Nat) (t : HomeTx) => let reach := (PeerOpen s src); reach ∧
      (txn.toNat, i, src.val) ∈ s.coh.mirOut ∧ ((∀ x ∈ s.coh.mirOut, x.1 = txn.toNat → x = (txn.toNat, i, src.val))) ∧ s.tx
      i = some t ∧ t.phase = .mirrorRead)
      (({ awake with coh := { (awake).coh with txs := ((memTx awake 64 plainDom).coh.txs.map fun (t : HomeTx) => { t with phase := .mirrorRead }), mirOut := [(9, 1, 2), (8, 3, 4)] } } : State)) 2 9 1 ((((memTx awake 64 plainDom).coh.txs.map fun (t : HomeTx) => { t with phase := .mirrorRead }).headD default)))
      ∧
    ((fun (s : State) (src : Fin 16) (txn : BitVec 12) => let reach := (PeerOpen s src); let noMirror := (∀ x ∈
      s.coh.mirOut, x.1 ≠ txn.toNat); reach ∧ noMirror) ((awake.setEntry 5 (setFld plainDom 195 192 3))) 2 9) ∧
    ((fun (s : State) (src : Fin 16) (txn : BitVec 12) (t : ReqTrack) => let reach := (PeerOpen s src); let paced := (fun (t
      : ReqTrack) => t ∈ s.link.preqs ∧ t.txn = txn.toNat ∧ t.home = src.val ∧ ∀ u ∈ s.link.preqs, u.txn = txn.toNat → u =
      t); reach ∧ paced t ∧ t.req.op.isWrite = false)
      ((pacing awake 2 .pRd)) 2 9 (((pacing awake 2 .pRd).link.preqs.headD default))) ∧
    ((fun (s : State) (src : Fin 16) (txn : BitVec 12) (t : ReqTrack) => let reach := (PeerOpen s src); let paced := (fun (t
      : ReqTrack) => t ∈ s.link.preqs ∧ t.txn = txn.toNat ∧ t.home = src.val ∧ ∀ u ∈ s.link.preqs, u.txn = txn.toNat → u =
      t); reach ∧ paced t ∧ t.req.op.isWrite = true ∧ t.req.credit = 0)
      ((pacing awake 2 .pWr)) 2 9 (((pacing awake 2 .pWr).link.preqs.headD default))) ∧
    ((fun (s : State) (src : Fin 16) (txn : BitVec 12) => let reach := (PeerOpen s src); reach ∧ ((∀ t ∈ s.link.preqs, t.txn
      ≠ txn.toNat))) ((awake.setEntry 5 (setFld plainDom 195 192 3))) 2 9) ∧
    ((fun (s : State) (src : Fin 16) (txn : BitVec 12) => let reach := (PeerOpen s src); reach ∧ ((∀ t ∈ s.link.preqs, t.txn
      ≠ txn.toNat))) ((pacing awake 2 .pRd)) 2 10) ∧
    ((fun (s : State) (port : Fin 32) => s.portOpen port = false) ((awake.setEntry 5 (setFld plainDom 195 192 3))) 5) ∧
    ((fun (s : State) (port : Fin 32) (dpa : Dpa) => HostOpen s port ∧ s.biFor port dpa.toNat = none)
      ((decoded (withDom awake) 5)) 5 64) ∧
    ((fun (s : State) (port : Fin 32) (dpa : Dpa) => HostOpen s port ∧ s.biFor port dpa.toNat = none)
      ((biAt (decoded (withDom awake) 5) 5 64 biInv)) 5 128) ∧
    ((fun (s : State) (port : Fin 32) (dpa : Dpa) (b : Nat × Nat × Nat × Nat) => HostOpen s port ∧ s.biFor port dpa.toNat =
      some b ∧ s.coh.recalls = [] ∧ s.coh.txs = [])
      ((biAt (decoded (withDom awake) 5) 5 64 biInv)) 5 64 ((5, 64, biInv, 0))) ∧
    ((fun (s : State) (port : Fin 32) (dpa : Dpa) (b : Nat × Nat × Nat × Nat) (rc : HostRecall) => HostOpen s port ∧ s.biFor
      port dpa.toNat = some b ∧ s.coh.recalls = [rc] ∧ rc.line / 64 = dpa.toNat / 64 ∧ rc.ports = [port.val])
      (({ (biAt (decoded (withDom awake) 5) 5 64 biInv) with coh := { ((biAt (decoded (withDom awake) 5) 5 64 biInv)).coh with recalls := [({ line := 64, ports := [5], snoop := none, st := .peerS, poison := false, data := 0 } : HostRecall)] } } : State)) 5 64 ((5, 64, biInv, 0)) (({ line := 64, ports := [5], snoop := none, st := .peerS, poison := false, data := 0 } : HostRecall)))
      ∧
    ((fun (s : State) (port : Fin 32) (dpa : Dpa) (b : Nat × Nat × Nat × Nat) (t : HomeTx) => HostOpen s port ∧ s.biFor port
      dpa.toNat = some b ∧ b.2.2.1 = biInv ∧ s.coh.recalls = [] ∧ s.coh.txs = [t] ∧ t.phase = .snoop ∧ t.purpose = .serve ∧
      port.val ∈ t.ports ∧ t.touches dpa.toNat = true ∧ t.line / 256 = dpa.toNat / 256)
      (({ (biAt (decoded (withDom awake) 5) 5 64 biInv) with coh := { ((biAt (decoded (withDom awake) 5) 5 64 biInv)).coh with txs := [({ (default : HomeTx) with id := 1, line := 64, phase := .snoop, purpose := .serve, ports := [5, 6], busy := true, req := { (default : Req) with dom := 5, entry := plainDom, agent := .peer 1, op := .rdS, addr := 64, tag := 3 } } : HomeTx)] } } : State)) 5 64 ((5, 64, biInv, 0)) (({ (default : HomeTx) with id := 1, line := 64, phase := .snoop, purpose := .serve, ports := [5, 6], busy := true, req := { (default : Req) with dom := 5, entry := plainDom, agent := .peer 1, op := .rdS, addr := 64, tag := 3 } } : HomeTx)))
      ∧
    ((fun (s : State) (port : Fin 32) (dpa : Dpa) (b : Nat × Nat × Nat × Nat) => HostOpen s port ∧ s.biFor port dpa.toNat =
      some b) ((biAt (decoded (withDom awake) 5) 5 64 biInv)) 5 64 ((5, 64, biInv, 0))) ∧
    ((fun (s : State) (port : Fin 32) (dpa : Dpa) (b : Nat × Nat × Nat × Nat) => s.flag R.CF_STAT_DEVLOST = false ∧ s.biFor
      port dpa.toNat = some b) ((biAt (decoded (withDom awake) 5) 5 64 biInv)) 5 64 ((5, 64, biInv, 0))) ∧
    ((fun (s : State) (port : Fin 32) (dpa : Dpa) => s.biFor port dpa.toNat = none ∧ s.coh.biWait = [])
      ((awake.setEntry 5 (setFld plainDom 195 192 3))) 5 64) := by
  refine ⟨?_, ?_, ?_, ?_, ?_, ?_, ?_, ?_, ?_, ?_, ?_, ?_, ?_, ?_, ?_, ?_, ?_, ?_, ?_, ?_, ?_, ?_, ?_, ?_, ?_, ?_, ?_, ?_, ?_, ?_, ?_, ?_⟩ <;> (try dsimp only) <;> decide +kernel

theorem witness_UnassignedOffsetsReadZero :
    ((fun (off : BitVec 28) => let o := (off.toNat); regRow o = none ∧ o / 2 ^ 20 ≠ 1) 0xFFFFFFC) ∧
    ((fun (off : BitVec 28) => let o := (off.toNat); regRow o = none ∧ o / 2 ^ 20 ≠ 1) 0) := by
  refine ⟨?_, ?_⟩ <;> (try dsimp only) <;> decide +kernel

theorem witness_FirewoodPagesLieInChunks :
    ((fun (e : Entry) => e.chSize ≤ 2 ∧ e.chBase + e.chans ≤ 16) plainDom) ∧
    ((fun (e : Entry) => e.chSize ≤ 2 ∧ e.chBase + e.chans ≤ 16) ((setFld plainDom 43 42 2))) ∧
    ((fun (e : Entry) => e.chSize ≤ 2 ∧ e.chBase + e.chans ≤ 16) ((setFld (setFld plainDom 43 42 1) 41 38 8))) := by
  refine ⟨?_, ?_, ?_⟩ <;> (try dsimp only) <;> decide +kernel

theorem witness_PeerAsks :
    ((fun (s : State) (src : Fin 16) (addr : BitVec 44) => let a := (addr.toNat % 2 ^ 40 * 64); PeerOpen s src ∧
      s.servedDomain a = none) awake 3 1) ∧
    ((fun (s : State) (src : Fin 16) (addr : BitVec 44) (k : Nat) (e : Entry) => let a := (addr.toNat % 2 ^ 40 * 64); let
      here := (s.servedDomain a = some (k, e)); let own := (addr.toNat / 2 ^ 40 = s.devNum); PeerOpen s src ∧ here ∧ ((¬ own
      ∨ s.homedHere e a = false))) ((awake.setEntry 5 (setFld plainDom 195 192 3))) 3 1 5 ((setFld plainDom 195 192 3))) ∧
    ((fun (s : State) (src : Fin 16) (addr : BitVec 44) (k : Nat) (e : Entry) => let a := (addr.toNat % 2 ^ 40 * 64); let
      here := (s.servedDomain a = some (k, e)); let own := (addr.toNat / 2 ^ 40 = s.devNum); PeerOpen s src ∧ here ∧ ((¬ own
      ∨ s.homedHere e a = false))) ((withDom awake)) 3 (2 ^ 40 + 1) 5 plainDom) ∧
    ((fun (s : State) (src : Fin 16) (addr : BitVec 44) (k : Nat) (e : Entry) => let a := (addr.toNat % 2 ^ 40 * 64); let
      here := (s.servedDomain a = some (k, e)); let own := (addr.toNat / 2 ^ 40 = s.devNum); PeerOpen s src ∧ here ∧ own ∧
      s.homedHere e a = true ∧ s.sanitized k = false ∧ e.encrypt = false ∧ e.paced = false ∧ s.pacedSource (32 + src) =
      false) ((withDom awake)) 3 1 5 plainDom) := by
  refine ⟨?_, ?_, ?_, ?_⟩ <;> (try dsimp only) <;> decide +kernel

theorem witness_Counts :
    ((fun (s : State) (src : Fin 16) (txn : BitVec 12) => PeerOpen s src ∧ s.tx txn.toNat = none) ((withDom awake)) 3 9) ∧
    ((fun (s : State) (src : Fin 16) (txn : BitVec 12) (t : HomeTx) => let awaits := (fun (t : HomeTx) => t.phase = .snoop ∧
      src.val ∈ t.peers); PeerOpen s src ∧ s.tx txn.toNat = some t ∧ ¬ awaits t)
      (({ (withDom awake) with coh := { ((withDom awake)).coh with txs := [{ (default : HomeTx) with id := 9, line := 64, phase := .snoop, purpose := .serve, peers := [4], req := { (default : Req) with dom := 5, entry := plainDom, agent := .peer 1, op := .rdS, addr := 64, tag := 3 } }] } } : State)) 3 9 (((({ (withDom awake) with coh := { ((withDom awake)).coh with txs := [{ (default : HomeTx) with id := 9, line := 64, phase := .snoop, purpose := .serve, peers := [4], req := { (default : Req) with dom := 5, entry := plainDom, agent := .peer 1, op := .rdS, addr := 64, tag := 3 } }] } } : State)).coh.txs.headD default)))
      ∧
    ((fun (s : State) (src : Fin 16) (txn : BitVec 12) (t : HomeTx) => let awaits := (fun (t : HomeTx) => t.phase = .snoop ∧
      src.val ∈ t.peers); PeerOpen s src ∧ s.tx txn.toNat = some t ∧ ¬ awaits t)
      (({ (withDom awake) with coh := { ((withDom awake)).coh with txs := [{ (default : HomeTx) with id := 9, line := 64, phase := .memory, purpose := .serve, peers := [3], req := { (default : Req) with dom := 5, entry := plainDom, agent := .peer 1, op := .rdS, addr := 64, tag := 3 } }] } } : State)) 3 9 (((({ (withDom awake) with coh := { ((withDom awake)).coh with txs := [{ (default : HomeTx) with id := 9, line := 64, phase := .memory, purpose := .serve, peers := [3], req := { (default : Req) with dom := 5, entry := plainDom, agent := .peer 1, op := .rdS, addr := 64, tag := 3 } }] } } : State)).coh.txs.headD default)))
      ∧
    ((fun (s : State) (src : Fin 16) (txn : BitVec 12) (t : HomeTx) => let awaits := (fun (t : HomeTx) => t.phase = .snoop ∧
      src.val ∈ t.peers); PeerOpen s src ∧ s.tx txn.toNat = some t ∧ awaits t)
      (({ (withDom awake) with coh := { ((withDom awake)).coh with txs := [{ (default : HomeTx) with id := 9, line := 64, phase := .snoop, purpose := .serve, peers := [3, 4], req := { (default : Req) with dom := 5, entry := plainDom, agent := .peer 1, op := .rdS, addr := 64, tag := 3 } }] } } : State)) 3 9 (((({ (withDom awake) with coh := { ((withDom awake)).coh with txs := [{ (default : HomeTx) with id := 9, line := 64, phase := .snoop, purpose := .serve, peers := [3, 4], req := { (default : Req) with dom := 5, entry := plainDom, agent := .peer 1, op := .rdS, addr := 64, tag := 3 } }] } } : State)).coh.txs.headD default)))
      ∧
    ((fun (s : State) (src : Fin 16) (txn : BitVec 12) (t : HomeTx) => let awaits := (fun (t : HomeTx) => t.phase = .snoop ∧
      src.val ∈ t.peers); PeerOpen s src ∧ s.tx txn.toNat = some t ∧ awaits t)
      (({ (withDom awake) with coh := { ((withDom awake)).coh with txs := [{ (default : HomeTx) with id := 9, line := 64, phase := .snoop, purpose := .serve, peers := [3], req := { (default : Req) with dom := 5, entry := plainDom, agent := .peer 1, op := .rdS, addr := 64, tag := 3 } }] } } : State)) 3 9 (((({ (withDom awake) with coh := { ((withDom awake)).coh with txs := [{ (default : HomeTx) with id := 9, line := 64, phase := .snoop, purpose := .serve, peers := [3], req := { (default : Req) with dom := 5, entry := plainDom, agent := .peer 1, op := .rdS, addr := 64, tag := 3 } }] } } : State)).coh.txs.headD default))) := by
  refine ⟨?_, ?_, ?_, ?_, ?_⟩ <;> (try dsimp only) <;> decide +kernel

theorem witness_CountsData :
    ((fun (s : State) (src : Fin 16) (txn : BitVec 12) => PeerOpen s src ∧ s.tx txn.toNat = none) ((withDom awake)) 3 9) ∧
    ((fun (s : State) (src : Fin 16) (txn : BitVec 12) (t : HomeTx) => let awaits := (fun (t : HomeTx) => t.phase = .snoop ∧
      src.val ∈ t.peers); PeerOpen s src ∧ s.tx txn.toNat = some t ∧ ¬ awaits t)
      (({ (withDom awake) with coh := { ((withDom awake)).coh with txs := [{ (default : HomeTx) with id := 9, line := 64, phase := .snoop, purpose := .serve, peers := [4], req := { (default : Req) with dom := 5, entry := plainDom, agent := .peer 1, op := .rdS, addr := 64, tag := 3 } }] } } : State)) 3 9 (((({ (withDom awake) with coh := { ((withDom awake)).coh with txs := [{ (default : HomeTx) with id := 9, line := 64, phase := .snoop, purpose := .serve, peers := [4], req := { (default : Req) with dom := 5, entry := plainDom, agent := .peer 1, op := .rdS, addr := 64, tag := 3 } }] } } : State)).coh.txs.headD default)))
      ∧
    ((fun (s : State) (src : Fin 16) (txn : BitVec 12) (t : HomeTx) => let awaits := (fun (t : HomeTx) => t.phase = .snoop ∧
      src.val ∈ t.peers); PeerOpen s src ∧ s.tx txn.toNat = some t ∧ awaits t)
      (({ (withDom awake) with coh := { ((withDom awake)).coh with txs := [{ (default : HomeTx) with id := 9, line := 64, phase := .snoop, purpose := .serve, peers := [3, 4], req := { (default : Req) with dom := 5, entry := plainDom, agent := .peer 1, op := .rdS, addr := 64, tag := 3 } }] } } : State)) 3 9 (((({ (withDom awake) with coh := { ((withDom awake)).coh with txs := [{ (default : HomeTx) with id := 9, line := 64, phase := .snoop, purpose := .serve, peers := [3, 4], req := { (default : Req) with dom := 5, entry := plainDom, agent := .peer 1, op := .rdS, addr := 64, tag := 3 } }] } } : State)).coh.txs.headD default))) := by
  refine ⟨?_, ?_, ?_⟩ <;> (try dsimp only) <;> decide +kernel

theorem witness_Arrives :
    ((fun (s : State) (src : Fin 16) (txn : BitVec 12) (t : ReqTrack) => let waits := (t.wait = .isd ∨ t.wait = .imd ∨
      t.wait = .smd); PeerOpen s src ∧ Tracks s src txn t ∧ waits)
      ((tracking (awake.setEntry 5 (setFld plainDom 195 192 3)) 3 64 .isd)) 3 9 ((((tracking (awake.setEntry 5 (setFld plainDom 195 192 3)) 3 64 .isd)).coh.reqs.headD default)))
      ∧
    ((fun (s : State) (src : Fin 16) (txn : BitVec 12) (t : ReqTrack) => let waits := (t.wait = .isd ∨ t.wait = .imd ∨
      t.wait = .smd); PeerOpen s src ∧ Tracks s src txn t ∧ waits)
      ((tracking (awake.setEntry 5 (setFld plainDom 195 192 3)) 3 64 .smd)) 3 9 ((((tracking (awake.setEntry 5 (setFld plainDom 195 192 3)) 3 64 .smd)).coh.reqs.headD default)))
      ∧
    ((fun (s : State) (src : Fin 16) (txn : BitVec 12) (t : ReqTrack) (w : Nat) => let waits := (t.wait = .isd ∨ t.wait =
      .imd ∨ t.wait = .smd); PeerOpen s src ∧ Tracks s src txn t ∧ waits ∧ s.kWay t.req.slice t.req.addr = some w ∧
      (s.untrack t).lineBusy t.req.addr = false)
      ((cached (tracking (awake.setEntry 5 (setFld plainDom 195 192 3)) 3 64 .isd) 64 .peerS)) 3 9 ((((tracking (awake.setEntry 5 (setFld plainDom 195 192 3)) 3 64 .isd)).coh.reqs.headD default)) 0)
      ∧
    ((fun (s : State) (src : Fin 16) (txn : BitVec 12) => PeerOpen s src ∧ ((∀ u ∈ s.coh.reqs, u.txn ≠ txn.toNat)))
      ((awake.setEntry 5 (setFld plainDom 195 192 3))) 3 9) ∧
    ((fun (s : State) (src : Fin 16) (txn : BitVec 12) => PeerOpen s src ∧ ((∀ u ∈ s.coh.reqs, u.txn ≠ txn.toNat)))
      ((tracking (awake.setEntry 5 (setFld plainDom 195 192 3)) 3 64 .isd)) 3 8) := by
  refine ⟨?_, ?_, ?_, ?_, ?_⟩ <;> (try dsimp only) <;> decide +kernel

end Sys2Proof.Tests
end

section
/-!
PROOFS. Register writes of the control window (R14 to R16, R467, R471, R472, R494): the rules of the fields a write merges, of
the records that discarded writes leave, and of the gate that a reachable, writable register passes.
-/
namespace Sys2Proof.Machine

/-! ### The fields of a written register -/

theorem fld_lt {w : Nat} (x : BitVec w) (hi lo : Nat) : fld x hi lo < 2 ^ (hi - lo + 1) := BitVec.isLt _

/-- A field that takes another word's field reads as it. -/
theorem fld_setFld_fld {w : Nat} (x y : BitVec w) (hi lo : Nat) (h : lo ≤ hi) (hw : hi < w) :
    fld (setFld x hi lo (fld y hi lo)) hi lo = fld y hi lo := by
  rw [fld_setFld_same _ _ _ _ h hw, Nat.mod_eq_of_lt (fld_lt y hi lo)]

/-- A field stands in the 32 bits of its register. -/
abbrev FieldRow.Fits (f : FieldRow) : Prop := f.lo ≤ f.hi ∧ f.hi < 32

/-- Two fields share no bit. -/
abbrev FieldRow.Apart (f g : FieldRow) : Prop := f.hi < g.lo ∨ g.hi < f.lo

/-- The fields of a register stand in its 32 bits and share none. -/
abbrev FieldsApart (l : List FieldRow) : Prop := (∀ f ∈ l, f.Fits) ∧ l.Pairwise FieldRow.Apart

theorem regRows_fieldsApart : ∀ r ∈ regRows, FieldsApart r.fields := by decide +kernel

theorem regRow_fieldsApart {off : Nat} {r : RegRow} (h : regRow off = some r) : FieldsApart r.fields :=
  regRows_fieldsApart r (List.mem_of_find?_eq_some h)

/-- What a field holds after a write of `v` over `old` (R14, R15). -/
def FieldRow.written (old v : BitVec 32) (f : FieldRow) : Nat :=
  match f.acc with
  | .rw | .rws | .rwl => fld v f.hi f.lo
  | .w1c => fld (old &&& ~~~v) f.hi f.lo
  | .ro | .wo => fld old f.hi f.lo

/-- A word in which one field of a write has been merged: `mergeWrite`'s step. -/
def mergeField (old v w : BitVec 32) (f : FieldRow) : BitVec 32 :=
  match f.acc with
  | .rw | .rws | .rwl => setFld w f.hi f.lo (fld v f.hi f.lo)
  | .w1c => setFld w f.hi f.lo (fld (old &&& ~~~v) f.hi f.lo)
  | .ro | .wo => w

theorem mergeWrite_eq_foldl (old v : BitVec 32) (l : List FieldRow) : mergeWrite old v l = l.foldl (mergeField old v) old := rfl

/-- The merged field holds what the write gives it. -/
theorem fld_mergeField_same (old v w : BitVec 32) {f : FieldRow} (hf : f.Fits) (hw : fld w f.hi f.lo = fld old f.hi f.lo) :
    fld (mergeField old v w f) f.hi f.lo = f.written old v := by
  unfold mergeField FieldRow.written
  cases f.acc with
  | rw | rws | rwl | w1c => exact fld_setFld_fld _ _ _ _ hf.1 hf.2
  | ro | wo => exact hw

/-- A field apart from the merged one keeps its value. -/
theorem fld_mergeField_apart (old v w : BitVec 32) {f g : FieldRow} (hg : g.Fits) (hf : f.Fits) (d : g.Apart f) :
    fld (mergeField old v w g) f.hi f.lo = fld w f.hi f.lo := by
  unfold mergeField
  cases g.acc with
  | rw | rws | rwl | w1c => exact fld_setFld_other _ _ _ _ _ _ hg.1 hf.1 d
  | ro | wo => rfl

/-- A field apart from every merged one keeps its value. -/
theorem fld_foldl_mergeField_apart (old v w : BitVec 32) {f : FieldRow} (hf : f.Fits) (l : List FieldRow)
    (hl : ∀ g ∈ l, g.Fits ∧ g.Apart f) : fld (l.foldl (mergeField old v) w) f.hi f.lo = fld w f.hi f.lo := by
  induction l generalizing w with
  | nil => rfl
  | cons g l ih =>
    obtain ⟨⟨hg, d⟩, hl⟩ := List.forall_mem_cons.mp hl
    rw [List.foldl_cons, ih _ hl, fld_mergeField_apart old v w hg hf d]

/-- Merged from a word that agrees with the old one on the fields to come, each field holds what the write gives it. -/
theorem fld_foldl_mergeField (old v w : BitVec 32) (l : List FieldRow) (hl : FieldsApart l)
    (hw : ∀ f ∈ l, fld w f.hi f.lo = fld old f.hi f.lo) :
    ∀ f ∈ l, fld (l.foldl (mergeField old v) w) f.hi f.lo = f.written old v := by
  induction l generalizing w with
  | nil => exact fun _ h => absurd h List.not_mem_nil
  | cons g l ih =>
    obtain ⟨fits, apart⟩ := hl
    obtain ⟨hg, fits⟩ := List.forall_mem_cons.mp fits
    obtain ⟨d, apart⟩ := List.pairwise_cons.mp apart
    obtain ⟨hwg, hw⟩ := List.forall_mem_cons.mp hw
    refine List.forall_mem_cons.mpr ⟨?_, ih _ ⟨fits, apart⟩ fun f hf => ?_⟩
    · rw [List.foldl_cons, fld_foldl_mergeField_apart old v _ hg l fun f hf => ⟨fits f hf, (d f hf).symm⟩]
      exact fld_mergeField_same old v w hg hwg
    · rw [fld_mergeField_apart old v w hg (fits f hf) (d f hf), hw f hf]

/-- After a write, each field of a register holds what the write gives it (R14, R15). -/
theorem fld_mergeWrite (old v : BitVec 32) {l : List FieldRow} (hl : FieldsApart l) {f : FieldRow} (hf : f ∈ l) :
    fld (mergeWrite old v l) f.hi f.lo = f.written old v :=
  fld_foldl_mergeField old v old l hl (fun _ _ => rfl) f hf

/-! ### Records of discarded writes -/

/-- A fold leaves a record of the type and place, its newest occurrence now (R383). -/
theorem foldFirst_recorded (s : State) (new : Record) {l ring : List Record} (h : foldFirst s new l = some ring) :
    ∃ r ∈ ring, r.type = new.type ∧ r.loc = new.loc ∧ r.gtcN = s.gtc := by
  induction l generalizing ring with
  | nil => cases h
  | cons r l ih =>
    unfold foldFirst at h
    split at h
    · split at h
      next hfold =>
        simp only [foldsInto, Bool.and_eq_true, beq_iff_eq] at hfold
        obtain ⟨⟨⟨⟨⟨⟨htype, -⟩, -⟩, hloc⟩, -⟩, -⟩, -⟩ := hfold
        cases h
        exact ⟨_, List.mem_cons_self, htype, hloc, rfl⟩
      next => cases h
    · obtain ⟨ring', h', rfl⟩ := Option.map_eq_some_iff.mp h
      obtain ⟨x, hx, hrec⟩ := ih h'
      exact ⟨x, List.mem_cons_of_mem _ hx, hrec⟩

/-- A record of low severity added while the device is not lost heads the ring and moves the next index alone. -/
theorem State.addRecord_recordedNow (s : State) (r : Record) (hlost : s.flag R.CF_STAT_DEVLOST = false) (hsev : r.sev < 2) :
    RecordedNow s (s.addRecord r) r.type r.loc := by
  unfold State.addRecord
  simp only [hlost, Nat.not_le.mpr hsev, if_false, Bool.false_eq_true]
  refine ⟨⟨_, List.mem_cons_self (l := s.flt.ring.take 4095), rfl, rfl, rfl⟩, fun off hoff => ?_⟩
  exact (State.reg_setReg_other _ _ _ _ hoff).trans (State.reg_congr rfl off)

/-- A record of low severity of a unit outside the regions, logged while the device is not lost (R381, R383). -/
theorem State.log_recordedNow (s : State) (r : Record) (hlost : s.flag R.CF_STAT_DEVLOST = false) (hsev : r.sev < 2)
    (hunit : unitRegion r.ukind r.unit = none) : RecordedNow s (s.log r) r.type r.loc := by
  have hnote : s.noteFault r = s := by simp only [State.noteFault, hunit]
  unfold State.log
  simp only [hnote, hlost, Bool.false_eq_true, if_false]
  split
  next ring hfold => exact ⟨foldFirst_recorded s r hfold, fun off _ => State.reg_congr rfl off⟩
  next => exact s.addRecord_recordedNow r hlost hsev

theorem State.badValue_recordedNow (s : State) (off : Nat) (hlost : s.flag R.CF_STAT_DEVLOST = false) :
    RecordedNow s (s.badValue off) 0x0409 off := s.log_recordedNow _ hlost Nat.zero_lt_two rfl

theorem State.lockViolation_recordedNow (s : State) (off : Nat) (hlost : s.flag R.CF_STAT_DEVLOST = false) :
    RecordedNow s (s.lockViolation off) 0x0408 off := s.log_recordedNow _ hlost Nat.zero_lt_two rfl

/-! ### The gate of a path -/

/-- A wake changes nothing in Blaze with nothing being entered (R432). -/
theorem State.wake_awake (s : State) (src : Nat) (htarget : s.pow.target = none) (hblaze : s.rd R.PS_STAT_STATE = 0) :
    s.wake src = s := by
  unfold State.wake
  simp [htarget, hblaze]

/-- A path that reaches a register lets the write have its effect and no other. -/
theorem State.viaPath_reachable {s : State} {p : Path} (h : Reachable s p) (off : Nat) (f : State → State) :
    s.viaPath p off f = f s := by
  obtain ⟨hhold, hshut, htarget, hblaze, hready⟩ := h
  have hwake : s.wakeFor p off = s := by
    unfold State.wakeFor
    rw [s.wake_awake 4 htarget hblaze, ite_self]
  have hearly : s.noteEarly p off = s := by simp [State.noteEarly, hready]
  simp [State.viaPath, hhold, hshut, hwake, hearly]

theorem State.viaPath_held {s : State} (h : s.boot.hold = true) (p : Path) (off : Nat) (f : State → State) :
    s.viaPath p off f = s := by
  simp [State.viaPath, h]

theorem State.viaPath_shut {s : State} {p : Path} (hhold : s.boot.hold = false) (hshut : s.pathShut p = true) (off : Nat)
    (f : State → State) : s.viaPath p off f = s.lockViolation off := by
  simp [State.viaPath, hhold, hshut]

/-- A reached register without locked fields takes a legal value whole and refuses another (R16, R494). -/
theorem State.writing_unlocked {s : State} {p : Path} (h : Reachable s p) {off : Nat} (hlock : s.lockedFields off = [])
    (v : BitVec 32) (f : BitVec 32 → State → State) :
    s.writing p off v f = if legalWrite off v then f v s else s.badValue off := by
  simp [State.writing, State.viaPath_reachable h, hlock]

/-! ### A word of the window written -/

/-- Every 4 B write passes its path's gate. -/
theorem State.regWrite_viaPath (s : State) (p : Path) (off : Nat) (v : BitVec 32) :
    ∃ f, s.regWrite p off v = s.viaPath p off f := by
  unfold State.regWrite
  split
  · exact ⟨_, rfl⟩
  · exact ⟨_, rfl⟩

/-- A writable value acts whole. -/
theorem State.regWrite_writable {s : State} {p : Path} {off : Nat} {v : BitVec 32} (h : Writable s p off v) :
    s.regWrite p off v = s.regAct p off v := by
  obtain ⟨hreach, hlock, hlegal⟩ := h
  unfold State.regWrite
  split
  · exact State.viaPath_reachable hreach off _
  · rw [State.writing_unlocked hreach hlock, if_pos hlegal]

/-- A reserved or out-of-range value of a register that does not check its own values is refused (R494). -/
theorem State.regWrite_illegal {s : State} {p : Path} {off : Nat} {v : BitVec 32} {r : RegRow} (h : Reachable s p)
    (hrow : regRow off = some r) (hown : ownCheck off = false) (hlock : s.lockedFields off = [])
    (hillegal : legalWrite off v = false) : s.regWrite p off v = s.badValue off := by
  rw [State.regWrite, if_neg (by simp [hown, hrow]), State.writing_unlocked h hlock, if_neg (by simp [hillegal])]

/-- A write of an unassigned offset is refused (R472). -/
theorem State.regWrite_unassigned {s : State} {p : Path} {off : Nat} (h : Reachable s p) (hrow : regRow off = none)
    (v : BitVec 32) : s.regWrite p off v = s.badValue off := by
  rw [State.regWrite, if_pos (by simp [hrow]), State.viaPath_reachable h, State.regAct, hrow]

/-- A unit's register that only holds settings takes its fields and does no more. -/
theorem State.regAct_plainUnitReg (s : State) (p : Path) {off : Nat} {r : RegRow} (h : PlainUnitReg off r) (v : BitVec 32) :
    s.regAct p off v = s.putReg off v := by
  obtain ⟨hrow, hbase, hplain⟩ := h
  simp only [actingUnitRegs, List.mem_cons, List.not_mem_nil, or_false, not_or] at hplain
  obtain ⟨hsched, hrefctl, hmaint, hinjctl, hmark, hopctl, hwaydis, hshctl, hshbkt, htrctl, htrseed, hctl, hfilt⟩ := hplain
  have hchipCtl : r.base ≠ R.CHIP_C_CTL 0 := fun e => absurd (e ▸ hbase) (by decide)
  have hchipFilt : r.base ≠ R.CHIP_C_FILT 0 := fun e => absurd (e ▸ hbase) (by decide)
  have hchip : ¬ r.base < 0x1000000 := by omega
  have hgroup : ¬ r.base < 0x1100000 := by omega
  simp [State.regAct, State.writeUnitReg, *]

theorem State.putReg_regRow (s : State) {off : Nat} {r : RegRow} (hoff : off < 2 ^ 28) (hrow : regRow off = some r)
    (v : BitVec 32) : s.putReg off v = s.setReg off (mergeWrite (s.reg off) v r.fields) := by
  simp only [State.putReg, Nat.mod_eq_of_lt hoff, hrow]

/-! ### The tolerance of a head -/

/-- The limit recomputed changes registers and the power island only (R430). -/
theorem State.limitSync_frame (s : State) : ∃ regs pow, s.limitSync = { s with regs := regs, pow := pow } := by
  unfold State.limitSync
  dsimp only
  split
  · exact State.wake_frame _ 5
  · exact ⟨_, _, rfl⟩

@[simp] theorem State.limitSync_head (s : State) (port : Nat) : s.limitSync.head port = s.head port := by
  obtain ⟨regs, pow, h⟩ := s.limitSync_frame
  rw [h]
  rfl

/-- The head of an active port takes the scale and value of its tolerance (R312). -/
theorem State.head_writeTolerance {s : State} {port : Nat} {v : BitVec 32} (hhold : s.boot.hold = false)
    (hon : (s.place port).on = true) (hflit : (s.head port).flit ≠ 0) (hscale : fld v 12 10 ≤ 5) :
    (s.writeTolerance port v).head port = { s.head port with tolScale := fld v 12 10, tolVal := fld v 9 0 } := by
  simp [State.writeTolerance, hhold, hon, hflit, Nat.not_lt.mpr hscale]

/-! ### The command -/

/-- A register write begins with the write of its width at its offset (R471). -/
theorem begins_windowWrite {s : State} {p : Path} {off : BitVec 28} {size : AccSize} {v : BitVec 64} {P : State → Prop}
    (h : P (s.winWrite p off.toNat size v)) : Begins (.registerWrite p (.window off) size v) s P := ⟨_, rfl, h⟩

/-- The write of an aligned word (R471). -/
theorem begins_wordWrite {s : State} {p : Path} {off : BitVec 28} {v : BitVec 64} {P : State → Prop} (hal : off.toNat % 4 = 0)
    (h : P (s.regWrite p off.toNat (v.setWidth 32))) : Begins (.registerWrite p (.window off) .b4 v) s P := by
  refine begins_windowWrite ?_
  simpa [State.winWrite, hal] using h

/-- The write of a head's tolerance register (R312). -/
theorem begins_toleranceWrite {s : State} {p : Path} {port : Fin 32} {v : BitVec 64} {P : State → Prop}
    (h : P (s.writeTolerance port (v.setWidth 32))) : Begins (.registerWrite p (.tolerance port) .b4 v) s P := ⟨_, rfl, h⟩

/-- A 4 B write passes its path's gate, aligned or not (R471). -/
theorem State.winWrite_b4_viaPath (s : State) (p : Path) (off : Nat) (v : BitVec 64) :
    ∃ f, s.winWrite p off .b4 v = s.viaPath p off f := by
  simp only [State.winWrite]
  split
  · exact s.regWrite_viaPath p off _
  · exact ⟨_, rfl⟩

/-- A narrow or misaligned write of a reached window is refused (R471). -/
theorem State.winWrite_discarded {s : State} {p : Path} (h : Reachable s p) {off : Nat} {size : AccSize}
    (hsize : size = .b1 ∨ size = .b2 ∨ (size = .b4 ∨ size = .b8) ∧ off % 4 ≠ 0) (v : BitVec 64) :
    s.winWrite p off size v = s.badValue off := by
  obtain rfl | rfl | ⟨rfl | rfl, hal⟩ := hsize
  · exact State.viaPath_reachable h off fun s => s.badValue off
  · exact State.viaPath_reachable h off fun s => s.badValue off
  · simp [State.winWrite, hal, State.viaPath_reachable h]
  · have hal8 : off % 8 ≠ 0 := by omega
    simp [State.winWrite, hal8, State.viaPath_reachable h]

/-- A legal write of a plain register of a unit gives each field what the write gives it and touches no other register. -/
theorem State.regWrite_plainUnitReg {s : State} {p : Path} {off : Nat} {v : BitVec 32} {r : RegRow} (hoff : off < 2 ^ 28)
    (hw : Writable s p off v) (hr : PlainUnitReg off r) :
    (∀ a, a ≠ off → (s.regWrite p off v).reg a = s.reg a) ∧
      ∀ f ∈ r.fields, (s.regWrite p off v).rd ⟨off, f.hi, f.lo⟩ = f.written (s.reg off) v := by
  have hrow : regRow off = some r := hr.1
  rw [State.regWrite_writable hw, s.regAct_plainUnitReg p hr, s.putReg_regRow hoff hrow]
  refine ⟨fun a ha => s.reg_setReg_other off a _ ha, fun f hf => ?_⟩
  rw [State.rd, State.reg_setReg_same]
  exact fld_mergeWrite _ v (regRow_fieldsApart hrow) hf

end Sys2Proof.Machine

namespace Sys2Proof

open Sys2Proof.Machine

/-- Settles O28: a reached, unlocked register merges the written fields (`State.regWrite_plainUnitReg`), and each discarded
write comes down to `badValue` or `lockViolation`, whose records stand in the ring. -/
theorem registerWritesTakeTheirFields : Obligations.RegisterWritesTakeTheirFields := by
  intro s p off v r port w o open_
  have discards : open_ → ∀ size, (size = .b1 ∨ size = .b2 ∨ (size = .b4 ∨ size = .b8) ∧ o % 4 ≠ 0) →
      Begins (.registerWrite p (.window off) size v) s fun x => RecordedNow s x 0x0409 o := by
    rintro ⟨hreach, hlost⟩ size hsize
    refine begins_windowWrite ?_
    rw [State.winWrite_discarded hreach hsize]
    exact s.badValue_recordedNow o hlost
  refine ⟨?plain, ?reserved, ?narrow, ?misaligned, ?unassigned, ?shut, ?held, ?wide, ?tolerance⟩
  case plain =>
    rintro ⟨hreach, -⟩ hr hlock hlegal hal
    obtain ⟨hother, hfields⟩ := State.regWrite_plainUnitReg off.isLt ⟨hreach, hlock, hlegal⟩ hr
    refine begins_wordWrite hal ⟨hother, fun f hf => (hfields f hf).trans ?_⟩
    unfold FieldRow.written
    cases f.acc <;> rfl
  case reserved =>
    rintro ⟨hreach, hlost⟩ hrow hown hlock hillegal hal
    refine begins_wordWrite hal ?_
    rw [State.regWrite_illegal hreach hrow hown hlock hillegal]
    exact s.badValue_recordedNow o hlost
  case narrow => exact fun hopen => ⟨discards hopen .b1 (.inl rfl), discards hopen .b2 (.inr (.inl rfl))⟩
  case misaligned =>
    exact fun hopen hal =>
      ⟨discards hopen .b4 (.inr (.inr ⟨.inl rfl, hal⟩)), discards hopen .b8 (.inr (.inr ⟨.inr rfl, hal⟩))⟩
  case unassigned =>
    rintro ⟨hreach, hlost⟩ hrow hal
    refine begins_wordWrite hal ?_
    rw [State.regWrite_unassigned hreach hrow]
    exact s.badValue_recordedNow o hlost
  case shut =>
    intro hhold hshut hlost hal
    obtain ⟨f, hf⟩ := s.regWrite_viaPath p o w
    refine begins_wordWrite hal ?_
    rw [hf, State.viaPath_shut hhold hshut]
    exact s.lockViolation_recordedNow o hlost
  case held =>
    intro hhold
    obtain ⟨f, hf⟩ := s.winWrite_b4_viaPath p o v
    exact begins_windowWrite (hf.trans (State.viaPath_held hhold p o f))
  case wide =>
    intro hal
    refine begins_windowWrite ?_
    simp [State.winWrite, o, w, hal]
  case tolerance =>
    intro hhold hon hflit hscale
    refine begins_toleranceWrite ?_
    rw [State.head_writeTolerance hhold hon hflit hscale]
    exact ⟨rfl, rfl⟩

end Sys2Proof
end

section
/-!
PROOFS. A host's requests at their port (R30, R31, R47, R48, R50, R85, R219, R299, R303), the grants of an admission point (R219)
and of backing (R120): what a count, a record and a refusal leave of what admission reads, the offer and the refusal of a
request, and a grant where one request waits.
-/
namespace Sys2Proof.Machine

/-! ### Records of a port -/

/-- A fold leaves in the ring, counted once more, a record that the occurrence folds into (R383). -/
theorem foldFirst_folds (s : State) (new : Record) {l ring : List Record} (h : foldFirst s new l = some ring) :
    ∃ r, foldsInto s r new = true ∧
      { r with count := min (r.count + 1) 255, gtcN := s.gtc, unread := true } ∈ ring := by
  induction l generalizing ring with
  | nil => cases h
  | cons r l ih =>
    unfold foldFirst at h
    split at h
    · split at h
      next hfold =>
        cases h
        exact ⟨r, hfold, List.mem_cons_self⟩
      next => cases h
    · obtain ⟨ring', h', rfl⟩ := Option.map_eq_some_iff.mp h
      obtain ⟨x, hfold, hx⟩ := ih h'
      exact ⟨x, hfold, List.mem_cons_of_mem _ hx⟩

/-- A record of low severity of a unit outside the regions stands in the ring with its type, unit and place, its newest occurrence
now, while the device is not lost (R381, R383). -/
theorem State.log_inRing (s : State) (r : Record) (hlost : s.flag R.CF_STAT_DEVLOST = false) (hsev : r.sev < 2)
    (hunit : unitRegion r.ukind r.unit = none) :
    ∃ z ∈ (s.log r).flt.ring, z.type = r.type ∧ z.unit = r.unit ∧ z.loc = r.loc ∧ z.gtcN = s.gtc := by
  have hnote : s.noteFault r = s := by simp only [State.noteFault, hunit]
  unfold State.log
  simp only [hnote, hlost, Bool.false_eq_true, if_false]
  split
  next ring hfold =>
    obtain ⟨x, hx, hmem⟩ := foldFirst_folds s r hfold
    simp only [foldsInto, Bool.and_eq_true, beq_iff_eq] at hx
    obtain ⟨⟨⟨⟨⟨⟨htype, -⟩, hxunit⟩, hloc⟩, -⟩, -⟩, -⟩ := hx
    exact ⟨_, hmem, htype, hxunit, hloc, rfl⟩
  next =>
    unfold State.addRecord
    simp only [hlost, Nat.not_le.mpr hsev, if_false, Bool.false_eq_true]
    exact ⟨_, List.mem_cons_self (l := s.flt.ring.take 4095), rfl, rfl, rfl, rfl⟩

/-- A record of low severity of a unit outside the regions moves the next index and no other register. -/
theorem State.log_reg (s : State) (r : Record) (hsev : r.sev < 2) (hunit : unitRegion r.ukind r.unit = none) {off : Nat}
    (hoff : off ≠ R.CF_NEXT) : (s.log r).reg off = s.reg off := by
  have hnote : s.noteFault r = s := by simp only [State.noteFault, hunit]
  unfold State.log
  simp only [hnote]
  split
  next => rfl
  next =>
    unfold State.addRecord
    simp only [Nat.not_le.mpr hsev, if_false]
    refine (State.reg_setReg_other _ _ _ _ hoff).trans ?_
    split <;> rfl

theorem State.logPort_inRing (s : State) (type p : Nat) (dom : Option Nat) (loc : Nat) (hlost : s.flag R.CF_STAT_DEVLOST = false) :
    ∃ z ∈ (s.logPort type p dom loc).flt.ring, z.type = type ∧ z.unit = p ∧ z.loc = loc ∧ z.gtcN = s.gtc :=
  s.log_inRing _ hlost Nat.zero_lt_two rfl

theorem State.logPort_frame (s : State) (type p : Nat) (dom : Option Nat) (loc : Nat) : ∃ regs flt pend,
    s.logPort type p dom loc = { s with regs := regs, flt := flt, core := { s.core with pend := pend } } := s.log_frame _

/-! ### What the decode of a request keeps -/

/-- From `s` to `t`, nothing has changed of what a host's request meets on its way from its decode to its admission point: the
regulator's queues and its committed settings (their copies stand at 3 × 2^28), the transactions and the keys. -/
structure KeepsAdmission (s t : State) : Prop where
  rgl : t.rgl = s.rgl
  coh : t.coh = s.coh
  eng : t.eng = s.eng
  com : ∀ x, x < 0x280000 → t.reg (3 * 2 ^ 28 + x) = s.reg (3 * 2 ^ 28 + x)

theorem KeepsAdmission.refl (s : State) : KeepsAdmission s s := ⟨rfl, rfl, rfl, fun _ _ => rfl⟩

theorem KeepsAdmission.trans {s t u : State} (h : KeepsAdmission s t) (h' : KeepsAdmission t u) : KeepsAdmission s u :=
  ⟨h'.rgl.trans h.rgl, h'.coh.trans h.coh, h'.eng.trans h.eng, fun x hx => (h'.com x hx).trans (h.com x hx)⟩

/-- A committed setting of the regulator is no overflow register of a counter, whatever bank the counter is of: those of a region's
bank stand from 0x280004 of its 4 MiB on, and the committed settings below that of theirs. -/
theorem com_ne_ovfFld {bank k x : Nat} (hk : k < 80) (hx : x < 0x280000) : 3 * 2 ^ 28 + x ≠ (ovfFld bank k).off := by
  unfold ovfFld
  split
  · simp only [Fld.bitAt, R.CHIP_COVF0_OVF, R.CHIP_COVF0]
    omega
  · simp only [Fld.bitAt, R.RC_OVF_OVF, R.RC_OVF]
    omega

theorem State.bump_keepsAdmission (s : State) (bank k n : Nat) (sat : Bool) (hk : k < 80) :
    KeepsAdmission s (s.bump bank k n sat) := by
  unfold State.bump
  split
  · exact .refl s
  · dsimp only
    split
    · exact ⟨rfl, rfl, rfl, fun x hx => (State.reg_setReg_other _ _ _ _ (com_ne_ovfFld hk hx)).trans (State.reg_congr rfl _)⟩
    · exact ⟨rfl, rfl, rfl, fun x _ => State.reg_congr rfl _⟩

/-- A walk whose every step keeps what admission reads keeps it. -/
theorem KeepsAdmission.foldl (s : State) (l : List Nat) (g : State → Nat → State)
    (hg : ∀ t, ∀ k ∈ l, KeepsAdmission t (g t k)) : KeepsAdmission s (l.foldl g s) :=
  List.foldlRecOn l g (motive := KeepsAdmission s) (.refl s) fun t ht k hk => ht.trans (hg t k hk)

theorem State.count_keepsAdmission (s : State) (bank unit code n : Nat) (dom cls : Option Nat) :
    KeepsAdmission s (s.count bank unit code n dom cls) := by
  have henabled : ∀ i ∈ s.enabledCtrs bank, i < 80 := by
    intro i hi
    have h := List.mem_range.mp (List.mem_filter.mp hi).1
    split at h <;> omega
  have hprog := KeepsAdmission.foldl s (s.enabledCtrs bank)
    (fun s i => if ctrSelects (s.reg (ctlOff bank i)) (s.reg (filtOff bank i)) bank 0 code unit dom cls then
      s.bump bank i n (bit (s.reg (ctlOff bank i)) 29) else s) fun t k hk => by
        split
        · exact t.bump_keepsAdmission _ _ _ _ (henabled k hk)
        · exact .refl t
  unfold State.count
  dsimp only
  split
  · exact hprog
  · refine hprog.trans (.foldl _ _ _ fun t k hk => ?_)
    have hk := List.mem_range.mp hk
    split
    · exact t.bump_keepsAdmission _ _ _ _ (by omega)
    · exact .refl t

theorem State.countBlk_keepsAdmission (s : State) (blk code n : Nat) (dom cls : Option Nat) :
    KeepsAdmission s (s.countBlk blk code n dom cls) := s.count_keepsAdmission ..

theorem State.logPort_keepsAdmission (s : State) (type p : Nat) (dom : Option Nat) (loc : Nat) :
    KeepsAdmission s (s.logPort type p dom loc) := by
  have hcom : ∀ x, x < 0x280000 → (s.logPort type p dom loc).reg (3 * 2 ^ 28 + x) = s.reg (3 * 2 ^ 28 + x) := fun x _ =>
    s.log_reg _ Nat.zero_lt_two rfl (by simp only [R.CF_NEXT]; omega)
  obtain ⟨regs, flt, pend, h⟩ := s.logPort_frame type p dom loc
  exact ⟨by rw [h], by rw [h], by rw [h], hcom⟩

theorem State.updHead_keepsAdmission (s : State) (p : Nat) (f : Head → Head) : KeepsAdmission s (s.updHead p f) :=
  ⟨rfl, rfl, rfl, fun _ _ => rfl⟩

theorem State.noteShared_keepsAdmission (s : State) (p d : Nat) (e : Entry) : KeepsAdmission s (s.noteShared p d e) := by
  unfold State.noteShared
  split
  · exact .refl s
  · exact (s.updHead_keepsAdmission p _).trans (State.logPort_keepsAdmission ..)

theorem KeepsAdmission.hostMaster_eq {s t : State} (h : KeepsAdmission s t) {p : Nat} (hp : p < 32) (dec : Nat) :
    t.hostMaster p dec = s.hostMaster p dec := by
  have hreg : t.reg (R.RGL_RGMAP_GRP p).com.off = s.reg (R.RGL_RGMAP_GRP p).com.off :=
    h.com (R.RGL_RGMAP p) (by simp only [R.RGL_RGMAP]; omega)
  simp only [State.hostMaster, State.rd, hreg]

theorem KeepsAdmission.pacedSource_eq {s t : State} (h : KeepsAdmission s t) {p : Nat} (hp : p < 32) :
    t.pacedSource p = s.pacedSource p := by
  have hreg : t.reg (R.RGL_PACE_PQR p).com.off = s.reg (R.RGL_PACE_PQR p).com.off :=
    h.com (R.RGL_PACE p) (by simp only [R.RGL_PACE]; omega)
  have hsame : (R.RGL_PACE_PQW p).com.off = (R.RGL_PACE_PQR p).com.off := rfl
  simp only [State.pacedSource, State.rd, hsame, hreg]

theorem KeepsAdmission.keyAbsent_eq {s t : State} (h : KeepsAdmission s t) (d : Nat) (e : Entry) :
    t.keyAbsent d e = s.keyAbsent d e := by
  simp only [State.keyAbsent, State.slot, h.eng]

/-! ### The decode at the port -/

/-- An empty decode cache misses, and the range index answers (R47). -/
theorem State.decodeAt_miss {s : State} {g dpa : Nat} {c : Nat × Entry} (hcache : s.dom.dcache.get g = [])
    (hdom : s.domOf dpa = some c) : ∃ t, s.decodeAt g dpa = (some c, t) ∧ KeepsAdmission s t := by
  obtain ⟨regs, cnt, h⟩ := s.count_frame (g / 4) (g % 4) 0x06 1 none none
  have hdom' : (s.countBlk g 0x06 1 none none).domOf dpa = some c := by
    rw [State.countBlk, h]
    exact hdom
  simp only [State.decodeAt, hcache, List.find?_nil, hdom']
  exact ⟨_, rfl, (s.countBlk_keepsAdmission ..).trans ⟨rfl, rfl, rfl, fun _ _ => State.reg_congr rfl _⟩⟩

/-- A port whose source is not paced spends no paced credit (R226). -/
theorem State.takeCredit_unpaced {s : State} {r : Req} {p : Nat} (hagent : r.agent = .host p) (hp : s.pacedSource p = false) :
    s.takeCredit r = (false, r, s) := by
  have hsource : r.source = p := by simp only [Req.source, hagent]
  simp [State.takeCredit, hagent, hsource, hp]

/-- What a request that reaches the port is: its operation, its port, its line and a tag of the link. -/
structure HostAsks (r : Req) (p : Fin 32) (op : ReqOp) (hpa : BitVec 64) : Prop where
  op_eq : r.op = op
  agent_eq : r.agent = .host p
  addr_eq : r.addr = hpaLine hpa
  tag_lt : r.tag < 2 ^ 16
  credit_eq : r.credit = 0

/-- A request offered after steps that keep what admission reads is the offer of the state before them. -/
theorem KeepsAdmission.offered {s y : State} (h : KeepsAdmission s y) {p : Fin 32} {r : Req} (hagent : r.agent = .host p)
    (dec : Nat) : Offered s (y.offer (s.place p).group
      { req := r, master := y.hostMaster p dec, cls := r.entry.qclass, lines := 1, accepted := false })
      p dec r.op r.addr r.dom r.entry :=
  ⟨y, r, by rw [h.hostMaster_eq p.isLt], rfl, rfl, rfl, rfl, hagent, h.rgl, h.coh⟩

/-- A request at its line of a domain that its port may access is offered for admission (R47, R48, R150, R219). -/
theorem State.translated_offered {s : State} {p : Fin 32} {dec d : Nat} {e : Entry} {r : Req} (hagent : r.agent = .host p)
    (hcache : s.dom.dcache.get (s.place p).group = []) (hdom : s.domOf r.addr = some (d, e))
    (hmay : (if r.op.isWrite then e.wrPorts.testBit p else e.rdPorts.testBit p) = true) (hkey : s.keyAbsent d e = false)
    (hpaced : e.paced = false) (hsource : s.pacedSource p = false) :
    Offered s (s.translated p dec (s.place p).group r) p dec r.op r.addr d e := by
  obtain ⟨t, hdec, ht⟩ := State.decodeAt_miss hcache hdom
  have ht := ht.trans (t.countBlk_keepsAdmission (s.place p).group 0x05 1 (some d) (some e.qclass))
  have hcredit := State.takeCredit_unpaced (r := { r with dom := d, entry := e }) hagent
    ((ht.pacedSource_eq p.isLt).trans hsource)
  simp only [State.translated, hdec, hcredit, hmay, hpaced, ht.keyAbsent_eq, hkey, Bool.not_true, Bool.and_false, Bool.false_and,
    Bool.false_eq_true, if_false]
  split
  · exact ht.offered (r := { r with dom := d, entry := e }) hagent dec
  · exact (ht.trans (State.noteShared_keepsAdmission _ p d e)).offered (r := { r with dom := d, entry := e }) hagent dec

/-- A request of a port to a domain that it may access is offered for admission once it is translated (R47, R50). -/
theorem State.hostRequest_offered {s : State} {p : Fin 32} {hpa : BitVec 64} {dec line d : Nat} {e : Entry} {r : Req} {op : ReqOp}
    (h : MayAsk s p hpa dec line d e op.isWrite) (hr : HostAsks r p op hpa) :
    Offered s (s.hostRequest p true r) p dec op line d e := by
  obtain ⟨-, -, htr, hcache, hdom, hmay, hkey, hpaced, hsource⟩ := h
  obtain ⟨rfl, hagent, haddr, -, -⟩ := hr
  simp only [State.hostRequest, Bool.not_true, Bool.false_eq_true, if_false, haddr, htr]
  exact State.translated_offered (r := { r with addr := line, tr := { r.tr with t0 := s.gtc, group := (s.place p).group } })
    hagent hcache hdom hmay hkey hpaced hsource

/-! ### Refused requests -/

/-- The refusal of a host's request fills an egress slot and changes nothing else (R48). -/
theorem State.refuse_host_frame (s : State) {r : Req} {p : Fin 32} {op : ReqOp} {hpa : BitVec 64} (hr : HostAsks r p op hpa)
    (err outcome : Nat) : ∃ rgl, s.refuse r err outcome = { s with rgl := rgl } := by
  have hcredit : s.freeWriteCredit r = s := by simp [State.freeWriteCredit, hr.credit_eq]
  have hsend : ∀ isData x poison, ∃ rgl, s.toHost r isData x poison outcome = { s with rgl := rgl } := fun isData x poison =>
    ⟨_, by simp only [State.toHost, hr.agent_eq, Nat.not_le.mpr hr.tag_lt, if_false]; rfl⟩
  simp only [State.refuse, hr.agent_eq, hcredit]
  split <;> exact hsend _ _ _

/-- A decode fault is a refusal with the record of its cause (R48). -/
theorem State.decodeFault_refused {s : State} {r : Req} {p : Fin 32} {op : ReqOp} {hpa : BitVec 64} (hr : HostAsks r p op hpa)
    (hlost : s.flag R.CF_STAT_DEVLOST = false) (type : Nat) (dom : Option Nat) :
    HostRefused s (s.decodeFault p r type dom) p type (hpaLine hpa) := by
  obtain ⟨rgl, href⟩ := (s.logPort type p dom r.addr).refuse_host_frame hr 0 2
  obtain ⟨regs, flt, pend, hlog⟩ := s.logPort_frame type p dom r.addr
  rw [State.decodeFault, href, ← hr.addr_eq]
  exact ⟨s.logPort_inRing type p dom r.addr hlost, by rw [hlog], by rw [hlog]⟩

/-- A host's request whose opcode is not offered is refused with UNSUP_OPC (R299). -/
theorem State.hostRequest_unoffered {s : State} {p : Fin 32} {hpa : BitVec 64} {r : Req} {op : ReqOp} (hr : HostAsks r p op hpa)
    (hlost : s.flag R.CF_STAT_DEVLOST = false) : HostRefused s (s.hostRequest p false r) p 0x0403 (hpaLine hpa) :=
  State.decodeFault_refused (r := { r with tr := { r.tr with t0 := s.gtc, group := (s.place p).group } })
    ⟨hr.op_eq, hr.agent_eq, hr.addr_eq, hr.tag_lt, hr.credit_eq⟩ hlost 0x0403 none

/-- A host's request that no committed decoder translates is refused with DECODE_FAULT (R48, R50). -/
theorem State.hostRequest_undecoded {s : State} {p : Fin 32} {hpa : BitVec 64} {r : Req} {op : ReqOp} (hr : HostAsks r p op hpa)
    (hlost : s.flag R.CF_STAT_DEVLOST = false) (htr : s.translate p (hpaLine hpa) = none) :
    HostRefused s (s.hostRequest p true r) p 0x0401 (hpaLine hpa) := by
  simp only [State.hostRequest, Bool.not_true, Bool.false_eq_true, if_false, hr.addr_eq, htr]
  exact State.decodeFault_refused
    (r := { r with addr := hpaLine hpa, tr := { r.tr with t0 := s.gtc, group := (s.place p).group } })
    ⟨hr.op_eq, hr.agent_eq, rfl, hr.tag_lt, hr.credit_eq⟩ hlost 0x0401 none

/-! ### A request taken at its port -/

theorem notLost_of_hostOpen {s : State} {p : Fin 32} (h : HostOpen s p) : s.flag R.CF_STAT_DEVLOST = false := by
  obtain ⟨hopen, -⟩ := h
  simp only [State.portOpen, State.lost, Bool.and_eq_true, Bool.not_eq_true'] at hopen
  exact hopen.2

/-- A flit of an open host out of L1 wakes nothing (R312, R434). -/
theorem State.hostFlit_open {s : State} {p : Fin 32} (h : HostOpen s p) : s.hostFlit p = s := by
  obtain ⟨-, hl1, hblaze, htarget⟩ := h
  simp [State.hostFlit, s.wake_awake 1 htarget hblaze, hl1]

/-- Without an open port or a credit a request is not taken (R303, assumption 125). -/
theorem State.takeHost_shut {s : State} {p : Fin 32} {r : Req} (h : s.portOpen p = false ∨ s.m2sCredit p r.op.isWrite = false)
    (offered : Bool) : s.takeHost p offered r = s := by
  unfold State.takeHost
  rcases h with h | h <;> simp [h]

theorem State.takeHost_open {s : State} {p : Fin 32} {r : Req} (hopen : HostOpen s p) (hcredit : s.m2sCredit p r.op.isWrite = true)
    (offered : Bool) : s.takeHost p offered r = (s.hostRequest p offered r).settleAll := by
  simp only [State.takeHost, hopen.1, hcredit, Bool.and_self, if_true, State.hostFlit_open hopen]

/-- A write that crosses no BISnp of its port is a request (R30). -/
theorem State.takeHostWrite_request {s : State} {p : Fin 32} {r : Req} {offered : Bool}
    (h : ∀ dec line, s.translate p r.addr = some (dec, line) →
      offered = false ∨ s.portOpen p = false ∨ s.biFor p line = none) :
    s.takeHostWrite p offered r = s.takeHost p offered r := by
  unfold State.takeHostWrite
  split
  next dec line htr => rcases h dec line htr with h | h | h <;> simp [h]
  next => rfl

/-- A write of an open host's recalled line is its writeback, completed at once (R74, R86; assumption 11). -/
theorem State.takeHostWrite_writeback {s : State} {p : Fin 32} {r : Req} {dec line : Nat} {b : Nat × Nat × Nat × Nat}
    (hopen : HostOpen s p) (htr : s.translate p r.addr = some (dec, line)) (hbi : s.biFor p line = some b) :
    ∃ q : Req, s.takeHostWrite p true r = ((s.hostWriteback p line r.data r.poison).toHost q false 0 false 0).settleAll ∧
      q.tag = r.tag ∧ q.agent = r.agent := by
  simp only [State.takeHostWrite, htr, hopen.1, hbi, Option.isSome_some, Bool.and_self, if_true, State.hostFlit_open hopen]
  exact ⟨_, rfl, rfl, rfl⟩

/-- A command brings a host's request: it is taken at its port (R47, R303). -/
def Brings (c : Instr) (s : State) (p : Fin 32) (offered : Bool) (op : ReqOp) (hpa : BitVec 64) : Prop :=
  ∃ r, HostAsks r p op hpa ∧ exec c s = .next (s.takeHost p offered r)

section
variable (s : State) (p : Fin 32) (tag : BitVec 16) (hpa : BitVec 64) (mv : MetaValue) (u : Upset) (poison : Bool) (data : Line)

/-- A read brings its request whatever field it names (R85, R299). -/
theorem brings_hostRead (ext offered : Bool) :
    Brings (.hostRead p tag hpa mv ext offered u) s p offered (.hostRd mv) hpa :=
  ⟨{ hostReq (.hostRd mv) p tag hpa with upset := u }, ⟨rfl, rfl, rfl, tag.isLt, rfl⟩, rfl⟩

theorem brings_hostNarrowWrite (offered : Bool) (be : BitVec 64) :
    Brings (.hostNarrowWrite p tag hpa mv offered be poison data u) s p offered (.hostPtl mv) hpa :=
  ⟨{ hostReq (.hostPtl mv) p tag hpa with data := data, be := be, poison := poison, upset := u },
    ⟨rfl, rfl, rfl, tag.isLt, rfl⟩, rfl⟩

/-- A full write brings a request unless it crosses a BISnp of its port (R30, R86). -/
theorem brings_hostWrite {offered : Bool} (h : ∀ dec line, s.translate p (hpaLine hpa) = some (dec, line) →
      offered = false ∨ s.portOpen p = false ∨ s.biFor p line = none) :
    Brings (.hostWrite p tag hpa mv offered poison data u) s p offered (.hostWr mv) hpa :=
  ⟨{ hostReq (.hostWr mv) p tag hpa with data := data, poison := poison, upset := u },
    ⟨rfl, rfl, rfl, tag.isLt, rfl⟩, congrArg _ (State.takeHostWrite_request h)⟩

end

section
variable {c : Instr} {s : State} {p : Fin 32} {op : ReqOp} {hpa : BitVec 64}

/-- A request of a port that is not open, or without a credit, changes nothing (R303, assumption 125). -/
theorem Brings.stays {offered : Bool} (hc : Brings c s p offered op hpa)
    (h : s.portOpen p = false ∨ s.m2sCredit p op.isWrite = false) : Does c s fun t => t = s := by
  obtain ⟨r, hr, hexec⟩ := hc
  exact ⟨_, hexec, State.takeHost_shut (by rwa [hr.op_eq]) offered⟩

/-- What an open host's request leaves before the block goes on. -/
theorem Brings.settles {offered : Bool} {P : State → Prop} (hc : Brings c s p offered op hpa)
    (h : HostOpen s p ∧ s.m2sCredit p op.isWrite = true) (hP : ∀ r, HostAsks r p op hpa → P (s.hostRequest p offered r)) :
    Settles c s P := by
  obtain ⟨r, hr, hexec⟩ := hc
  exact ⟨_, by rw [hexec, State.takeHost_open h.1 (by rw [hr.op_eq, h.2])], hP r hr⟩

theorem Brings.offered {dec line d : Nat} {e : Entry} (hc : Brings c s p true op hpa)
    (h : MayAsk s p hpa dec line d e op.isWrite) : Settles c s fun x => Offered s x p dec op line d e :=
  hc.settles ⟨h.1, h.2.1⟩ fun _ hr => State.hostRequest_offered h hr

theorem Brings.undecoded (hc : Brings c s p true op hpa) (h : HostOpen s p ∧ s.m2sCredit p op.isWrite = true)
    (htr : s.translate p (hpaLine hpa) = none) : Settles c s fun x => HostRefused s x p 0x0401 (hpaLine hpa) :=
  hc.settles h fun _ hr => State.hostRequest_undecoded hr (notLost_of_hostOpen h.1) htr

theorem Brings.unoffered (hc : Brings c s p false op hpa) (h : HostOpen s p ∧ s.m2sCredit p op.isWrite = true) :
    Settles c s fun x => HostRefused s x p 0x0403 (hpaLine hpa) :=
  hc.settles h fun _ hr => State.hostRequest_unoffered hr (notLost_of_hostOpen h.1)

end

/-- A speculative read of a port that is not open changes nothing (R299). -/
theorem does_memspecrd_shut {s : State} {p : Fin 32} (h : s.portOpen p = false) (hpa : BitVec 64) (offered : Bool) :
    Does (.memspecrd p hpa offered) s fun t => t = s :=
  ⟨_, rfl, by simp [h]⟩

/-- An open host's speculative read leaves no more than the record of an opcode that is not offered (R299). -/
theorem does_memspecrd_open {s : State} {p : Fin 32} (h : HostOpen s p) (hpa : BitVec 64) (offered : Bool) :
    Does (.memspecrd p hpa offered) s fun t => t = if offered then s else s.logPort 0x0403 p none hpa.toNat :=
  ⟨_, rfl, by simp only [h.1, if_true, State.hostFlit_open h]⟩

/-! ### Grants of an admission point -/

/-- One request that is not held back is the head of its point's queue. -/
theorem State.heads_single {s : State} {w : Waiting} (h : s.heldBack w.req = false) : s.heads [w] = [w] := by
  simp [State.heads, h]

theorem afterLast_single (last : Nat) (w : Waiting) : afterLast last [w] = some w := by
  unfold afterLast
  by_cases h : w.master > last <;> simp [h]

theorem weighted_single (t : Turn) (weight : Nat → Nat) (w : Waiting) : ∃ u, weighted t weight [w] = some (w, u) := by
  unfold weighted
  split
  next x hx =>
    obtain rfl := List.mem_singleton.mp (List.mem_of_find?_eq_some hx)
    exact ⟨_, rfl⟩
  next => exact ⟨_, by rw [afterLast_single]; rfl⟩

/-- An accepted request is granted first (R219, R228). -/
theorem State.choose_accepted (s : State) (g : Nat) {w : Waiting} (h : w.accepted = true) :
    s.choose g [w] = some (w, 0, s) := by
  simp [State.choose, h]

/-- With regulation off, the one request that waits is granted in tier X (R219). -/
theorem State.choose_unregulated {s : State} (g : Nat) {w : Waiting} (hacc : w.accepted = false)
    (hoff : s.flag R.RGL_CTL_EN.com = false) :
    ∃ u, s.choose g [w] = some (w, 3, { s with rgl := { s.rgl with turnX := s.rgl.turnX.put g u } }) := by
  obtain ⟨u, hu⟩ := weighted_single (s.rgl.turnX.get g) (fun m => max (s.weight m) 1) w
  exact ⟨u, by simp [State.choose, hacc, hoff, hu]⟩

/-- Where nothing waits, nothing is granted. -/
theorem State.admitNext_empty {s : State} {g : Nat} (h : s.rgl.admq.get g = []) : s.admitNext g = s := by
  have hheads : s.heads [] = [] := rfl
  have hchoose : s.choose g [] = none := by simp [State.choose, weighted, afterLast]
  simp [State.admitNext, h, hheads, hchoose]

/-- Classes noted at their caps change nothing else (R222). -/
theorem State.foldl_capHit_frame (s : State) (ws : List Waiting) : ∃ hit,
    ws.foldl (fun s w => { s with rgl := { s.rgl with capHit := s.rgl.capHit.put w.cls true } }) s =
      { s with rgl := { s.rgl with capHit := hit } } := by
  induction ws generalizing s with
  | nil => exact ⟨s.rgl.capHit, rfl⟩
  | cons w ws ih => exact ih { s with rgl := { s.rgl with capHit := s.rgl.capHit.put w.cls true } }

/-- A point that does not serve only notes which classes stand at their caps (R222). -/
theorem State.admitNext_notServing {s : State} (h : s.serving = false) (g : Nat) :
    (s.admitNext g).rgl.admq = s.rgl.admq ∧ (s.admitNext g).coh = s.coh := by
  obtain ⟨hit, hfold⟩ := s.foldl_capHit_frame ((s.heads (s.rgl.admq.get g)).filter fun w => s.capped w.cls && !w.accepted)
  have hserving : State.serving { s with rgl := { s.rgl with capHit := hit } } = false := h
  simp [State.admitNext, hfold, hserving]

/-- The one request of a point, where it may go, is taken from the queue and granted as the point chooses. -/
theorem State.admitNext_single {s s' : State} {g : Nat} {w : Waiting} {tier : Nat} (hserving : s.serving = true)
    (hq : s.rgl.admq.get g = [w]) (hheld : s.heldBack w.req = false) (hmay : s.mayAdmit g w = true)
    (hchoose : s.choose g [w] = some (w, tier, s')) :
    s.admitNext g = State.grant { s' with rgl := { s'.rgl with admq := s'.rgl.admq.put g [] } } g w tier := by
  have hcap : (s.capped w.cls && !w.accepted) = false := by
    obtain ⟨hadm, -⟩ := Bool.and_eq_true_iff.mp hmay
    rcases Bool.or_eq_true_iff.mp hadm with hacc | hcapped
    · rw [hacc, Bool.not_true, Bool.and_false]
    · rw [(Bool.not_eq_true' _).mp hcapped, Bool.false_and]
  simp [State.admitNext, hq, State.heads_single hheld, hcap, hserving, hmay, hchoose]

/-! ### Grants of backing -/

/-- The one transaction that waits at a slice is taken from its wait list (R120). -/
theorem State.takeBacking_single {s : State} {n i : Nat} (hw : s.tier.waitq.get n = [i]) (ho : s.tier.overq.get n = []) :
    s.takeBacking n = some (i, { s with tier := { s.tier with waitq := s.tier.waitq.put n [] } }) := by
  simp only [State.takeBacking, hw, ho]

theorem State.grantBacking_none {s : State} (h : s.nextBacking = none) : s.grantBacking = s := by
  simp only [State.grantBacking, h]

/-- A transaction whose page is backed by now is served at once, in a transaction entry again (R120). -/
theorem State.grantBacking_backed {s : State} {n i : Nat} {t : HomeTx} (hn : s.nextBacking = some n)
    (hw : s.tier.waitq.get n = [i]) (ho : s.tier.overq.get n = []) (ht : s.tx i = some t) (hp : s.pressure ≠ 3)
    (hdraw : s.waitingDraw t = 0) (hmig : s.migHolds t.line = false)
    (hpage : (s.page (t.req.entry.mapKey t.req.addr)).state = 1) :
    s.grantBacking = (State.updTx { s with tier := { s.tier with
      waitq := s.tier.waitq.put n [], nextSlice := (n + 1) % 16 } } i fun t => { t with busy := true }).serveBacked
        { t with busy := true } := by
  simp [State.grantBacking, hn, State.takeBacking_single hw ho, ht, hp, hmig, hdraw, hpage]

/-- A draw that Free does not allow moves the state back to Held (R119, R120). -/
theorem State.grantBacking_refused {s : State} {n i : Nat} {t : HomeTx} (hn : s.nextBacking = some n)
    (hw : s.tier.waitq.get n = [i]) (ho : s.tier.overq.get n = []) (ht : s.tx i = some t) (hp : s.pressure ≠ 3)
    (hmig : s.migHolds t.line = false) (hdraw : 0 < s.waitingDraw t) (hfree : s.mayDraw (s.waitingDraw t) = false) :
    s.grantBacking = s.enterPressure 3 := by
  simp [State.grantBacking, hn, State.takeBacking_single hw ho, ht, hp, hmig, hdraw, hfree]

/-- In Held, nothing is granted (R120). -/
theorem State.grantBacking_held {s : State} (hp : s.pressure = 3)
    (h : s.nextBacking.all (fun n => ((s.tier.waitq.get n).head?.bind s.tx).isSome) = true) : s.grantBacking = s := by
  cases hn : s.nextBacking with
  | none => exact State.grantBacking_none hn
  | some n =>
    rw [hn, Option.all_some] at h
    obtain ⟨t, ht⟩ := Option.isSome_iff_exists.mp h
    obtain ⟨i, hi, ht⟩ := Option.bind_eq_some_iff.mp ht
    obtain ⟨q, hw⟩ := List.head?_eq_some_iff.mp hi
    cases ho : s.tier.overq.get n <;> simp [State.grantBacking, hn, State.takeBacking, hw, ho, ht, hp]

end Sys2Proof.Machine

namespace Sys2Proof

open Sys2Proof.Machine

/-- Settles O51: a command that brings a host's request (`Brings`) ends in the offer, the refusal or nothing; the grants are
what a point or a slice does with the one request that waits there. -/
theorem hostRequestsAndGrants : Obligations.HostRequestsAndGrants := by
  intro s port tag hpa mv dec line offered poison ext be data u g d e at_ loose undecoded asks rd wr ptl q
  have hrd : ∀ o, Brings (rd o) s port o (.hostRd mv) hpa := brings_hostRead s port tag hpa mv u ext
  have hptl : ∀ o, Brings (ptl o) s port o (.hostPtl mv) hpa := fun o =>
    brings_hostNarrowWrite s port tag hpa mv u poison data o be
  have hwr : ∀ {o}, _ → Brings (wr o) s port o (.hostWr mv) hpa := brings_hostWrite s port tag hpa mv u poison data
  refine ⟨?shut, ?readCredit, ?writeCredit, ?readOffered, ?writeOffered, ?narrowOffered, ?readUndecoded, ?writeUndecoded,
    ?readUnoffered, ?writeUnoffered, ?speculative, ?writeback, ?idle, ?notServing, ?accepted, ?unregulated, ?noBacking,
    ?backed, ?drawRefused, ?heldState⟩
  case shut =>
    exact fun h => ⟨(hrd _).stays (.inl h), (hwr fun _ _ _ => .inr (.inl h)).stays (.inl h), (hptl _).stays (.inl h),
      does_memspecrd_shut h hpa offered⟩
  case readCredit => exact fun h => (hrd _).stays (.inr h)
  case writeCredit => exact fun h => (hptl _).stays (.inr h)
  case readOffered => exact fun h => (hrd _).offered h
  case writeOffered =>
    intro h hloose
    refine (hwr fun dec' line' htr => ?_).offered h
    obtain ⟨-, -, htr', -⟩ := h
    obtain ⟨-, rfl⟩ := Prod.mk.inj (Option.some.inj (htr.symm.trans htr'))
    exact .inr (.inr hloose)
  case narrowOffered => exact fun h => (hptl _).offered h
  case readUndecoded => exact fun h htr => (hrd _).undecoded h htr
  case writeUndecoded =>
    exact fun h htr => ⟨(hwr fun _ _ htr' => absurd (htr.symm.trans htr') nofun).undecoded h htr, (hptl _).undecoded h htr⟩
  case readUnoffered => exact fun h => (hrd _).unoffered h
  case writeUnoffered => exact fun h => ⟨(hwr fun _ _ _ => .inl rfl).unoffered h, (hptl _).unoffered h⟩
  case speculative =>
    intro h
    obtain ⟨t, hexec, rfl⟩ := does_memspecrd_open h hpa false
    exact ⟨does_memspecrd_open h hpa true, _, hexec, s.logPort_inRing 0x0403 port none hpa.toNat (notLost_of_hostOpen h)⟩
  case writeback =>
    intro b h htr hbi
    obtain ⟨r, hr, htag, hagent⟩ := State.takeHostWrite_writeback
      (r := { hostReq (.hostWr mv) port tag hpa with data := data, poison := poison, upset := u }) h htr hbi
    exact ⟨_, congrArg _ hr, r, rfl, htag, hagent⟩
  case idle => exact fun h => ⟨_, rfl, State.admitNext_empty h⟩
  case notServing => exact fun h => ⟨_, rfl, State.admitNext_notServing h g⟩
  case accepted =>
    intro w hserving hq hacc hheld hmay
    exact ⟨_, rfl, _, State.admitNext_single hserving hq hheld hmay (s.choose_accepted g hacc), by simp, rfl, rfl⟩
  case unregulated =>
    intro w hserving hq hacc hheld hmay hoff
    obtain ⟨u, hchoose⟩ := State.choose_unregulated g hacc hoff
    exact ⟨_, rfl, _, State.admitNext_single hserving hq hheld hmay hchoose, by simp, rfl⟩
  case noBacking => exact fun h => ⟨_, rfl, State.grantBacking_none h⟩
  case backed =>
    intro n i t hn hw ho ht hp hdraw hmig hpage
    exact ⟨_, rfl, _, State.grantBacking_backed hn hw ho ht hp hdraw hmig hpage, Tab.get_put_same _ n [], rfl, rfl⟩
  case drawRefused =>
    intro n i t hn hw ho ht hp hmig hdraw hfree
    exact ⟨_, rfl, State.grantBacking_refused hn hw ho ht hp hmig hdraw hfree⟩
  case heldState => exact fun hp h => ⟨_, rfl, State.grantBacking_held hp h⟩

end Sys2Proof
end

section
/-!
PROOFS. Operations on a Kindling slice (R67, R68), and blocks that leave compressors, decompressors and fills (R60 to R63, R136 to
R141): what records and counts leave of an engine's registers, and each operation where its statement has it.
-/
namespace Sys2Proof.Machine

/-! ### Flags written -/

theorem State.flag_set1_same (s : State) (f : Fld) (h : f.lo ≤ f.hi) (hw : f.hi < 32) : (s.set1 f).flag f = true := by
  have hwidth : 1 < 2 ^ (f.hi - f.lo + 1) := Nat.one_lt_two_pow (Nat.succ_ne_zero _)
  rw [State.flag, State.set1, State.rd_wr_same s f 1 h hw, Nat.mod_eq_of_lt hwidth]
  rfl

theorem State.rd_clr_same (s : State) (f : Fld) (h : f.lo ≤ f.hi) (hw : f.hi < 32) : (s.clr f).rd f = 0 := by
  rw [State.clr, State.rd_wr_same s f 0 h hw, Nat.zero_mod]

/-- Where a register reads the same, its fields do. -/
theorem State.rd_of_reg {s t : State} {f : Fld} (h : t.reg f.off = s.reg f.off) : t.rd f = s.rd f := by
  simp only [State.rd, h]

theorem State.flag_of_reg {s t : State} {f : Fld} (h : t.reg f.off = s.reg f.off) : t.flag f = s.flag f := by
  simp only [State.flag, State.rd_of_reg h]

/-- The registers of a state do not lie in its Kindling cache. -/
theorem State.rd_withKind (s : State) (k : KindState) (f : Fld) : ({ s with kind := k } : State).rd f = s.rd f := rfl

/-! ### What records and counts leave -/

@[simp] theorem State.log_kind (s : State) (r : Record) : (s.log r).kind = s.kind := by
  obtain ⟨_, _, _, h⟩ := s.log_frame r
  rw [h]

@[simp] theorem State.log_eng (s : State) (r : Record) : (s.log r).eng = s.eng := by
  obtain ⟨_, _, _, h⟩ := s.log_frame r
  rw [h]

@[simp] theorem State.countBlk_kind (s : State) (blk code n : Nat) (dom cls : Option Nat) :
    (s.countBlk blk code n dom cls).kind = s.kind := by
  obtain ⟨_, _, h⟩ := s.count_frame (blk / 4) (blk % 4) code n dom cls
  rw [State.countBlk, h]

@[simp] theorem State.countBlk_eng (s : State) (blk code n : Nat) (dom cls : Option Nat) :
    (s.countBlk blk code n dom cls).eng = s.eng := by
  obtain ⟨_, _, h⟩ := s.count_frame (blk / 4) (blk % 4) code n dom cls
  rw [State.countBlk, h]

theorem State.noteFault_reg (s : State) (r : Record) {off : Nat} (hregion : ∀ rg, off ≠ R.RF_STAT rg) :
    (s.noteFault r).reg off = s.reg off := by
  unfold State.noteFault
  split
  next rg _ =>
    split
    · rfl
    · split
      · exact State.reg_setReg_other _ _ _ _ (hregion rg)
      · split
        · exact State.reg_setReg_other _ _ _ _ (hregion rg)
        · rfl
  next => rfl

theorem State.addRecord_reg (s : State) (r : Record) {off : Nat} (hnext : off ≠ R.CF_NEXT) (hstat : off ≠ R.CF_STAT) :
    (s.addRecord r).reg off = s.reg off := by
  have hring : ∀ (t : State) v, t.regs = s.regs → (t.wr R.CF_NEXT_NEXT v).reg off = s.reg off := fun t _ h =>
    (State.reg_setReg_other _ _ _ _ hnext).trans (State.reg_congr h off)
  unfold State.addRecord
  dsimp only
  by_cases hsev : r.sev ≥ 2
  · rw [if_pos hsev]
    refine (State.reg_setReg_other _ _ _ _ hstat).trans (hring _ _ ?_)
    split <;> rfl
  · rw [if_neg hsev]
    refine hring _ _ ?_
    split <;> rfl

/-- A record moves the next index, notes a new record and counts at its region, and touches no other register (R383). -/
theorem State.log_reg_apart (s : State) (r : Record) {off : Nat} (hnext : off ≠ R.CF_NEXT) (hstat : off ≠ R.CF_STAT)
    (hregion : ∀ rg, off ≠ R.RF_STAT rg) : (s.log r).reg off = s.reg off := by
  have hnote := s.noteFault_reg r hregion
  unfold State.log
  dsimp only
  split
  · exact hnote
  · exact (State.addRecord_reg _ r hnext hstat).trans hnote

theorem State.bump_reg (s : State) (bank k n : Nat) (sat : Bool) {off : Nat} (h : off ≠ (ovfFld bank k).off) :
    (s.bump bank k n sat).reg off = s.reg off := by
  unfold State.bump
  split
  · rfl
  · dsimp only
    split
    · exact State.reg_setReg_other _ _ _ _ h
    · rfl

theorem State.lt_of_mem_enabledCtrs {s : State} {bank i : Nat} (h : i ∈ s.enabledCtrs bank) : i < 64 := by
  have hrange := List.mem_range.mp (List.mem_filter.mp h).1
  split at hrange <;> omega

/-- A walk over counters whose every step keeps a register keeps it. -/
theorem State.foldl_reg (s : State) (l : List Nat) (g : State → Nat → State) {off : Nat}
    (hg : ∀ t, ∀ k ∈ l, (g t k).reg off = t.reg off) : (l.foldl g s).reg off = s.reg off :=
  List.foldlRecOn l g (motive := fun t => t.reg off = s.reg off) rfl fun t ht k hk => (hg t k hk).trans ht

/-- Counted events touch the overflow registers of their bank and no other (R366). -/
theorem State.count_reg (s : State) (bank unit code n : Nat) (dom cls : Option Nat) {off : Nat}
    (h : ∀ k, k < 80 → off ≠ (ovfFld bank k).off) : (s.count bank unit code n dom cls).reg off = s.reg off := by
  have hprog := s.foldl_reg (s.enabledCtrs bank)
    (fun s i => if ctrSelects (s.reg (ctlOff bank i)) (s.reg (filtOff bank i)) bank 0 code unit dom cls then
      s.bump bank i n (bit (s.reg (ctlOff bank i)) 29) else s) (off := off) fun t k hk => by
        have hlt := State.lt_of_mem_enabledCtrs hk
        split
        · exact t.bump_reg bank k n _ (h k (by omega))
        · rfl
  unfold State.count
  dsimp only
  split
  · exact hprog
  · refine (State.foldl_reg _ _ _ fun t k hk => ?_).trans hprog
    have hlt := List.mem_range.mp hk
    split
    · exact t.bump_reg bank (64 + k) n _ (h _ (by omega))
    · rfl

/-- A register of an engine: its control or its status. -/
abbrev EngineReg (e off : Nat) : Prop := off = R.ENG_CZCTL e ∨ off = R.ENG_CZSTAT e

theorem State.log_engineReg (s : State) (r : Record) {e off : Nat} (h : EngineReg e off) : (s.log r).reg off = s.reg off := by
  simp only [EngineReg, R.ENG_CZCTL, R.ENG_CZSTAT] at h
  refine s.log_reg_apart r ?_ ?_ fun rg => ?_
  · simp only [R.CF_NEXT]; omega
  · simp only [R.CF_STAT]; omega
  · simp only [R.RF_STAT]; omega

/-- The overflow registers of the counters stand apart from the engines' registers. -/
theorem State.countBlk_engineReg (s : State) (blk code n : Nat) (dom cls : Option Nat) {e off : Nat} (h : EngineReg e off) :
    (s.countBlk blk code n dom cls).reg off = s.reg off := by
  simp only [EngineReg, R.ENG_CZCTL, R.ENG_CZSTAT] at h
  refine s.count_reg _ _ code n dom cls fun k hk => ?_
  unfold ovfFld
  split
  · simp only [Fld.bitAt, R.CHIP_COVF0_OVF, R.CHIP_COVF0]; omega
  · simp only [Fld.bitAt, R.RC_OVF_OVF, R.RC_OVF]; omega

/-! ### Operations on a slice -/

/-- An operation started on an idle slice is of its kind and scope, BUSY with no set visited (R68). -/
theorem State.startClean_idle {s : State} {n : Nat} (h : s.flag (R.KS_OPSTAT_BUSY n) = false) (op : Nat) (scope : Bool) (d : Nat) :
    (s.startClean n op scope d).flag (R.KS_OPSTAT_BUSY n) = true ∧ (s.startClean n op scope d).rd (R.KS_OPSTAT_SETS n) = 0 ∧
      (s.startClean n op scope d).kind = { s.kind with
        op := s.kind.op.put n (1 + 2 * op + b2n scope), opDom := s.kind.opDom.put n d, opSet := s.kind.opSet.put n 0 } := by
  have hstart : s.startClean n op scope d = s.beginClean n op scope d := by simp [State.startClean, h]
  rw [hstart]
  refine ⟨?_, State.rd_clr_same _ _ (by decide : 0 ≤ 13) (by decide : 13 < 32), rfl⟩
  rw [State.flag, State.beginClean, State.clr,
    State.rd_wr_other _ _ _ _ (by decide : 0 ≤ 13) (by decide : 31 ≤ 31) (.inr (.inl (by decide : 13 < 31)))]
  exact State.flag_set1_same _ _ (by decide : 31 ≤ 31) (by decide : 31 < 32)

theorem State.startClean_busy {s : State} {n : Nat} (h : s.flag (R.KS_OPSTAT_BUSY n) = true) (op : Nat) (scope : Bool) (d : Nat) :
    s.startClean n op scope d = s := by
  simp [State.startClean, h]

theorem State.visitSet_idle {s : State} {n : Nat} (h : s.kind.op.get n = 0) : s.visitSet n = s := by
  simp [State.visitSet, h]

theorem State.visitWay_invalid {s : State} {n set w : Nat} (h : (s.kLine n set w).st = .invalid) :
    s.visitWay n set w = (true, s) := by
  simp [State.visitWay, State.inScope, h]

/-- Nothing in an empty set holds its visit up. -/
theorem State.visitWays_empty {s : State} {n set : Nat} (h : ∀ w, w < 16 → (s.kLine n set w).st = .invalid) :
    (List.range 16).foldl (fun (a : Bool × State) w => let r := a.2.visitWay n set w; (a.1 && r.1, r.2)) (true, s) = (true, s) :=
  List.foldlRecOn (List.range 16) _ (motive := (· = (true, s))) rfl fun a ha w hw => by
    rw [ha, State.visitWay_invalid (h w (List.mem_range.mp hw))]
    rfl

/-- The state after the visit of an empty set, which is counted: the last one ends the operation (R68). -/
def State.emptyVisited (s : State) (n : Nat) (last : Bool) : State :=
  let set := s.kind.opSet.get n
  let s := s.wr (R.KS_OPSTAT_SETS n) (set + 1)
  let s : State := { s with kind := { s.kind with
    opSet := s.kind.opSet.put n (if last then 0 else set + 1)
    op := if last then s.kind.op.put n 0 else s.kind.op } }
  if last then s.clr (R.KS_OPSTAT_BUSY n) else s

theorem State.visitSet_empty {s : State} {n : Nat} (hop : s.kind.op.get n ≠ 0)
    (hempty : ∀ w, w < 16 → (s.kLine n (s.kind.opSet.get n) w).st = .invalid) :
    s.visitSet n = s.emptyVisited n (decide (s.kind.opSet.get n ≥ 12287)) := by
  unfold State.visitSet State.emptyVisited
  dsimp only
  rw [if_neg (by simpa using hop), State.visitWays_empty hempty, if_neg (by simp)]

theorem State.emptyVisited_sets (s : State) (n : Nat) (last : Bool) :
    (s.emptyVisited n last).rd (R.KS_OPSTAT_SETS n) = (s.kind.opSet.get n + 1) % 2 ^ 14 := by
  have hset : (s.wr (R.KS_OPSTAT_SETS n) (s.kind.opSet.get n + 1)).rd (R.KS_OPSTAT_SETS n) = (s.kind.opSet.get n + 1) % 2 ^ 14 :=
    s.rd_wr_same _ _ (by decide : 0 ≤ 13) (by decide : 13 < 32)
  unfold State.emptyVisited
  dsimp only
  split
  · rw [State.clr, State.rd_wr_other _ (R.KS_OPSTAT_BUSY n) _ _ (by decide : 31 ≤ 31) (by decide : 0 ≤ 13)
      (.inr (.inr (by decide : 13 < 31))), State.rd_withKind, hset]
  · rw [State.rd_withKind, hset]

theorem State.emptyVisited_more (s : State) (n : Nat) : (s.emptyVisited n false).kind =
    { s.kind with opSet := s.kind.opSet.put n (s.kind.opSet.get n + 1) } := by
  simp only [State.emptyVisited, Bool.false_eq_true, if_false]
  rw [State.wr_kind]

theorem State.emptyVisited_last (s : State) (n : Nat) :
    (s.emptyVisited n true).flag (R.KS_OPSTAT_BUSY n) = false ∧ (s.emptyVisited n true).kind =
      { s.kind with opSet := s.kind.opSet.put n 0, op := s.kind.op.put n 0 } := by
  simp only [State.emptyVisited, if_true]
  rw [State.flag, State.rd_clr_same _ _ (by decide : 31 ≤ 31) (by decide : 31 < 32), State.clr_kind, State.wr_kind]
  exact ⟨rfl, rfl⟩

/-- The visit of an empty set counts it and goes on to the next (R68). -/
theorem State.visitSet_counted {s : State} {n : Nat} (hop : s.kind.op.get n ≠ 0)
    (hempty : ∀ w, w < 16 → (s.kLine n (s.kind.opSet.get n) w).st = .invalid) (hset : s.kind.opSet.get n < 12287) :
    (s.visitSet n).rd (R.KS_OPSTAT_SETS n) = s.kind.opSet.get n + 1 ∧
      (s.visitSet n).kind = { s.kind with opSet := s.kind.opSet.put n (s.kind.opSet.get n + 1) } := by
  have hmore : decide (s.kind.opSet.get n ≥ 12287) = false := decide_eq_false (Nat.not_le.mpr hset)
  rw [State.visitSet_empty hop hempty, hmore, State.emptyVisited_sets, State.emptyVisited_more]
  exact ⟨Nat.mod_eq_of_lt (by omega), rfl⟩

/-- The visit of the last set, empty, counts it and ends the operation (R68). -/
theorem State.visitSet_last {s : State} {n : Nat} (hop : s.kind.op.get n ≠ 0)
    (hempty : ∀ w, w < 16 → (s.kLine n (s.kind.opSet.get n) w).st = .invalid) (hset : s.kind.opSet.get n = 12287) :
    (s.visitSet n).flag (R.KS_OPSTAT_BUSY n) = false ∧ (s.visitSet n).rd (R.KS_OPSTAT_SETS n) = 12288 ∧
      (s.visitSet n).kind.op.get n = 0 := by
  have hlast : decide (s.kind.opSet.get n ≥ 12287) = true := decide_eq_true (Nat.le_of_eq hset.symm)
  obtain ⟨hbusy, hkind⟩ := s.emptyVisited_last n
  rw [State.visitSet_empty hop hempty, hlast, State.emptyVisited_sets, hkind]
  exact ⟨hbusy, by omega, Tab.get_put_same ..⟩

/-! ### Ways out of service -/

/-- A way of a cache that holds nothing is empty at once (R67). -/
theorem State.emptyWay_empty {s : State} (hlines : s.kind.lines = Tab.empty) (hdrain : s.kind.drain = []) (n w : Nat) :
    s.emptyWay n w = s := by
  have hcells : s.kind.lines.cells = [] := congrArg Tab.cells hlines
  simp only [State.emptyWay, State.drainWay, State.evictAllOf, hdrain, hcells, List.contains_nil, Bool.false_eq_true, if_false,
    List.map_nil, List.filter_nil, List.foldl_nil, if_true, List.nil_append, List.filter_cons, bne_self_eq_false]
  rw [← hdrain]

/-- The ways of a cache that holds nothing leave service by their bits, and nothing more happens (R67). -/
theorem State.writeWays_empty {s : State} (hlines : s.kind.lines = Tab.empty) (hdrain : s.kind.drain = []) (n ways : Nat) :
    s.writeWays n ways = s.wr (R.KS_WAYDIS_WAYS n) ways := by
  unfold State.writeWays
  dsimp only
  generalize s.rd (R.KS_WAYDIS_WAYS n) = old, R.KS_WAYDIS_WAYS n = f
  refine List.foldlRecOn (List.range 16) _ (motive := (· = s.wr f ways)) rfl fun t ht w _ => ?_
  rw [ht, State.emptyWay_empty (by rw [State.wr_kind, hlines]) (by rw [State.wr_kind, hdrain]), ite_self]

/-! ### Compressors -/

theorem State.compressDone_none {s : State} {e : Nat} (h : s.eng.cq.get e = []) (fault : Bool) : s.compressDone e fault = s := by
  simp [State.compressDone, State.popCompress, h]

/-- The oldest block of a queue leaves it, and `CQ` counts the others, which keep their order (R135, R140). -/
theorem State.popCompress_cons {s : State} {e : Nat} {j : CzJob} {q : List CzJob} (h : s.eng.cq.get e = j :: q) :
    ∃ x, s.popCompress e = some (j, x) ∧ x.eng.czHeld = s.eng.czHeld ∧
      (x.eng.cq.get e).map (·.granule) = q.map (·.granule) ∧ x.rd (R.ENG_CZSTAT_CQ e) = q.length % 8 := by
  cases q with
  | nil | cons =>
    refine ⟨_, by simp only [State.popCompress, h]; rfl, ?_⟩
    rw [State.wr_eng, Tab.get_put_same, State.rd_wr_same _ _ _ (by decide : 8 ≤ 10) (by decide : 10 < 32)]
    exact ⟨rfl, rfl, rfl⟩

/-- Data that has to be encrypted with no encrypt pipeline in service stays where it is (R149). -/
theorem State.compressDone_noEncrypt {s : State} {e : Nat} {j : CzJob} {q : List CzJob} (h : s.eng.cq.get e = j :: q)
    (henc : s.noEncrypt j.entry.encrypt = true) : s.compressDone e false = s := by
  obtain ⟨x, hpop, -⟩ := State.popCompress_cons h
  simp only [State.compressDone, hpop, henc, Bool.false_eq_true, if_false, if_true]

theorem State.keepBlock_eng (s : State) (j : CzJob) :
    (s.keepBlock j).eng = { s.eng with czHeld := s.eng.czHeld ++ [j] } := rfl

theorem State.keepBlock_reg (s : State) (j : CzJob) (off : Nat) : (s.keepBlock j).reg off = s.reg off := rfl

/-- A block that has left the cache and does not compress is kept for its page's promotion (R139). -/
theorem State.takeBlock_kept (s : State) {j : CzJob} (hmig : j.mig = none) (hplace : j.place = .out) :
    s.takeBlock j none = some (s.keepBlock j) := by
  simp [State.takeBlock, State.takeDirty, State.jobData, hmig, hplace]

/-- A poisoned block at the head of a queue leaves it to be kept (R139, R310). -/
theorem State.compressDone_poisoned {s : State} {e : Nat} {j : CzJob} {q : List CzJob} (h : s.eng.cq.get e = j :: q)
    (henc : s.noEncrypt j.entry.encrypt = false) (hpoison : j.poison = true) (hmig : j.mig = none) (hfirst : j.first = none)
    (hplace : j.place = .out) : (s.compressDone e false).eng.czHeld = s.eng.czHeld ++ [j] ∧
      ((s.compressDone e false).eng.cq.get e).map (·.granule) = q.map (·.granule) ∧
      (s.compressDone e false).rd (R.ENG_CZSTAT_CQ e) = q.length % 8 := by
  obtain ⟨x, hpop, hheld, hq, hcq⟩ := State.popCompress_cons h
  have hblock : s.compressBlock j = none := by simp [State.compressBlock, hpoison]
  have hdone : s.compressDone e false = (x.countForm e j none).keepBlock j := by
    simp only [State.compressDone, hpop, henc, hfirst, hblock, Bool.false_eq_true, if_false, State.takeBlock_kept _ hmig hplace,
      Option.getD_some]
  have hkept : (x.countForm e j none).eng = x.eng := x.countBlk_eng ..
  have hreg : (x.countForm e j none).reg (R.ENG_CZSTAT e) = x.reg (R.ENG_CZSTAT e) := x.countBlk_engineReg _ _ _ _ _ (.inr rfl)
  rw [hdone, State.keepBlock_eng, hkept, hheld]
  exact ⟨rfl, hq, (State.rd_of_reg ((State.keepBlock_reg ..).trans hreg)).trans hcq⟩

/-- A fault on the second attempt at a block takes the compressor of the first out of service; the block is kept (R138, R139). -/
theorem State.compressDone_fault {s : State} {e : Nat} {j : CzJob} {q : List CzJob} (h : s.eng.cq.get e = j :: q)
    (hmig : j.mig = none) (hfirst : j.first = some e) (hplace : j.place = .out) :
    (s.compressDone e true).flag (R.ENG_CZSTAT_CFAULT e) = true ∧ (s.compressDone e true).flag (R.ENG_CZCTL_CDIS e) = true ∧
      (s.compressDone e true).eng.czHeld = s.eng.czHeld ++ [j] := by
  obtain ⟨x, hpop, hheld, -⟩ := State.popCompress_cons h
  have hdone : s.compressDone e true = (((x.set1 (R.ENG_CZSTAT_CFAULT e)).set1 (R.ENG_CZCTL_CDIS e)).logEngine e
      R.ENG_CZCTL_CDIS true).keepBlock j := by
    simp only [State.compressDone, hpop, State.compressFault, hfirst, Option.isNone_some, Bool.false_and, Bool.false_eq_true,
      if_false, if_true, Option.getD_some, State.takeBlock_kept _ hmig hplace]
  have hreg : ∀ {off}, EngineReg e off → (s.compressDone e true).reg off =
      ((x.set1 (R.ENG_CZSTAT_CFAULT e)).set1 (R.ENG_CZCTL_CDIS e)).reg off := fun hoff => by
    rw [hdone, State.keepBlock_reg, State.logEngine, State.log_engineReg _ _ hoff]
  have hapart : R.ENG_CZSTAT e ≠ R.ENG_CZCTL e := by
    simp only [R.ENG_CZSTAT, R.ENG_CZCTL]
    omega
  refine ⟨?_, ?_, ?_⟩
  · rw [State.flag_of_reg ((hreg (.inr rfl)).trans (State.reg_setReg_other _ _ _ _ hapart))]
    exact State.flag_set1_same _ _ (by decide : 31 ≤ 31) (by decide : 31 < 32)
  · rw [State.flag_of_reg (hreg (.inl rfl))]
    exact State.flag_set1_same _ _ (by decide : 31 ≤ 31) (by decide : 31 < 32)
  · rw [hdone, State.keepBlock_eng, State.logEngine, State.log_eng, State.set1_eng, State.set1_eng, hheld]

/-! ### Decompressors -/

theorem State.decompressDone_none {s : State} {e : Nat} (h : s.eng.dq.get e = []) (fault : Bool) :
    s.decompressDone e fault = s := by
  simp [State.decompressDone, State.popDecompress, h]

/-- The oldest fill of a queue leaves it (R135). -/
theorem State.popDecompress_cons {s : State} {e i : Nat} {q : List Nat} (h : s.eng.dq.get e = i :: q) :
    ∃ x, s.popDecompress e = some (i, x) ∧ x.kind = s.kind ∧ x.eng.dq.get e = q := by
  refine ⟨_, by simp only [State.popDecompress, h]; rfl, ?_, ?_⟩
  · rw [State.wr_kind]
  · rw [State.wr_eng, Tab.get_put_same]

/-- A decoded block counted and put in its fill. -/
theorem State.updFill_decoded (s : State) {e : Nat} {f : Fill} (b : List Byte) (hfills : s.kind.fills = [f])
    (hdq : s.eng.dq.get e = []) (blk code n : Nat) (dom cls : Option Nat) :
    ((s.countBlk blk code n dom cls).updFill f.id fun f => { f with out := b, ready := true }).kind.fills =
        [{ f with out := b, ready := true }] ∧
      ((s.countBlk blk code n dom cls).updFill f.id fun f => { f with out := b, ready := true }).eng.dq.get e = [] := by
  refine ⟨?_, ?_⟩
  · simp only [State.updFill, State.countBlk_kind, hfills, List.map_cons, List.map_nil, beq_self_eq_true, if_true]
  · rw [State.updFill_eng, State.countBlk_eng, hdq]

/-- A block decoded is ready in its fill with its bytes, and has left the queue (R136). -/
theorem State.decompressDone_decoded {s : State} {e : Nat} {f : Fill} {b : List Byte} (hq : s.eng.dq.get e = [f.id])
    (hfills : s.kind.fills = [f]) (hdecode : tbcDecode f.unit f.n = some b) :
    (s.decompressDone e false).kind.fills = [{ f with out := b, ready := true }] ∧
      (s.decompressDone e false).eng.dq.get e = [] := by
  obtain ⟨x, hpop, hkind, hdq⟩ := State.popDecompress_cons hq
  have hfills : x.kind.fills = [f] := by rw [hkind, hfills]
  have hfill : x.fill f.id = some f := by simp [State.fill, hfills]
  simp only [State.decompressDone, hpop, hfill, hdecode, Bool.false_eq_true, if_false]
  split
  · exact State.updFill_decoded _ b (by rw [State.logEngine, State.log_kind, hfills]) (by rw [State.logEngine, State.log_eng, hdq]) ..
  · split
    · exact State.updFill_decoded _ b (by rw [State.logTag, State.log_kind, hfills]) (by rw [State.logTag, State.log_eng, hdq]) ..
    · exact x.updFill_decoded b hfills hdq ..

/-! ### Fills -/

theorem State.installFill_none {s : State} {id : Nat} (h : s.fill id = none) : s.installFill id = s := by
  simp only [State.installFill, h]

theorem State.installFill_unready {s : State} {id : Nat} {f : Fill} (h : s.fill id = some f) (hready : f.ready = false) :
    s.installFill id = s := by
  simp [State.installFill, h, hready]

/-- A ready block that lies in a way already is dropped (R60, R61). -/
theorem State.installFill_present {s : State} {id : Nat} {f : Fill} (h : s.fill id = some f) (hready : f.ready = true)
    (hclean : f.dirty = false) (hwaits : s.waitsOn f = []) (hway : (s.kWay f.slice (f.granule * 1024)).isSome = true) :
    s.installFill id = s.dropFill id := by
  simp [State.installFill, h, hready, hclean, hwaits, hway]

/-- A ready block that finds a way is installed there, and its fill is gone (R60, R63). -/
theorem State.installFill_installed {s y : State} {id : Nat} {f : Fill} (h : s.fill id = some f) (hready : f.ready = true)
    (hclean : f.dirty = false) (hwaits : s.waitsOn f = []) (hway : s.kWay f.slice (f.granule * 1024) = none)
    (hmay : s.hasWay f.slice f.entry = true) (hfill : s.fillBlock f.slice f.entry f.granule .homeClean f.out = (true, y)) :
    s.installFill id = y.dropFill id := by
  simp [State.installFill, h, hready, hclean, hwaits, hway, hmay, hfill]

end Sys2Proof.Machine

namespace Sys2Proof

open Sys2Proof.Machine

/-- A command of a path that reaches the slice starts its operation there, unless one is in progress. -/
theorem does_clean {s : State} {p : Path} (h : Reachable s p) (n : Fin 16) (scope : Bool) (dom : BitVec 14) {P : State → Prop}
    (hP : P (s.startClean n 0 scope dom.toNat)) : Does (.clean p n scope dom) s P :=
  ⟨_, rfl, by rwa [State.viaPath_reachable h]⟩

theorem does_cleanAndInvalidate {s : State} {p : Path} (h : Reachable s p) (n : Fin 16) (scope : Bool) (dom : BitVec 14)
    {P : State → Prop} (hP : P (s.startClean n 1 scope dom.toNat)) : Does (.cleanAndInvalidate p n scope dom) s P :=
  ⟨_, rfl, by rwa [State.viaPath_reachable h]⟩

/-- The ways written by a path that reaches the slice leave service there (R67). -/
theorem settles_wayDisable {s : State} {p : Path} (h : Reachable s p) (n : Fin 16) (ways : BitVec 16) {P : State → Prop}
    (hP : P (s.writeWays n ways.toNat)) : Settles (.wayDisable p n ways) s P :=
  ⟨_, rfl, by rwa [State.viaPath_reachable h]⟩

/-- Settles O48: each clause is what its operation does in that case: `State.startClean`, `State.visitSet`, `State.writeWays`,
`State.compressDone`, `State.decompressDone` and `State.installFill`. -/
theorem kindlingSlicesAndEngines : Obligations.KindlingSlicesAndEngines := by
  intro s p n scope dom ways id idle starts set emptySet
  have started : idle → ∀ op, starts op (s.startClean n op scope dom.toNat) := by
    intro hidle op
    obtain ⟨hbusy, hsets, hkind⟩ := State.startClean_idle hidle op scope dom.toNat
    refine ⟨hbusy, hsets, ?_⟩
    rw [hkind]
    exact ⟨Tab.get_put_same .., Tab.get_put_same .., Tab.get_put_same .., rfl⟩
  refine ⟨?clean, ?invalidate, ?running, ?noOperation, ?setCounted, ?lastSet, ?ways, ?noBlock, ?noPipeline, ?poisoned, ?fault,
    ?noFillQueued, ?decoded, ?unready, ?present, ?installed, ?noFill⟩
  case clean => exact fun h hidle => does_clean h n scope dom (started hidle 0)
  case invalidate => exact fun h hidle => does_cleanAndInvalidate h n scope dom (started hidle 1)
  case running =>
    intro h hbusy
    have hsame := fun op => State.startClean_busy (eq_true_of_ne_false hbusy) op scope dom.toNat
    exact ⟨does_clean h n scope dom (hsame 0), does_cleanAndInvalidate h n scope dom (hsame 1)⟩
  case noOperation => exact fun h => ⟨_, rfl, State.visitSet_idle h⟩
  case setCounted =>
    intro hop hempty hset
    obtain ⟨hsets, hkind⟩ := State.visitSet_counted hop hempty hset
    refine ⟨_, rfl, hsets, ?_⟩
    rw [hkind]
    exact ⟨Tab.get_put_same .., rfl, rfl⟩
  case lastSet => exact fun hop hempty hset => ⟨_, rfl, State.visitSet_last hop hempty hset⟩
  case ways =>
    intro h hlines hdrain
    refine settles_wayDisable h n ways ?_
    rw [State.writeWays_empty hlines hdrain, State.wr_kind,
      State.rd_wr_same _ _ _ (by decide : 0 ≤ 15) (by decide : 15 < 32)]
    exact ⟨Nat.mod_eq_of_lt ways.isLt, rfl⟩
  case noBlock => exact fun h => ⟨_, rfl, State.compressDone_none h false⟩
  case noPipeline => exact fun j q h henc => ⟨_, rfl, State.compressDone_noEncrypt h henc⟩
  case poisoned =>
    exact fun j q h henc hpoison hmig hfirst hplace =>
      ⟨_, rfl, State.compressDone_poisoned h henc hpoison hmig hfirst hplace⟩
  case fault => exact fun j q h hmig hfirst hplace => ⟨_, rfl, State.compressDone_fault h hmig hfirst hplace⟩
  case noFillQueued => exact fun h => ⟨_, rfl, State.decompressDone_none h false⟩
  case decoded =>
    rintro f b hq hfills rfl - hdecode
    exact ⟨_, rfl, State.decompressDone_decoded hq hfills hdecode⟩
  case unready => exact fun f h hready => ⟨_, rfl, State.installFill_unready h hready⟩
  case present =>
    exact fun f h hready hclean hwaits hway => ⟨_, rfl, State.installFill_present h hready hclean hwaits hway⟩
  case installed =>
    exact fun f y h hready hclean hwaits hway hmay hfill =>
      ⟨_, rfl, State.installFill_installed h hready hclean hwaits hway hmay hfill⟩
  case noFill => exact fun h => ⟨_, rfl, State.installFill_none h⟩

end Sys2Proof
end

section
/-!
PROOFS. The commands of a CXL mailbox (R307 to R310, R353, Table 13-4): what a mailbox whose head answers does with a command, once
for every command, and the contents of the lists that are read.
-/
namespace Sys2Proof.Machine

/-! ### A command taken at its mailbox -/

/-- A head that answers takes a command unless it is device-specific and those are not enabled, or another is in progress. -/
theorem State.mailbox_answered {s : State} {p : Fin 32} (h : DoeOpen s p) (op : Nat) (own : Bool) (f : State → State) :
    s.mailbox p op own f =
      if own && !s.flag (R.PG_CXLCFG_MBXEN (s.place p).group) then (mailboxUsed s p).send (.mailbox p op .unsupported 0 [])
      else if (s.head p).bg.isSome || (s.ring.subs.get p).isSome then (mailboxUsed s p).send (.mailbox p op .busy 0 [])
      else f (mailboxUsed s p) := by
  obtain ⟨hopen, hready, hhold, hawake⟩ := h
  have hflit : s.hostFlit p = s := State.hostFlit_open ⟨hopen, hawake⟩
  have hbg : ((mailboxUsed s p).head p).bg = (s.head p).bg := by rw [mailboxUsed, State.head_updHead_same]
  simp only [State.mailbox, hopen, hready, hhold, hflit, ← hbg, Bool.not_true, Bool.or_self, Bool.false_eq_true, if_false]
  rfl

/-- An open mailbox takes the command. -/
theorem State.mailbox_open {s : State} {p : Fin 32} (h : MailboxOpen s p) (op : Nat) (own : Bool) (f : State → State) :
    s.mailbox p op own f = f (mailboxUsed s p) := by
  obtain ⟨hdoe, henabled, hbg, hsub⟩ := h
  simp [State.mailbox_answered hdoe, henabled, hbg, hsub]

/-- While a background command runs, a command is answered Busy (R308). -/
theorem State.mailbox_busy {s : State} {p : Fin 32} (h : DoeOpen s p) (hbg : (s.head p).bg.isSome = true)
    (henabled : s.flag (R.PG_CXLCFG_MBXEN (s.place p).group) = true) (op : Nat) (own : Bool) (f : State → State) :
    AnswersMailbox s (s.mailbox p op own f) p op .busy 0 [] := by
  simp [AnswersMailbox, State.mailbox_answered h, henabled, hbg]

/-- A device-specific command is unsupported where those are not enabled (R307). -/
theorem State.mailbox_unsupported {s : State} {p : Fin 32} (h : DoeOpen s p)
    (hdisabled : s.flag (R.PG_CXLCFG_MBXEN (s.place p).group) = false) (op : Nat) (f : State → State) :
    AnswersMailbox s (s.mailbox p op true f) p op .unsupported 0 [] := by
  simp [AnswersMailbox, State.mailbox_answered h, hdisabled]

/-- A command that an open mailbox takes does what it does to a mailbox that is in use. -/
theorem does_mailbox {c : Instr} {s : State} {p : Fin 32} {op : Nat} {own : Bool} {f : State → State} {P : State → Prop}
    (h : MailboxOpen s p) (hexec : exec c s = .next (s.mailbox p op own f)) (hP : P (f (mailboxUsed s p))) : Does c s P :=
  ⟨_, hexec, by rwa [State.mailbox_open h]⟩

/-! ### What is read -/

/-- A device-specific command that succeeds answers its output (R308). -/
theorem answerMbx_success {s : State} {p : Fin 32} {op : Nat} {x out : List Byte} (h : x = out) :
    AnswersMailbox s ((mailboxUsed s p).answerMbx p op 0 x) p op .success 0 out := by
  rw [h]
  rfl

theorem State.anyJob_mailboxUsed (s : State) (p : Fin 32) (id : Nat) : (mailboxUsed s p).anyJob id = s.anyJob id := rfl

/-- The extents of a port are those of the valid domains that it may read or write (R51, R309). -/
theorem State.mem_extentsOf_snd (s : State) (p : Nat) (x : DcExtent) :
    x ∈ (s.extentsOf p).map (·.2) ↔ ∃ c ∈ s.domains, Entry.valid c.2 = true ∧
      ((Entry.rdPorts c.2).testBit p = true ∨ (Entry.wrPorts c.2).testBit p = true) ∧ x = extentOf c.1 c.2 := by
  simp only [State.extentsOf, Entry.opened, List.map_map, List.mem_map, List.mem_filter, Bool.and_eq_true, Bool.or_eq_true,
    Function.comp_apply, and_assoc, @eq_comm _ x]

/-! ### A record and an answer -/

/-- A port's record stands in the ring, its newest occurrence now, and the answer sent after it follows what had been sent. -/
theorem State.logPort_send (s : State) (type p : Nat) (dom : Option Nat) (loc : Nat) (o : Output)
    (hlost : s.flag R.CF_STAT_DEVLOST = false) :
    ((s.logPort type p dom loc).send o).out = o :: s.out ∧
      ∃ y ∈ ((s.logPort type p dom loc).send o).flt.ring, y.type = type ∧ y.gtcN = s.gtc := by
  obtain ⟨y, hy, htype, -, -, hnow⟩ := s.logPort_inRing type p dom loc hlost
  obtain ⟨regs, flt, pend, hlog⟩ := s.logPort_frame type p dom loc
  have hout : (s.logPort type p dom loc).out = s.out := by rw [hlog]
  exact ⟨congrArg _ hout, y, hy, htype, hnow⟩

end Sys2Proof.Machine

namespace Sys2Proof

open Sys2Proof.Machine

/-- Settles O41: each read is what its command does to a mailbox in use (`does_mailbox`), and each refusal one of the branches of
`State.mailbox_answered`. -/
theorem mailboxReads : Obligations.MailboxReads := by
  intro s p dom job first n
  refine ⟨?domain, ?records, ?capacity, ?job, ?noJob, ?extents, ?accepted, ?declined, ?poison, ?busy, ?disabled⟩
  case domain => exact fun h => does_mailbox h rfl rfl
  case records =>
    intro h
    refine does_mailbox h rfl (answerMbx_success ?_)
    rw [List.map_map]
    rfl
  case capacity =>
    intro h
    refine does_mailbox h rfl (answerMbx_success ?_)
    have hreg : ∀ off, (mailboxUsed s p).reg off = s.reg off := State.reg_congr rfl
    simp [List.range_succ, hreg]
  case job =>
    intro j h hjob
    refine does_mailbox h rfl ?_
    rw [State.anyJob_mailboxUsed, hjob]
    rfl
  case noJob =>
    intro h hjob
    refine does_mailbox h rfl ?_
    rw [State.anyJob_mailboxUsed, hjob]
    rfl
  case extents => exact fun h => does_mailbox h rfl ⟨_, rfl, s.mem_extentsOf_snd p⟩
  case accepted => exact fun h => does_mailbox h rfl rfl
  case declined => exact fun h hlost => does_mailbox h rfl ((mailboxUsed s p).logPort_send _ _ _ _ _ hlost)
  case poison =>
    intro h
    refine does_mailbox h rfl ⟨_, rfl, fun x => ?_⟩
    simp only [List.mem_map, List.mem_filter, Bool.and_eq_true, and_assoc, @eq_comm _ x]
    rfl
  case busy =>
    exact fun h hbg henabled =>
      ⟨⟨_, rfl, State.mailbox_busy h hbg henabled _ _ _⟩, ⟨_, rfl, State.mailbox_busy h hbg henabled _ _ _⟩⟩
  case disabled => exact fun h hdisabled => ⟨_, rfl, State.mailbox_unsupported h hdisabled _ _⟩

end Sys2Proof
end

section
/-!
PROOFS. The place of a Firewood page's lines in its channel set (R103): the sizes of a channel set, the channel and the channel-local
line that the layout gives a line, and the address at which a line of a channel of the set is met.
-/
namespace Sys2Proof.Machine

/-- A channel set has 4, 8 or 16 channels (Table 02-1). -/
theorem Entry.chans_cases {e : Entry} (h : e.chSize ≤ 2) : e.chans = 4 ∨ e.chans = 8 ∨ e.chans = 16 := by
  have hsize : e.chSize = 0 ∨ e.chSize = 1 ∨ e.chSize = 2 := by omega
  unfold Entry.chans
  rcases hsize with hn | hn | hn <;> rw [hn] <;> decide

theorem Entry.chans_pos (e : Entry) : 0 < e.chans := Nat.mul_pos (by decide) (Nat.two_pow_pos _)

/-- The chunk's channel, in a set that ends by channel 15. -/
theorem firewoodLine_fst {e : Entry} (h : e.chBase + e.chans ≤ 16) (p : PageEntry) (dpa : Nat) :
    (firewoodLine e p dpa).1 = e.chBase + dpa % 4096 / 256 % e.chans := by
  have hk : dpa % 4096 / 256 % e.chans < e.chans := Nat.mod_lt _ e.chans_pos
  exact Nat.mod_eq_of_lt (by omega)

/-- The channel-local line: a stripe is four lines, and so is the chunk that each row of the set puts in the channel. -/
theorem firewoodLine_snd (e : Entry) (p : PageEntry) (dpa : Nat) :
    (firewoodLine e p dpa).2 = p.fstripe * 4 + dpa % 4096 / 256 / e.chans * 4 + dpa % 256 / 64 := by
  have h : (firewoodLine e p dpa).2 = (p.fstripe * 256 + dpa % 4096 / 256 / e.chans * 256 + dpa % 4096 % 256) / 64 := rfl
  omega

/-- The lines of a page lie in the channels of its set, 64 / N of them from the page's stripe on in each. -/
theorem firewoodLine_inSet {e : Entry} (hsize : e.chSize ≤ 2) (h : e.chBase + e.chans ≤ 16) (p : PageEntry) (dpa : Nat) :
    e.chBase ≤ (firewoodLine e p dpa).1 ∧ (firewoodLine e p dpa).1 < e.chBase + e.chans ∧
      p.fstripe * 4 ≤ (firewoodLine e p dpa).2 ∧ (firewoodLine e p dpa).2 < p.fstripe * 4 + 64 / e.chans := by
  rw [firewoodLine_fst h, firewoodLine_snd]
  rcases Entry.chans_cases hsize with hn | hn | hn <;> rw [hn] <;> omega

/-- The address in a page of a line `l` of a channel `c` of its set: the inverse of `firewoodLine`. -/
def firewoodAddr (e : Entry) (p : PageEntry) (page c l : Nat) : Nat :=
  page * 4096 + ((l - p.fstripe * 4) / 4 * e.chans + (c - e.chBase)) * 256 + (l - p.fstripe * 4) % 4 * 64

section
variable {e : Entry} {p : PageEntry} {c l : Nat} (hsize : e.chSize ≤ 2) (hc : e.chBase ≤ c) (hc' : c < e.chBase + e.chans)
  (hl : p.fstripe * 4 ≤ l) (hl' : l < p.fstripe * 4 + 64 / e.chans)
include hsize hc hc' hl hl'

theorem firewoodAddr_page (page : Nat) : firewoodAddr e p page c l / 4096 = page := by
  unfold firewoodAddr
  rcases Entry.chans_cases hsize with hn | hn | hn <;> rw [hn] at hc' hl' ⊢ <;> omega

/-- At that address, the layout gives the channel and the line. -/
theorem firewoodLine_firewoodAddr (h : e.chBase + e.chans ≤ 16) (page : Nat) :
    firewoodLine e p (firewoodAddr e p page c l) = (c, l) := by
  refine Prod.ext ((firewoodLine_fst h p _).trans ?channel) ((firewoodLine_snd e p _).trans ?line)
  all_goals
    unfold firewoodAddr
    rcases Entry.chans_cases hsize with hn | hn | hn <;> rw [hn] at hc' hl' ⊢ <;> omega

end

end Sys2Proof.Machine

namespace Sys2Proof

open Sys2Proof.Machine

/-- Settles O57: the channel and the line of a byte are `firewoodLine_fst` and `firewoodLine_snd`; over the page, each line lies in
the set (`firewoodLine_inSet`), and each of the set's lines is met at `firewoodAddr`. -/
theorem firewoodPagesLieInChunks : Obligations.FirewoodPagesLieInChunks := by
  intro e p dpa hsize hset q k x
  refine ⟨firewoodLine_fst hset p dpa, ?address, fun c l => ⟨?inSet, ?met⟩⟩
  case address =>
    have hline : x.2 = p.fstripe * 4 + k / e.chans * 4 + dpa % 256 / 64 := firewoodLine_snd e p dpa
    omega
  case inSet =>
    rintro ⟨a, -, ha⟩
    have hin := firewoodLine_inSet hsize hset p a
    rwa [ha] at hin
  case met =>
    rintro ⟨hc, hc', hl, hl'⟩
    exact ⟨firewoodAddr e p (dpa / 4096) c l, firewoodAddr_page hsize hc hc' hl hl' _,
      firewoodLine_firewoodAddr hsize hc hc' hl hl' hset _⟩

end Sys2Proof
end

section
/-!
PROOFS. Key slots (R148 to R158): what a key operation of a register path leaves in the path's staging and status registers, and
what an install, a destruction, an activation, a cache load and an erase walk's end do to the slots.
-/
namespace Sys2Proof.Machine

/-! ### The key registers of a path -/

/-- The copies that a path has of two registers stand apart. -/
theorem pathOff_ne (p : Path) {a b : Nat} (h : a ≠ b) : pathOff p a ≠ pathOff p b := by
  cases p <;> simpa [pathOff] using h

/-- A path's staging words stand apart from its status register. -/
theorem keyStage_ne_keyStat (p : Path) {k : Nat} (hk : k < 30) : pathOff p (R.SEC_KEYSTAGE k) ≠ pathOff p R.SEC_KEYSTAT := by
  refine pathOff_ne p ?_
  unfold R.SEC_KEYSTAGE R.SEC_KEYSTAT
  omega

/-- A path's staging words zeroised: the step of `State.keyOp` that ends each key operation (R158). -/
def State.zeroStage (s : State) (p : Path) : State :=
  (List.range 30).foldl (fun s k => s.setReg (pathOff p (R.SEC_KEYSTAGE k)) 0) s

/-- Zeroing touches the registers alone. -/
theorem State.zeroStage_frame (s : State) (p : Path) : ∃ regs, s.zeroStage p = { s with regs := regs } :=
  List.foldlRecOn (List.range 30) _ (motive := fun t => ∃ regs, t = { s with regs := regs }) ⟨_, rfl⟩ fun t ht k _ => by
    obtain ⟨regs, rfl⟩ := ht
    exact ⟨_, rfl⟩

/-- A walk that zeroes registers leaves zero each that it meets, and each that was zero before. -/
theorem State.foldl_setReg_zero (s : State) (l : List Nat) (g : Nat → Nat) {k : Nat} (h : k ∈ l ∨ s.reg (g k) = 0) :
    (l.foldl (fun s k => s.setReg (g k) 0) s).reg (g k) = 0 := by
  induction l generalizing s with
  | nil => exact h.resolve_left List.not_mem_nil
  | cons j l ih =>
    refine ih (s.setReg (g j) 0) ?_
    by_cases hj : g k = g j
    · exact .inr (by rw [hj, State.reg_setReg_same])
    · refine h.imp (fun hmem => ?_) fun hzero => (State.reg_setReg_other _ _ _ _ hj).trans hzero
      exact (List.mem_cons.mp hmem).resolve_left fun hkj => hj (congrArg g hkj)

theorem State.zeroStage_stage (s : State) (p : Path) {k : Nat} (hk : k < 30) :
    (s.zeroStage p).reg (pathOff p (R.SEC_KEYSTAGE k)) = 0 :=
  s.foldl_setReg_zero (List.range 30) (fun k => pathOff p (R.SEC_KEYSTAGE k)) (.inl (List.mem_range.mpr hk))

theorem State.zeroStage_stat (s : State) (p : Path) : (s.zeroStage p).reg (pathOff p R.SEC_KEYSTAT) = s.reg (pathOff p R.SEC_KEYSTAT) :=
  s.foldl_reg _ _ fun _ _ hk => State.reg_setReg_other _ _ _ _ (keyStage_ne_keyStat p (List.mem_range.mp hk)).symm

/-- The registers as a key operation leaves them: the staging words zero, the status register with the status and the domain
(R158). -/
def State.keyEnd (s : State) (p : Path) (d st : Nat) : State :=
  ((s.zeroStage p).wr (R.SEC_KEYSTAT_STATUS.on p) st).wr (R.SEC_KEYSTAT_DOMAIN.on p) d

theorem State.keyEnd_eng (s : State) (p : Path) (d st : Nat) : (s.keyEnd p d st).eng = s.eng := by
  obtain ⟨regs, h⟩ := s.zeroStage_frame p
  rw [State.keyEnd, State.wr_eng, State.wr_eng, h]

theorem State.keyEnd_domain (s : State) (p : Path) {d : Nat} (hd : d < 2 ^ 14) (st : Nat) :
    (s.keyEnd p d st).rd (R.SEC_KEYSTAT_DOMAIN.on p) = d :=
  (State.rd_wr_same _ _ _ (by decide : 0 ≤ 13) (by decide : 13 < 32)).trans (Nat.mod_eq_of_lt hd)

theorem State.keyEnd_done (s : State) (p : Path) {d st : Nat} (hd : d < 2 ^ 14) (hst : st < 2 ^ 8)
    (hbusy : s.flag (R.SEC_KEYSTAT_BUSY.on p) = false) : KeyDone (s.keyEnd p d st) p d st := by
  refine ⟨?status, s.keyEnd_domain p hd st, ?busy, fun k hk => ?stage⟩
  case status =>
    unfold State.keyEnd
    rw [State.rd_wr_other _ _ _ _ (by decide : 0 ≤ 13) (by decide : 16 ≤ 23) (.inr (.inl (by decide : 13 < 16))),
      State.rd_wr_same _ _ _ (by decide : 16 ≤ 23) (by decide : 23 < 32)]
    exact Nat.mod_eq_of_lt hst
  case busy =>
    unfold State.keyEnd
    rw [State.flag, State.rd_wr_other _ _ _ _ (by decide : 0 ≤ 13) (by decide : 31 ≤ 31) (.inr (.inl (by decide : 13 < 31))),
      State.rd_wr_other _ _ _ _ (by decide : 16 ≤ 23) (by decide : 31 ≤ 31) (.inr (.inl (by decide : 23 < 31)))]
    exact (State.flag_of_reg (s.zeroStage_stat p)).trans hbusy
  case stage =>
    have hne := keyStage_ne_keyStat p hk
    exact (State.reg_setReg_other _ _ _ _ hne).trans ((State.reg_setReg_other _ _ _ _ hne).trans (s.zeroStage_stage p hk))

/-! ### A key operation of a path -/

/-- A key operation of a path that is free is done: it ends with its status, unless an erase walk has begun for the path (R158). -/
theorem State.keyOp_free {s y : State} {p : Path} {d st : Nat} {f : State → Nat × State} (h : KeyPathFree s p) (hf : f s = (st, y)) :
    s.keyOp p d f = if y.eng.erases.any fun x => x.path == some p then (y.keyEnd p d st).set1 (R.SEC_KEYSTAT_BUSY.on p)
      else y.keyEnd p d st := by
  obtain ⟨-, hbusy, -⟩ := h
  rw [← y.keyEnd_eng p d st]
  simp only [State.keyOp, hbusy, hf, Bool.false_eq_true, if_false]
  rfl

/-- One that begins no walk and touches no register is done with its status. -/
theorem State.keyOp_done {s y : State} {p : Path} {d st : Nat} {f : State → Nat × State} (h : KeyPathFree s p) (hf : f s = (st, y))
    (hregs : y.regs = s.regs) (herases : y.eng.erases = s.eng.erases) (hd : d < 2 ^ 14) (hst : st < 2 ^ 8) :
    KeyDone (s.keyOp p d f) p d st ∧ (s.keyOp p d f).eng = y.eng := by
  have ⟨_, hbusy, hpaths⟩ := h
  have hnone : (y.eng.erases.any fun x => x.path == some p) = false := by simpa [herases] using hpaths
  rw [State.keyOp_free h hf, hnone]
  exact ⟨y.keyEnd_done p hd hst ((State.flag_of_reg (State.reg_congr hregs _)).trans hbusy), y.keyEnd_eng p d st⟩

/-- One that begins a walk for its path leaves BUSY set with its domain (R158). -/
theorem State.keyOp_walk {s y : State} {p : Path} {d st : Nat} {f : State → Nat × State} (h : KeyPathFree s p) (hf : f s = (st, y))
    (hwalk : ∃ x ∈ y.eng.erases, x.path = some p) (hd : d < 2 ^ 14) :
    (s.keyOp p d f).flag (R.SEC_KEYSTAT_BUSY.on p) = true ∧ (s.keyOp p d f).rd (R.SEC_KEYSTAT_DOMAIN.on p) = d ∧
      (s.keyOp p d f).eng = y.eng := by
  have hany : (y.eng.erases.any fun x => x.path == some p) = true := by simpa using hwalk
  rw [State.keyOp_free h hf, hany, if_pos rfl]
  refine ⟨State.flag_set1_same _ _ (by decide : 31 ≤ 31) (by decide : 31 < 32), ?domain,
    (State.set1_eng _ _).trans (y.keyEnd_eng p d st)⟩
  case domain =>
    rw [State.set1, State.rd_wr_other _ _ _ _ (by decide : 31 ≤ 31) (by decide : 0 ≤ 13) (.inr (.inr (by decide : 13 < 31)))]
    exact y.keyEnd_domain p hd st

/-- A command answers whatever holds; what it does under a condition need be shown under that condition alone. -/
theorem does_when {c : Instr} {s t : State} {A : Prop} {P : State → Prop} (hexec : exec c s = .next t) (h : A → Does c s P) :
    Does c s fun t => A → P t := by
  refine ⟨t, hexec, fun ha => ?_⟩
  obtain ⟨t', hexec', hP⟩ := h ha
  cases hexec.symm.trans hexec'
  exact hP

/-- A command that is a key operation of a free path, and one that begins no walk. -/
theorem does_keyOp {c : Instr} {s y : State} {p : Path} {dom : BitVec 14} {st : Nat} {f : State → Nat × State} {P : State → Prop}
    (h : KeyPathFree s p) (hexec : exec c s = .next (s.viaPath p R.SEC_KEYOP fun s => s.keyOp p dom.toNat f)) (hf : f s = (st, y))
    (hregs : y.regs = s.regs) (herases : y.eng.erases = s.eng.erases) (hst : st < 2 ^ 8)
    (hP : ∀ t, KeyDone t p dom.toNat st → t.eng = y.eng → P t) : Does c s P := by
  obtain ⟨hdone, heng⟩ := State.keyOp_done h hf hregs herases dom.isLt hst
  exact ⟨_, hexec, by rw [State.viaPath_reachable h.1]; exact hP _ hdone heng⟩

/-- A destroy of a free path settles from its key operation. -/
theorem settles_keyDestroy {s : State} {p : Path} {dom : BitVec 14} {P : State → Prop} (h : KeyPathFree s p)
    (hP : P (s.keyOp p dom.toNat fun s => s.destroyKey dom.toNat (some p) none)) : Settles (.keyDestroy p dom) s P :=
  ⟨_, rfl, by rwa [State.viaPath_reachable h.1]⟩

/-! ### Installs -/

/-- The slots of a state lie in its engines. -/
theorem State.slot_of_eng {s t : State} (h : t.eng = s.eng) (d : Nat) : t.slot d = s.slot d := by
  simp only [State.slot, h]

/-- An empty slot takes an install (check 6 of Table 07-8). -/
theorem State.keyFree_empty {s : State} {d : Nat} (h : (s.slot d).st = 0) : s.keyFree d = true := by
  simp [State.keyFree, h]

theorem State.loadKey_frame (s : State) (pipe d : Nat) : ∃ kcache, s.loadKey pipe d = { s with eng := { s.eng with kcache := kcache } } :=
  ⟨_, rfl⟩

/-- Pinning a slot changes the caches and what is pinned (R148). -/
theorem State.pinKey_frame (s : State) (d : Nat) : ∃ kcache kpin,
    s.pinKey d = { s with eng := { s.eng with kcache := kcache, kpin := kpin } } := by
  unfold State.pinKey
  dsimp only
  refine List.foldlRecOn (List.range 32) _
    (motive := fun t => ∃ (kcache : Tab (List Nat)) (kpin : List Nat),
      t = { s with eng := { s.eng with kcache := kcache, kpin := kpin } })
    ⟨s.eng.kcache, d :: s.eng.kpin.filter (· != d), rfl⟩ fun t ht i _ => ?_
  obtain ⟨kcache, kpin, rfl⟩ := ht
  exact ⟨_, _, rfl⟩

/-- A slot flushed from the caches, and loaded into them again where it is pinned (R148, R154), changes no more than those. -/
theorem State.reloadKey_frame (s : State) (d : Nat) : ∃ kcache kpin,
    (if (s.flushKey d).eng.kpin.contains d then (s.flushKey d).pinKey d else s.flushKey d) =
      { s with eng := { s.eng with kcache := kcache, kpin := kpin } } := by
  obtain ⟨kcache, hflush⟩ : ∃ kcache, s.flushKey d = { s with eng := { s.eng with kcache := kcache } } := ⟨_, rfl⟩
  rw [hflush]
  split
  · obtain ⟨kcache, kpin, hpin⟩ := State.pinKey_frame { s with eng := { s.eng with kcache := kcache } } d
    exact ⟨kcache, kpin, hpin⟩
  · exact ⟨_, _, rfl⟩

theorem State.installKey_refused {s : State} {kek : Option Nat} {b : List Byte} {st : Nat} (h : s.openBlob kek b = .error st) (d : Nat) :
    s.installKey kek d b = (st, s) := by
  simp only [State.installKey, h]

/-- Check 1 of Table 07-8: a blob of another version. -/
theorem State.openBlob_version {b : List Byte} (h : b.getD 0 0 ≠ 1) (s : State) (kek : Option Nat) : s.openBlob kek b = .error 0x14 := by
  have hver : (b.getD 0 0 != 1 || kek != some (b.getD 1 0).toNat) = true := by rw [bne_iff_ne.mpr h, Bool.true_or]
  simp only [State.openBlob, hver, if_true]

/-- Check 2 of Table 07-8: a blob of `KEKSEL` 0 is what DK0 unwraps. -/
theorem State.openBlob_dk0 {s : State} {b : List Byte} {k : BitVec 256} (hver : b.getD 0 0 = 1) (hsel : b.getD 1 0 = 0)
    (hk : s.eng.dk.get 0 = some k) : s.openBlob (some 0) b = (kwUnwrap k ((b.drop 8).take 112)).elim (.error 0x10) .ok := by
  simp only [State.openBlob, hver, hsel]
  cases hu : kwUnwrap k ((b.drop 8).take 112) <;> simp [hk, hu]

/-- The slot that a blob's plaintext fills (R153). -/
def installedSlot (pt : List Byte) : KeySlot :=
  { st := 2, k1 := ofLe 256 ((pt.drop 8).take 32), k2 := ofLe 256 ((pt.drop 40).take 32), kt := ofLe 256 ((pt.drop 72).take 32) }

/-- The sequence number in a blob's plaintext (R153). -/
def blobSeq (pt : List Byte) : Nat := (ofLe 32 ((pt.drop 4).take 4)).toNat

/-- A blob of a wrapped path that passes the checks of Table 07-8 fills its slot and notes its sequence number (R154). -/
theorem State.installKey_installed {s : State} {d : Nat} {b pt : List Byte} (hopen : s.openBlob (some 0) b = .ok pt)
    (hdom : (ofLe 16 (pt.take 2)).toNat = d) (hseq : s.eng.seq.get 0 < blobSeq pt)
    (hkeys : (installedSlot pt).k1 ≠ (installedSlot pt).k2) (hfree : s.keyFree d = true) :
    ∃ kcache kpin, s.installKey (some 0) d b = (0, { s with eng := { s.eng with
      slots := s.eng.slots.put d (installedSlot pt), seq := s.eng.seq.put 0 (blobSeq pt), kcache := kcache, kpin := kpin } }) := by
  obtain ⟨kcache, kpin, hreload⟩ := State.reloadKey_frame { s with eng := { s.eng with
    slots := s.eng.slots.put d (installedSlot pt), seq := s.eng.seq.put 0 (blobSeq pt) } } d
  refine ⟨kcache, kpin, ?_⟩
  unfold blobSeq at hseq hreload ⊢
  unfold installedSlot at hkeys hreload ⊢
  rw [← hreload]
  simp [State.installKey, hopen, hdom, hseq, hkeys, hfree, State.setSlot]

/-! ### Destruction, activation and the caches -/

/-- A destroy of a slot that is not erasing, of a domain that is not valid: the slot is zeroised and its walk noted (R155). -/
theorem State.destroyKey_begun {s : State} {d : Nat} (hst : (s.slot d).st ≠ 3) (hvalid : Entry.valid (s.entry d) = false)
    (path : Option Path) (port : Option Nat) : ∃ y, s.destroyKey d path port = (0, y) ∧
      y.slot d = { st := 3, k1 := 0, k2 := 0, kt := 0 } ∧
      y.eng.erases = s.eng.erases ++ [{ dom := d, entry := s.entry d, path := path, port := port }] := by
  simp only [State.destroyKey, beq_eq_false_iff_ne.mpr hst, hvalid, Bool.false_and, Bool.or_self, Bool.false_eq_true, if_false,
    State.startErase]
  exact ⟨_, rfl, Tab.get_put_same .., rfl⟩

/-- A destroy of a slot whose domain has ports open is refused (R155). -/
theorem State.destroyKey_open {s : State} {d : Nat} (hvalid : Entry.valid (s.entry d) = true) (hports : Entry.rdPorts (s.entry d) ≠ 0)
    (path : Option Path) (port : Option Nat) : s.destroyKey d path port = (0x13, s) := by
  simp [State.destroyKey, hvalid, hports]

/-- The key-encryption key that is pending for another: DK6 for DK0, DK7 for DK4 (R152). -/
def pendingKek (k : Nat) : Nat := if k == 0 then 6 else 7

/-- A pending key takes the other's place, with the counter at 0 (R152). -/
theorem State.activateKek_pending {s : State} {k : Nat} {x : BitVec 256} (h : s.eng.dk.get (pendingKek k) = some x) :
    s.activateKek k = (0, { s with eng := { s.eng with
      dk := (s.eng.dk.put k (some x)).put (pendingKek k) none, seq := s.eng.seq.put k 0 } }) := by
  unfold pendingKek at h ⊢
  simp only [State.activateKek, h]

theorem State.activateKek_none {s : State} {k : Nat} (h : s.eng.dk.get (pendingKek k) = none) : s.activateKek k = (0x14, s) := by
  unfold pendingKek at h
  simp only [State.activateKek, h]

/-- A cache with room takes the slot as its most recent (R148). -/
theorem State.loadKey_room {s : State} {pipe : Nat} (h : (s.eng.kcache.get pipe).length < 32) (d : Nat) :
    (s.loadKey pipe d).eng.kcache.get pipe = d :: (s.eng.kcache.get pipe).filter (· != d) := by
  have hroom : (d :: (s.eng.kcache.get pipe).filter (· != d)).length ≤ 32 :=
    Nat.succ_le_of_lt (Nat.lt_of_le_of_lt (List.length_filter_le _ _) h)
  simp only [State.loadKey, if_pos hroom, Tab.get_put_same]

/-! ### The end of an erase walk -/

theorem State.eraseWalkDone_none {s : State} {d : Nat} (h : s.eraseOf d = none) : s.eraseWalkDone d = s := by
  simp only [State.eraseWalkDone, h]

theorem State.eraseWalkDone_ready {s : State} {d : Nat} {x : Erase} (h : s.eraseOf d = some x) (hready : s.walkReady d = true) :
    s.eraseWalkDone d = s.endErase x := by
  simp only [State.eraseWalkDone, h, hready, if_true]

/-- The walk of a domain that was not and is not valid, that nobody awaits and that no migration meets: its slot is emptied (R155). -/
theorem State.endErase_quiet {s : State} {x : Erase} (hold : Entry.valid x.entry = false) (hnew : Entry.valid (s.entry x.dom) = false)
    (hpath : x.path = none) (hport : x.port = none) (hmigs : s.tier.migs = []) :
    s.endErase x =
      ({ s with eng := { s.eng with erases := s.eng.erases.filter fun y => y.dom != x.dom } } : State).setSlot x.dom default := by
  have hend : s.endMigsOf x.dom 0x68 = s := by simp [State.endMigsOf, hmigs]
  simp only [State.endErase, hend, hold, hnew, hpath, hport, Bool.false_and, Bool.false_eq_true, if_false]

/-- With the walks of a domain gone, the domain has none. -/
theorem State.eraseOf_setSlot_filter (s : State) (d : Nat) (k : KeySlot) :
    (({ s with eng := { s.eng with erases := s.eng.erases.filter fun y => y.dom != d } } : State).setSlot d k).eraseOf d = none := by
  refine List.find?_eq_none.mpr fun x hx => ?_
  simpa using (List.mem_filter.mp hx).2

end Sys2Proof.Machine

namespace Sys2Proof

open Sys2Proof.Machine

/-- The activation of a pending key through a free path: it is in place, and nothing is pending; `hexec` names the key (R152). -/
theorem does_activateKek {c : Instr} {s : State} {p : Path} {dom : BitVec 14} {j : Nat} (hj : j ≠ pendingKek j) (h : KeyPathFree s p)
    (hexec : exec c s = .next (s.viaPath p R.SEC_KEYOP fun s => s.keyOp p dom.toNat fun s => s.activateKek j)) :
    (∀ k, s.eng.dk.get (pendingKek j) = some k → Does c s fun t => KeyDone t p dom.toNat 0 ∧ t.eng.dk.get j = some k ∧
      t.eng.dk.get (pendingKek j) = none ∧ t.eng.seq.get j = 0 ∧ t.eng.slots = s.eng.slots) ∧
    (s.eng.dk.get (pendingKek j) = none → Does c s fun t => KeyDone t p dom.toNat 0x14 ∧ t.eng = s.eng) := by
  refine ⟨fun k hk => ?pending, fun hk => ?none⟩
  case pending =>
    refine does_keyOp h hexec (State.activateKek_pending hk) rfl rfl (by decide) fun t hdone heng => ?_
    rw [heng]
    exact ⟨hdone, (Tab.get_put_other _ _ _ _ hj).trans (Tab.get_put_same ..), Tab.get_put_same .., Tab.get_put_same .., rfl⟩
  case none => exact does_keyOp h hexec (State.activateKek_none hk) rfl rfl (by decide) fun t hdone heng => ⟨hdone, heng⟩

/-- Settles O47: an operation of a path is `State.keyOp` of what it does to the slots, done or left to a walk (`State.keyOp_done`,
`State.keyOp_walk`). -/
theorem keySlotOperations : Obligations.KeySlotOperations := by
  intro s p dom pipe slot k d b keyOk e act
  refine ⟨?version, ?wrapped, ?destroyed, ?portsOpen, ?dk6, ?noDk6, ?dk7, ?noDk7, ?cached, ?noWalk, ?walked⟩
  case version =>
    intro h hver
    exact does_keyOp h rfl (State.installKey_refused (State.openBlob_version hver s _) d) rfl rfl (by decide)
      fun t hdone heng => ⟨hdone, heng⟩
  case wrapped =>
    rintro h rfl hver hsel hk
    have hopen := State.openBlob_dk0 hver hsel hk
    cases hu : kwUnwrap k ((b.drop 8).take 112) with
    | none =>
      rw [hu] at hopen
      exact does_keyOp h rfl (State.installKey_refused hopen d) rfl rfl (by decide) fun t hdone heng => ⟨hdone, heng⟩
    | some pt =>
      rw [hu] at hopen
      refine does_when rfl fun ⟨hdom, hseq, hkeys⟩ => does_when rfl fun hempty => ?_
      obtain ⟨kcache, kpin, hinstall⟩ := State.installKey_installed hopen hdom hseq hkeys (State.keyFree_empty hempty)
      refine does_keyOp h rfl hinstall rfl rfl (by decide) fun t hdone heng => ?_
      rw [heng]
      exact ⟨hdone, (State.slot_of_eng heng d).trans (Tab.get_put_same ..), Tab.get_put_same ..,
        fun q hq => (State.slot_of_eng heng q).trans (Tab.get_put_other _ _ _ _ hq)⟩
  case destroyed =>
    intro h hst hvalid
    obtain ⟨y, hdestroy, hslot, herases⟩ := State.destroyKey_begun hst hvalid (some p) none
    have hwalk : ∃ x ∈ y.eng.erases, x.path = some p := ⟨_, herases ▸ List.mem_append_right _ (List.mem_singleton_self _), rfl⟩
    obtain ⟨hbusy, hdom, heng⟩ := State.keyOp_walk (f := fun s => s.destroyKey d (some p) none) h hdestroy hwalk dom.isLt
    refine settles_keyDestroy h ?_
    have hkept : (s.keyOp p d fun s => s.destroyKey d (some p) none).slot d = y.slot d := State.slot_of_eng heng d
    rw [hkept, hslot, heng]
    exact ⟨rfl, rfl, hbusy, hdom, herases⟩
  case portsOpen =>
    exact fun h hvalid hports => settles_keyDestroy h
      (State.keyOp_done h (State.destroyKey_open hvalid hports (some p) none) rfl rfl dom.isLt (by decide))
  case dk6 => exact fun h hk => (does_activateKek (j := 0) (by decide) h rfl).1 k hk
  case noDk6 => exact fun h hk => (does_activateKek (j := 0) (by decide) h rfl).2 hk
  case dk7 => exact fun h hk => (does_activateKek (j := 4) (by decide) h rfl).1 k hk
  case noDk7 => exact fun h hk => (does_activateKek (j := 4) (by decide) h rfl).2 hk
  case cached => exact fun h => ⟨_, rfl, State.loadKey_room h _, rfl⟩
  case noWalk => exact fun h => ⟨_, rfl, State.eraseWalkDone_none h⟩
  case walked =>
    intro x hx hdom hold hnew hpath hport hready hmigs
    refine ⟨_, rfl, ?_⟩
    have hnow : Entry.valid (s.entry x.dom) = false := hdom ▸ hnew
    rw [State.eraseWalkDone_ready hx hready, State.endErase_quiet hold hnow hpath hport hmigs, hdom]
    exact ⟨Tab.get_put_same .., s.eraseOf_setSlot_filter d default, rfl⟩

end Sys2Proof
end

section
/-!
PROOFS. SPDM (R153, R313, R465, R466): what an open DOE does with a request, once for every request, and a request in a secured session
or outside one.
-/
namespace Sys2Proof.Machine

/-- An open DOE sends the answer of the request and keeps what the request did (R465). -/
theorem State.doe_open {s y : State} {p : Fin 32} {ok : Bool} {out : List Byte} {f : State → Bool × List Byte × State} (h : DoeOpen s p)
    (hf : f s = (ok, out, y)) : s.doe p f = y.send (.spdm p ok out) := by
  obtain ⟨hopen, hready, hhold, hawake⟩ := h
  simp [State.doe, hopen, hready, hhold, State.hostFlit_open ⟨hopen, hawake⟩, hf]

theorem State.inSession_secured {s : State} {p : Nat} (h : s.mgmt.secured.contains p = true) (f : State → Bool × List Byte × State) :
    s.inSession p f = f s := if_pos h

/-- Outside a session a request is answered ERROR (R466). -/
theorem State.inSession_unsecured {s : State} {p : Nat} (h : ¬ s.mgmt.secured.contains p = true) (f : State → Bool × List Byte × State) :
    s.inSession p f = (false, [], s) := if_neg h

/-- A request of an open DOE leaves what it did, with its answer sent. -/
theorem does_doe {c : Instr} {s y : State} {p : Fin 32} {ok : Bool} {out : List Byte} {f : State → Bool × List Byte × State}
    {P : State → Prop} (h : DoeOpen s p) (hexec : exec c s = .next (s.doe p f)) (hf : f s = (ok, out, y))
    (hP : P (y.send (.spdm p ok out))) : Does c s P :=
  ⟨_, hexec, by rwa [State.doe_open h hf]⟩

theorem begins_doe {c : Instr} {s y : State} {p : Fin 32} {ok : Bool} {out : List Byte} {f : State → Bool × List Byte × State}
    {P : State → Prop} (h : DoeOpen s p) (hexec : exec c s = .next (s.doe p f).finish) (hf : f s = (ok, out, y))
    (hP : P (y.send (.spdm p ok out))) : Begins c s P :=
  ⟨_, hexec, by rwa [State.doe_open h hf]⟩

/-- A FINISH of an opened key exchange takes it from those that are open, and a good one makes the session (R465). -/
theorem State.spdm_finish {s : State} {p : Nat} (h : p ∈ s.mgmt.opening) (good : Bool) :
    s.spdm p (.finish good) = (good, [], { s with mgmt := { s.mgmt with
      opening := s.mgmt.opening.filter (· != p)
      secured := if good then p :: s.mgmt.secured.filter (· != p) else s.mgmt.secured } }) := by
  cases good <;> simp [State.spdm, h]

theorem State.spdm_endSession {s : State} {p : Nat} (h : s.mgmt.secured.contains p = true) :
    s.spdm p .endSession = (true, [], { s with mgmt := { s.mgmt with secured := s.mgmt.secured.filter (· != p) } }) := if_pos h

/-- A head changed before an answer is sent reads as changed. -/
theorem State.head_send_updHead (s : State) (p : Nat) (f : Head → Head) (o : Output) : ((s.updHead p f).send o).head p = f (s.head p) :=
  State.head_updHead_same ..

/-- What has been taken out of a list is not in it. -/
theorem not_mem_filter_ne (l : List Nat) (p : Nat) : p ∉ l.filter (· != p) := by simp

end Sys2Proof.Machine

namespace Sys2Proof

open Sys2Proof.Machine

/-- Settles O27: each request is what it does in the state of an open DOE (`does_doe`), in its session or outside one
(`State.inSession_secured`, `State.inSession_unsecured`). -/
theorem spdmSessionsAndKeys : Obligations.SpdmSessionsAndKeys := by
  intro s p sel slot k chain blob hdoe answers session inst
  refine ⟨?measurement, ?free, ?keyExchange, ?goodFinish, ?badFinish, ?endSession, ?kek, ?noKek, ?certificate, ?noCertificate,
    ?delivery, ?ideMem, ?ideIo, ?outside⟩
  case measurement => exact does_doe hdoe rfl rfl rfl
  case free => rintro r (rfl | rfl | rfl | rfl | rfl) <;> exact does_doe hdoe rfl rfl rfl
  case keyExchange => exact does_doe hdoe rfl rfl ⟨List.mem_cons_self, rfl, rfl⟩
  case goodFinish =>
    exact fun h => does_doe hdoe rfl (State.spdm_finish h true) ⟨List.mem_cons_self, not_mem_filter_ne _ _, rfl⟩
  case badFinish => exact fun h => does_doe hdoe rfl (State.spdm_finish h false) ⟨rfl, not_mem_filter_ne _ _, rfl⟩
  case endSession => exact fun h => does_doe hdoe rfl (State.spdm_endSession h) ⟨not_mem_filter_ne _ _, rfl⟩
  case kek =>
    intro h hsel
    exact does_doe hdoe rfl ((State.inSession_secured h _).trans (if_neg (Nat.not_lt.mpr hsel))) rfl
  case noKek => exact fun h hsel => does_doe hdoe rfl ((State.inSession_secured h _).trans (if_pos hsel)) rfl
  case certificate =>
    intro h hslot hlock
    have htaken : ¬ (slot.val == 0 || s.flag R.MG_LOCK_SECLK) = true := by
      rw [hlock, Bool.or_false, beq_iff_eq]
      exact fun h => hslot (Fin.ext h)
    exact does_doe hdoe rfl ((State.inSession_secured h _).trans (if_neg htaken)) rfl
  case noCertificate =>
    intro h hslot
    have hrefused : (slot.val == 0 || s.flag R.MG_LOCK_SECLK) = true := by
      rcases hslot with rfl | hlock
      · rfl
      · rw [hlock, Bool.or_true]
    exact does_doe hdoe rfl ((State.inSession_secured h _).trans (if_pos hrefused)) rfl
  case delivery => exact fun h => begins_doe hdoe rfl (State.inSession_secured h _) rfl
  case ideMem =>
    intro h
    refine does_doe hdoe rfl (State.inSession_secured h _) ?_
    rw [State.head_send_updHead]
    exact ⟨rfl, rfl, rfl, rfl⟩
  case ideIo =>
    intro h
    refine does_doe hdoe rfl (State.inSession_secured h _) ?_
    rw [State.head_send_updHead]
    exact ⟨rfl, rfl, rfl⟩
  case outside =>
    intro h
    exact ⟨does_doe hdoe rfl (State.inSession_unsecured h _) rfl, does_doe hdoe rfl (State.inSession_unsecured h _) rfl,
      does_doe hdoe rfl (State.inSession_unsecured h _) rfl, begins_doe hdoe rfl (State.inSession_unsecured h _) rfl⟩

end Sys2Proof
end

section
/-!
PROOFS. The mailbox commands that act (R153, R307, R309, R310, R347, R355): what each does to a mailbox in use, and the completion with
which a refused descriptor is answered.
-/
namespace Sys2Proof.Machine

/-! ### Fields of a completion -/

/-- Byte i of a word made of bytes, lowest first. -/
theorem extractLsb'_ofLe {w : Nat} (l : List Byte) {i : Nat} (h : 8 * i + 8 ≤ w) :
    (ofLe w l).extractLsb' (8 * i) 8 = l.getD i 0 := by
  induction l generalizing i with
  | nil => exact BitVec.extractLsb'_zero
  | cons b t ih =>
    cases i with
    | zero =>
      refine BitVec.eq_of_getLsbD_eq fun j hj => ?_
      simp [ofLe, hj, show j < w by omega]
    | succ i =>
      refine Eq.trans (BitVec.eq_of_getLsbD_eq fun j hj => ?_) (ih (by omega : 8 * i + 8 ≤ w))
      have hlow : ¬ 8 * (i + 1) + j < 8 := by omega
      have hhigh : b.getLsbD (8 * (i + 1) + j) = false := BitVec.getLsbD_of_ge _ _ (by omega)
      have hplace : 8 * (i + 1) + j - 8 = 8 * i + j := by omega
      simp [ofLe, hj, hlow, hhigh, hplace, show 8 * (i + 1) + j < w by omega,
        BitVec.getLsbD_eq_getElem (show 8 * i + j < w by omega)]

theorem fld_ofLe_byte {w : Nat} (l : List Byte) {i : Nat} (h : 8 * i + 8 ≤ w) :
    fld (ofLe w l) (8 * i + 7) (8 * i) = (l.getD i 0).toNat := by
  have hwidth : 8 * i + 7 - 8 * i + 1 = 8 := by omega
  rw [fld, hwidth, extractLsb'_ofLe l h]

theorem completion_status (tag op status kind job : Nat) (result : List Byte) :
    fld (completion tag op status kind job result) 55 48 = status % 256 :=
  fld_ofLe_byte (i := 6) _ (by decide)

theorem completion_kind (tag op status kind job : Nat) (result : List Byte) :
    fld (completion tag op status kind job result) 63 56 = kind % 256 :=
  fld_ofLe_byte (i := 7) _ (by decide)

/-! ### A descriptor by mailbox -/

/-- The form of a descriptor is good, of an unknown opcode, or of a bad operand (R348). -/
theorem descStatus_cases (d : BitVec 1024) : descStatus d = 0 ∨ descStatus d = 0x69 ∨ descStatus d = 0x80 := by
  unfold descStatus
  split
  · exact .inr (.inr rfl)
  · dsimp only
    split
    · exact .inr (.inl rfl)
    · exact .inl rfl

theorem descKind_cases (d : BitVec 1024) : descKind d = 1 ∨ descKind d = 2 := by
  unfold descKind
  split
  · exact .inr rfl
  · exact .inl rfl

/-- The first completion of a mailbox's descriptor is its command's output, and the descriptor is no longer in progress (R347). -/
theorem State.firstCompletion_mailbox {s : State} {p : Nat} {d : BitVec 1024} (hp : p < 32) (hsub : s.ring.subs.get p = some d)
    {status kind : Nat} (hstatus : status < 256) (hkind : kind = 1 ∨ kind = 2) :
    s.firstCompletion (8 + p) status kind 0 [] =
      ({ s with ring := { s.ring with subs := s.ring.subs.put p none } } : State).send (.mailbox p 0xC030 (retOf status) status
        (leBytes 128 (stamped (completion (descTag d) (descOp d) status kind 0 []) s.gtc))) := by
  have hring : ¬ 8 + p < 8 := by omega
  have hcxl : ¬ 8 + p ≥ 40 := by omega
  have hdesc : s.descOf (8 + p) = some d := by rw [State.descOf, if_neg hring, Nat.add_sub_cancel_left, hsub]
  have hst := completion_status (descTag d) (descOp d) status kind 0 []
  rw [Nat.mod_eq_of_lt hstatus] at hst
  have hfirst : (fld (completion (descTag d) (descOp d) status kind 0 []) 63 56 == 3) = false := by
    rw [completion_kind]
    rcases hkind with rfl | rfl <;> rfl
  simp only [State.firstCompletion, hdesc, State.handCompletion, hst, hfirst, hring, hcxl, decide_false, Bool.or_self,
    Bool.false_eq_true, if_false, Nat.add_sub_cancel_left]

/-- A descriptor of bad form is answered with its status at once (R347, R348). -/
theorem State.submit_refused {s : State} {p : Nat} {d : BitVec 1024} (hp : p < 32) (h : descStatus d ≠ 0) :
    (s.submit p d).ring.subs.get p = none ∧ ∃ kind, (s.submit p d).out = .mailbox p 0xC030 .invalidInput (descStatus d)
      (leBytes 128 (setFld (completion (descTag d) (descOp d) (descStatus d) kind 0 []) 191 128 s.gtc)) :: s.out := by
  have hbound : descStatus d < 256 := by rcases descStatus_cases d with h | h | h <;> omega
  have hret : retOf (descStatus d) = .invalidInput := by simp [retOf, h]
  have hsubmit : s.submit p d = ({ s with ring := { s.ring with subs := s.ring.subs.put p (some d) } } : State).firstCompletion (8 + p)
      (descStatus d) (descKind d) 0 [] := by simp [State.submit, h]
  rw [hsubmit, State.firstCompletion_mailbox hp (Tab.get_put_same ..) hbound (descKind_cases d), hret]
  exact ⟨Tab.get_put_same .., descKind d, rfl⟩

/-- A descriptor of good form does what a ring's does (R347). -/
theorem State.submit_run {d : BitVec 1024} (h : descStatus d = 0) (s : State) (p : Nat) :
    s.submit p d = ({ s with ring := { s.ring with subs := s.ring.subs.put p (some d) } } : State).runDesc (8 + p) d := by
  simp [State.submit, h]

/-! ### Extents and poison -/

/-- No extent of a port begins where no valid domain does (R51). -/
theorem State.extentsOf_find_none {s : State} {base : Nat} (h : ∀ c ∈ s.domains, Entry.baseAddr c.2 ≠ base) (p len : Nat) :
    (s.extentsOf p).find? (fun x => x.2.start == base && x.2.length == len) = none := by
  refine List.find?_eq_none.mpr fun x hx => ?_
  obtain ⟨c, hc, -, -, hx⟩ := (s.mem_extentsOf_snd p x.2).mp (List.mem_map_of_mem hx)
  simp [hx, extentOf, h c hc]

/-- Poison is not written in a line of no domain, nor of one that the port may not write (R310). -/
theorem State.poisonWrite_refused {s : State} {p : Nat} {dpa : Dpa}
    (h : ∀ k e, s.servedDomain (dpa.toNat / 64 * 64) = some (k, e) → e.wrPorts.testBit p = false) (op : Nat) (poison : Bool) (x : Line) :
    s.poisonWrite p op dpa poison x = s.send (.mailbox p op .invalidInput 0 []) := by
  have haddr : (dpa.setWidth 64).toNat / 64 * 64 = dpa.toNat / 64 * 64 := by
    rw [BitVec.toNat_setWidth_of_le (by decide)]
  unfold State.poisonWrite
  simp only [hostReq, haddr]
  split
  next k e hserved => simp [h k e hserved]
  next => rfl

end Sys2Proof.Machine

namespace Sys2Proof

open Sys2Proof.Machine

/-- A command that an open mailbox takes begins with what it does to a mailbox that is in use. -/
theorem begins_mailbox {c : Instr} {s : State} {p : Fin 32} {op : Nat} {own : Bool} {f : State → State} {P : State → Prop}
    (h : MailboxOpen s p) (hexec : exec c s = .next (s.mailbox p op own f).finish) (hP : P (f (mailboxUsed s p))) : Begins c s P :=
  ⟨_, hexec, by rwa [State.mailbox_open h]⟩

/-- Settles O42: each command is what it does to a mailbox in use (`begins_mailbox`). -/
theorem mailboxActions : Obligations.MailboxActions := by
  intro s p dom entry blob d base len dpa data h u inst back destroy
  have refused : (∀ k e, u.servedDomain (dpa.toNat / 64 * 64) = some (k, e) → e.wrPorts.testBit p = false) → ∀ op poison x,
      AnswersMailbox s (u.poisonWrite p op dpa poison x) p op .invalidInput 0 [] := fun hports =>
    State.poisonWrite_refused hports
  refine ⟨?commit, ?install, ?destroyed, ?kept, ?badDescriptor, ?descriptor, ?release, ?noDomain, ?noWrite, ?sanitize, ?erase⟩
  case commit => exact begins_mailbox h rfl rfl
  case install =>
    refine does_mailbox h rfl ?_
    have hret : retOf inst.1 = if inst.1 = 0 then .success else .invalidInput := by simp [retOf]
    exact congrArg (fun rc => inst.2.send (.mailbox p 0xC010 rc inst.1 [byteOf inst.1])) hret
  case destroyed => exact fun hdone => begins_mailbox h rfl (if_pos (beq_iff_eq.mpr hdone))
  case kept => exact fun hdone => begins_mailbox h rfl (if_neg (mt beq_iff_eq.mp hdone))
  case badDescriptor => exact fun hbad => begins_mailbox h rfl (u.submit_refused p.isLt hbad)
  case descriptor => exact fun hgood => begins_mailbox h rfl (State.submit_run hgood u p)
  case release =>
    intro hbase
    refine begins_mailbox h rfl ?_
    rw [State.extentsOf_find_none (s := mailboxUsed s p) hbase]
    rfl
  case noDomain =>
    intro hnone
    have hno : ∀ k e, u.servedDomain (dpa.toNat / 64 * 64) = some (k, e) → e.wrPorts.testBit p = false := by simp [hnone]
    exact ⟨begins_mailbox h rfl (refused hno _ _ _), begins_mailbox h rfl (refused hno _ _ _)⟩
  case noWrite =>
    intro k e hserved hports
    refine begins_mailbox h rfl (refused (fun k' e' hserved' => ?_) _ _ _)
    cases hserved.symm.trans hserved'
    exact hports
  case sanitize => exact begins_mailbox h rfl rfl
  case erase => exact begins_mailbox h rfl rfl

end Sys2Proof
end

section
/-!
PROOFS. Long operations (R209, R349, R353 to R356): what acting on a ring's descriptor leaves, once for every operation, and what a job
accepted, refused, controlled or settled reads as then.
-/
namespace Sys2Proof.Machine

/-! ### A ring's descriptor acted on -/

/-- The state in which a ring's descriptor in progress is acted on: it will not be acted on again (R347). -/
def State.begunOn (s : State) (k : Nat) : State := s.updRing k fun r => { r with begun := true }

@[simp] theorem State.begunOn_gtc (s : State) (k : Nat) : (s.begunOn k).gtc = s.gtc := rfl
@[simp] theorem State.begunOn_tier (s : State) (k : Nat) : (s.begunOn k).tier = s.tier := rfl
@[simp] theorem State.begunOn_jobs (s : State) (k : Nat) : (s.begunOn k).ring.jobs = s.ring.jobs := rfl
@[simp] theorem State.entry_begunOn (s : State) (k d : Nat) : (s.begunOn k).entry d = s.entry d := rfl
@[simp] theorem State.memberHere_begunOn (s : State) (k : Nat) (e : Entry) : (s.begunOn k).memberHere e = s.memberHere e := rfl
@[simp] theorem State.job_begunOn (s : State) (k id : Nat) : (s.begunOn k).job id = s.job id := rfl
@[simp] theorem State.anyJob_begunOn (s : State) (k id : Nat) : (s.begunOn k).anyJob id = s.anyJob id := rfl

theorem State.onRing_taken {s : State} {k : Fin 8} {d : BitVec 1024} {p : BitVec 1024 → Bool} (h : Taken s k d) (hp : p d = true)
    (f : State → BitVec 1024 → State) : s.onRing k p f = (f (s.begunOn k) d).finish := by
  obtain ⟨hcur, hbegun, hon⟩ := h
  simp [State.onRing, State.begunOn, hcur, hbegun, hon, hp]

theorem isOp_of_eq {d : BitVec 1024} {op : Nat} (h : descOp d = op) : isOp op d = true := beq_iff_eq.mpr h

theorem isAct_of_eq {d : BitVec 1024} {op byte act : Nat} (h : descOp d = op) (ha : descBytes d byte byte = act) :
    isAct op byte act d = true := by simp [isAct, h, ha]

/-- The first completion of a ring's descriptor waits to be written, after those that waited already (R347, R349). -/
theorem State.firstCompletion_ring {t : State} {k : Fin 8} {d : BitVec 1024} (hcur : (t.ringOf k).cur = some d)
    (status kind job : Nat) (result : List Byte) : t.firstCompletion k status kind job result = t.updRing k fun r =>
      { r with due := r.due ++ [(completion (descTag d) (descOp d) status kind job result, descIrq d)] } := by
  simp [State.firstCompletion, State.descOf, State.handCompletion, hcur]

section
variable {s t : State} {k : Fin 8} {d : BitVec 1024}

/-- While the rings are as the acting found them, a first completion is the descriptor's, and it changes no job. -/
theorem firstCompletion_completes (h : Taken s k d) (ht : t.ring.rings = (s.begunOn k).ring.rings) (status kind job : Nat)
    (result : List Byte) : Completes s (t.firstCompletion k status kind job result) k d status kind job result ∧
      (t.firstCompletion k status kind job result).ring.jobs = t.ring.jobs := by
  have hring : t.ringOf k = { s.ringOf k with begun := true } := by
    rw [State.ringOf, ht]
    exact State.ring_updRing_same ..
  obtain ⟨hcur, -⟩ := h
  have hcur' : (t.ringOf k).cur = some d := by rwa [hring]
  rw [State.firstCompletion_ring hcur']
  have hdue : (t.ringOf k).due = (s.ringOf k).due := by rw [hring]
  exact ⟨(congrArg Ring.due (State.ring_updRing_same ..)).trans (congrArg (· ++ _) hdue), rfl⟩

/-! ### Acceptance and refusal -/

/-- The record of a job accepted from a descriptor (R353, Table 15-9). -/
def State.acceptedJob (s : State) (src : Nat) (d : BitVec 1024) (j : Job) : Job :=
  { j with id := nextId s.ring.nextJob, op := descOp d, gtc := s.gtc, src := src, tag := descTag d, irq := descIrq d }

/-- With no job not Done nothing bars a new one (R353). -/
theorem State.jobRefusal_free (h : s.ring.jobs = []) (j : Job) : s.jobRefusal j = 0 := by
  simp [State.jobRefusal, State.jobConflict, h]

/-- A COMPACT conflicts with SANITIZE alone, so 64 other jobs refuse it as too many (R353). -/
theorem State.jobRefusal_compact_full {j : Job} (hop : j.op = 0x22) (hfull : 64 ≤ s.ring.jobs.length)
    (hjobs : ∀ x ∈ s.ring.jobs, x.op ≠ 0x23) : s.jobRefusal j = 0x81 := by
  have hfree : s.jobConflict j = false := by simpa [State.jobConflict, Job.wide, hop] using fun x hx hs => absurd hs (hjobs x hx)
  simp [State.jobRefusal, hfree, hfull]

theorem State.opJob_accepted {status : Nat} {j : Job} (hstatus : status = 0) (hfree : s.jobRefusal { j with op := descOp d } = 0)
    (src : Nat) : s.opJob src d status j = s.takeJob src d { j with op := descOp d } := by
  simp [State.opJob, hstatus, hfree]

/-- A job descriptor of an idle device that passes its own checks is accepted (R349, R353). -/
theorem opJob_accepts {status : Nat} {j : Job} {P : Job → Prop} (h : Taken s k d) (hfree : s.ring.jobs = []) (hstatus : status = 0)
    (hP : P (s.acceptedJob k d j)) : Accepts s ((s.begunOn k).opJob k d status j) k d P := by
  rw [State.opJob_accepted hstatus (State.jobRefusal_free (s := s.begunOn k) hfree _)]
  obtain ⟨hdone, hjobs⟩ := firstCompletion_completes h (t := s.begunOn k) rfl 0 2 (nextId s.ring.nextJob) []
  exact ⟨_, congrArg (· ++ _) hjobs, rfl, rfl, rfl, rfl, hdone, hP⟩

/-- A job descriptor that fails one of its own checks is refused with that check's status (R349). -/
theorem opJob_refuses {status : Nat} {j : Job} {st : Nat} (h : Taken s k d) (hstatus : status = st) (hst : st ≠ 0) :
    RefusesJob s ((s.begunOn k).opJob k d status j) k d st := by
  subst hstatus
  rw [State.opJob, if_pos (bne_iff_ne.mpr hst)]
  exact firstCompletion_completes h rfl status 2 0 []

/-- A job descriptor that passes its own checks is refused with what bars it (R353). -/
theorem opJob_barred {j : Job} {st : Nat} (h : Taken s k d) (hst : (s.begunOn k).jobRefusal { j with op := descOp d } = st)
    (hne : st ≠ 0) : RefusesJob s ((s.begunOn k).opJob k d 0 j) k d st := by
  have hop : (s.begunOn k).opJob k d 0 j = (s.begunOn k).refuseJob k st := by simp [State.opJob, hst, hne]
  rw [hop]
  exact firstCompletion_completes h rfl st 2 0 []

theorem Entry.ports_open {e : Entry} (h : e.rdPorts ≠ 0 ∨ e.wrPorts ≠ 0) : (e.rdPorts != 0 || e.wrPorts != 0) = true := by
  simpa using h

/-- A SANITIZE of a domain that a port may still read or write is refused, and nothing is overwritten (R355). -/
theorem opSanitize_refuses (h : Taken s k d) (hvalid : (s.entry (descBytes d 19 18)).valid = true)
    (hopen : (s.entry (descBytes d 19 18)).rdPorts ≠ 0 ∨ (s.entry (descBytes d 19 18)).wrPorts ≠ 0) (hfree : s.ring.jobs = []) :
    RefusesJob s ((s.begunOn k).opSanitize k d 0) k d 0x86 := by
  have hrefused : ∀ j, RefusesJob s ((s.begunOn k).opJob k d 0x86 j) k d 0x86 := fun j => opJob_refuses h rfl (by decide)
  have hnone : ∀ j id, ((s.begunOn k).opJob k d 0x86 j).job id = none := fun j id => by
    obtain ⟨-, hjobs⟩ := hrefused j
    rw [State.job, hjobs, hfree, List.find?_nil]
  simpa [State.opSanitize, hvalid, Entry.ports_open hopen, hnone] using hrefused _

/-! ### A job found and changed -/

theorem State.id_of_job {id : Nat} {j : Job} (h : s.job id = some j) : j.id = id :=
  beq_iff_eq.mp (List.find?_some (p := fun x : Job => x.id == id) h)

theorem State.anyJob_of_job {id : Nat} {j : Job} (h : s.job id = some j) : s.anyJob id = some j := by
  rw [State.anyJob, List.find?_append]
  exact congrArg (Option.or · _) h

/-- A job changed with its identifier kept is found as changed. -/
theorem State.job_updJob_same {f : Job → Job} (hf : ∀ x, (f x).id = x.id) (id : Nat) :
    (s.updJob id f).job id = (s.job id).map f := by
  have hid : ∀ x : Job, (if x.id == id then f x else x).id = x.id := fun x => by split <;> simp [hf]
  simp only [State.updJob, State.job, List.find?_map, Function.comp_def, hid]
  refine Option.map_congr fun x hx => ?_
  exact if_pos (List.find?_some (p := fun x : Job => x.id == id) hx)

theorem State.jobs_updJob_single {j : Job} (h : s.ring.jobs = [j]) (f : Job → Job) : (s.updJob j.id f).ring.jobs = [f j] := by
  simp [State.updJob, h]

/-! ### Control -/

/-- An action on a job that does not exist is 0x83 (R354). -/
theorem State.jobCtl_unknown (h : s.anyJob (descBytes d 19 16) = none) (src : Nat) (f : State → Job → Nat × State) :
    s.jobCtl src d f = s.immediate src 0x83 [] := by
  simp [State.jobCtl, h]

theorem State.jobCtl_live {j : Job} (h : s.job (descBytes d 19 16) = some j) (hst : j.st ≠ 3) (src : Nat)
    (f : State → Job → Nat × State) : s.jobCtl src d f = (f s j).2.immediate src (f s j).1 [] := by
  simp [State.jobCtl, State.anyJob_of_job h, hst]

theorem immediate_completes (h : Taken s k d) (status : Nat) (result : List Byte) :
    Completes s ((s.begunOn k).immediate k status result) k d status 1 0 result :=
  (firstCompletion_completes h rfl status 1 0 result).1

theorem jobCtl_unknown_completes (h : Taken s k d) (hnone : s.anyJob (descBytes d 19 16) = none) (f : State → Job → Nat × State) :
    Completes s ((s.begunOn k).jobCtl k d f) k d 0x83 1 0 [] := by
  rw [State.jobCtl_unknown (s := s.begunOn k) hnone]
  exact immediate_completes h 0x83 []

/-- An action that changes nothing answers its status. -/
theorem jobCtl_kept {j : Job} {status : Nat} {f : State → Job → Nat × State} (h : Taken s k d)
    (hjob : s.job (descBytes d 19 16) = some j) (hst : j.st ≠ 3) (hf : f (s.begunOn k) j = (status, s.begunOn k)) :
    Completes s ((s.begunOn k).jobCtl k d f) k d status 1 0 [] := by
  rw [State.jobCtl_live (s := s.begunOn k) hjob hst, hf]
  exact immediate_completes h status []

/-- An action that changes the job's record answers its status and leaves the job changed so. -/
theorem jobCtl_changed {j : Job} {status : Nat} {f : State → Job → Nat × State} (g : Job → Job) (h : Taken s k d)
    (hjob : s.job (descBytes d 19 16) = some j) (hst : j.st ≠ 3) (hg : ∀ x, (g x).id = x.id)
    (hf : f (s.begunOn k) j = (status, (s.begunOn k).updJob j.id g)) :
    Completes s ((s.begunOn k).jobCtl k d f) k d status 1 0 [] ∧
      ((s.begunOn k).jobCtl k d f).job (descBytes d 19 16) = some (g j) := by
  rw [State.jobCtl_live (s := s.begunOn k) hjob hst, hf]
  obtain ⟨hdone, hjobs⟩ := firstCompletion_completes (t := (s.begunOn k).updJob j.id g) h rfl status 1 0 []
  refine ⟨hdone, ?_⟩
  calc
    _ = ((s.begunOn k).updJob j.id g).job (descBytes d 19 16) := congrArg (List.find? _) hjobs
    _ = ((s.begunOn k).job (descBytes d 19 16)).map g := by rw [State.id_of_job hjob]; exact State.job_updJob_same hg _
    _ = some (g j) := by rw [State.job_begunOn, hjob]; rfl

/-- With no migration in progress a cancelled job has none to end (Table 15-10). -/
theorem State.cancelMigs_none (h : s.tier.migs = []) (id : Nat) : s.cancelMigs id = s := by
  simp [State.cancelMigs, h]

/-! ### Audits -/

/-- A queued audit that is the only job starts (R353). -/
theorem State.startJob_only {j : Job} (h : s.ring.jobs = [j]) (hop : j.op = 0x20) (hst : j.st = 0) :
    s.startJob j.id = s.jobTo j.id 1 := by
  simp [State.startJob, State.job, h, hop, hst]

theorem State.startJob_none {id : Nat} (h : s.job id = none) : s.startJob id = s := by simp [State.startJob, h]

theorem State.auditStep_none {id : Nat} (h : s.job id = none) (errs : List (Nat × CodeWord × CodeWord)) : s.auditStep id errs = s := by
  simp [State.auditStep, h]

/-- A granule of a page without backing has no line to read: past its page's first granule it counts as passed and changes the
summary in nothing (R209, R210). -/
theorem State.auditGranule_unbacked {j : Job} (hcur : j.cur % 4 ≠ 0)
    (hpage : (s.page ((s.entry j.dom).mapKey ((s.pageDpa (s.entry j.dom) (j.cur / 4) / 1024 + j.cur % 4) * 1024))).state = 0)
    (errs : List (Nat × CodeWord × CodeWord)) :
    s.auditGranule j errs = s.updJob j.id fun x => { x with audit := j.audit, cur := x.cur + 1, done := x.done + 1 } := by
  simp [State.auditGranule, auditLines, hpage, hcur]

theorem State.auditStep_running {id : Nat} {j : Job} (h : s.job id = some j) (hop : j.op = 0x20) (hst : j.st = 1)
    (hcur : j.cur < j.last) (hserving : s.serving = true) (errs : List (Nat × CodeWord × CodeWord)) :
    s.auditStep id errs = s.auditGranule j errs := by
  simp [State.auditStep, h, hop, hst, hcur, hserving]

end

end Sys2Proof.Machine

namespace Sys2Proof

open Sys2Proof.Machine

/-- A command that acts on a ring's descriptor begins with what it does once the descriptor is marked. -/
theorem begins_onRing {c : Instr} {s : State} {k : Fin 8} {d : BitVec 1024} {p : BitVec 1024 → Bool}
    {f : State → BitVec 1024 → State} {P : State → Prop} (h : Taken s k d) (hexec : exec c s = .next (s.onRing k p f)) (hp : p d = true)
    (hP : P (f (s.begunOn k) d)) : Begins c s P :=
  ⟨_, hexec.trans (congrArg _ (State.onRing_taken h hp f)), hP⟩

/-- Settles O38: each operation is what acting on its descriptor does (`begins_onRing`): a job accepted or refused (`opJob_accepts`,
`opJob_refuses`, `opJob_barred`), or an action on one (`jobCtl_changed`, `jobCtl_kept`); the audit's steps are those of its job alone. -/
theorem jobDescriptors : Obligations.JobDescriptors := by
  intro s k d job h e id free ctl gives begun open_
  refine ⟨?audit, ?auditInvalid, ?range, ?rangeInvalid, ?compact, ?compactFull, ?sanitizeOpen, ?sanitize, ?resizeInvalid, ?resizeOpen,
    ?suspendQueued, ?suspendRunning, ?suspendSanitize, ?resume, ?cancel, ?unknown, ?status, ?start, ?absent, ?granule⟩
  case audit =>
    intro hop hvalid hmember (hfree : s.ring.jobs = [])
    exact begins_onRing h rfl (isOp_of_eq hop) (opJob_accepts h hfree (by simp [e, hvalid, hmember])
      ⟨by simp [State.acceptedJob, hfree], rfl, rfl, rfl⟩)
  case auditInvalid =>
    intro hop hvalid
    exact begins_onRing h rfl (isOp_of_eq hop) (opJob_refuses h (by simp [e, hvalid]) (by decide))
  case range =>
    intro hop hvalid hmember hchan hpages hfree
    exact begins_onRing h rfl (isOp_of_eq hop) (opJob_accepts h hfree (by simp [e, hvalid, hmember, hchan, hpages])
      ⟨rfl, rfl, rfl, rfl⟩)
  case rangeInvalid =>
    intro hop hvalid
    exact begins_onRing h rfl (isOp_of_eq hop) (opJob_refuses h (by simp [e, hvalid]) (by decide))
  case compact =>
    exact fun hop hfree => begins_onRing h rfl (isOp_of_eq hop) (opJob_accepts h hfree rfl ⟨rfl, rfl, rfl⟩)
  case compactFull =>
    intro hop hfull hjobs
    exact begins_onRing h rfl (isOp_of_eq hop) (opJob_barred h (State.jobRefusal_compact_full hop hfull hjobs) (by decide))
  case sanitizeOpen =>
    exact fun hop hscope hvalid hopen hfree =>
      begins_onRing h rfl (isAct_of_eq hop hscope) (opSanitize_refuses h hvalid hopen hfree)
  case sanitize =>
    intro hop
    exact ⟨fun hscope => begins_onRing h rfl (isAct_of_eq hop hscope) rfl,
      fun hscope => begins_onRing h rfl (isAct_of_eq hop hscope) rfl,
      fun hscope => begins_onRing h rfl (isAct_of_eq hop hscope) rfl⟩
  case resizeInvalid =>
    intro hop hvalid
    exact begins_onRing h rfl (isOp_of_eq hop) (opJob_refuses h (by simp [e, hvalid]) (by decide))
  case resizeOpen =>
    intro hop hvalid hopen
    exact begins_onRing h rfl (isOp_of_eq hop) (opJob_refuses h (by simp [e, hvalid, Entry.ports_open hopen]) (by decide))
  case suspendQueued =>
    rintro j hjob ⟨hop, hact⟩ hst hno hhold hstop
    exact begins_onRing h rfl (isAct_of_eq hop hact) (jobCtl_changed (fun j => { j with st := 2, gtc := s.gtc }) h hjob
      (by simp [hst]) (fun _ => rfl) (by simp [State.jobTo, hst, hno, hhold, hstop]))
  case suspendRunning =>
    rintro j hjob ⟨hop, hact⟩ hst hsan haudit hhold hstop
    exact begins_onRing h rfl (isAct_of_eq hop hact) (jobCtl_changed (fun j => { j with hold := true }) h hjob
      (by simp [hst]) (fun _ => rfl) (by simp [hst, hsan, haudit, hhold, hstop]))
  case suspendSanitize =>
    rintro j hjob ⟨hop, hact⟩ hst hsan
    exact begins_onRing h rfl (isAct_of_eq hop hact) (jobCtl_kept h hjob hst (by simp [hsan]))
  case resume =>
    rintro j hjob ⟨hop, hact⟩ hst hhold haudit
    exact begins_onRing h rfl (isAct_of_eq hop hact) (jobCtl_changed (fun j => { j with st := 1, gtc := s.gtc }) h hjob
      (by simp [hst]) (fun _ => rfl) (by simp [State.jobTo, hst, hhold, haudit]))
  case cancel =>
    rintro j hjob ⟨hop, hact⟩ hst hrange hstop hmigs
    have hnone : ∀ g, ((s.begunOn k).updJob j.id g).cancelMigs j.id = (s.begunOn k).updJob j.id g := fun g =>
      State.cancelMigs_none (s := (s.begunOn k).updJob j.id g) hmigs j.id
    exact begins_onRing h rfl (isAct_of_eq hop hact) (jobCtl_changed (fun j => { j with stop := true }) h hjob
      (by simp [hst]) (fun _ => rfl) (by simp [hrange, hstop, hnone]))
  case unknown =>
    intro hnone
    have hctl : ∀ f, gives 0x83 ((s.begunOn k).jobCtl k d f) := jobCtl_unknown_completes h hnone
    refine ⟨fun ⟨hop, hact⟩ => begins_onRing h rfl (isAct_of_eq hop hact) (hctl _),
      fun ⟨hop, hact⟩ => begins_onRing h rfl (isAct_of_eq hop hact) (hctl _),
      fun ⟨hop, hact⟩ => begins_onRing h rfl (isAct_of_eq hop hact) (hctl _),
      fun hop => begins_onRing h rfl (isOp_of_eq hop) ?_⟩
    simpa [State.opJobStatus, id, hnone] using immediate_completes h 0x83 []
  case status =>
    intro j hjob hop
    refine begins_onRing h rfl (isOp_of_eq hop) ?_
    simpa [State.opJobStatus, id, hjob] using immediate_completes h 0 j.record
  case start =>
    intro j hjobs hid hop hst
    refine ⟨_, rfl, ?_⟩
    rw [← hid, State.startJob_only hjobs hop hst]
    exact State.jobs_updJob_single hjobs _
  case absent =>
    exact fun hnone => ⟨⟨_, rfl, State.startJob_none hnone⟩, ⟨_, rfl, State.auditStep_none hnone []⟩⟩
  case granule =>
    intro j errs hjobs hid hop hst hcur hserving hgranule hpage
    have hjob : s.job job.toNat = some j := by simp [State.job, hjobs, hid]
    refine ⟨_, rfl, ?_⟩
    rw [State.auditStep_running hjob hop hst hcur hserving, State.auditGranule_unbacked hgranule hpage]
    exact State.jobs_updJob_single hjobs _

end Sys2Proof
end

section
/-!
PROOFS. Windows and pools, the regulator's commits, and the egress shaper (R217 to R225, R229, R235 to R238): what a walk over places
leaves at each, what keeps the regulator's state and registers, and each operation where its statement has it.
-/
namespace Sys2Proof.Machine

/-! ### Walks over places -/

/-- A walk visits each place once: the place's own step takes it from what holds before to what holds after, and every other step
keeps both. -/
theorem foldl_each {σ : Type} {l : List Nat} (hl : l.Nodup) {f : σ → Nat → σ} (before after : Nat → σ → Prop)
    (hstep : ∀ c ∈ l, ∀ t, before c t → after c (f t c))
    (hkeep : ∀ c ∈ l, ∀ d ∈ l, d ≠ c → ∀ t, (before d t → before d (f t c)) ∧ (after d t → after d (f t c)))
    (s : σ) (h : ∀ c ∈ l, before c s) : ∀ c ∈ l, after c (l.foldl f s) := by
  induction l generalizing s with
  | nil => simp
  | cons a l ih =>
    obtain ⟨ha, hl⟩ := List.nodup_cons.mp hl
    have hne : ∀ k ∈ l, a ≠ k := fun k hk e => ha (e ▸ hk)
    have hmem : ∀ k ∈ l, k ∈ a :: l := fun k => List.mem_cons_of_mem a
    intro c hc
    rw [List.foldl_cons]
    rcases List.mem_cons.mp hc with rfl | hcl
    · exact List.foldlRecOn l f (motive := after c) (hstep c hc s (h c hc)) fun t ht k hk =>
        (hkeep k (hmem k hk) c hc (hne k hk) t).2 ht
    · exact ih hl (fun k hk => hstep k (hmem k hk)) (fun k hk d hd => hkeep k (hmem k hk) d (hmem d hd)) (f s a)
        (fun k hk => (hkeep a List.mem_cons_self k (hmem k hk) (hne k hk).symm s).1 (h k (hmem k hk))) c hcl

/-! ### What keeps the regulator -/

/-- A register of the regulator that a window or a commit is about: a class counter, or a committed setting. -/
abbrev RegulatorReg (off : Nat) : Prop := R.RGL_CLSCNT 0 ≤ off ∧ off < R.RGL_CLSCNT 64 ∨ 3 * 2 ^ 28 ≤ off

/-- From `s` to `t`, the regulator's state, its class counters and its committed settings stand. -/
structure KeepsRegulator (s t : State) : Prop where
  rgl : t.rgl = s.rgl
  reg : ∀ off, RegulatorReg off → t.reg off = s.reg off

theorem KeepsRegulator.refl (s : State) : KeepsRegulator s s := ⟨rfl, fun _ _ => rfl⟩

theorem KeepsRegulator.trans {s t u : State} (h : KeepsRegulator s t) (h' : KeepsRegulator t u) : KeepsRegulator s u :=
  ⟨h'.rgl.trans h.rgl, fun off hoff => (h'.reg off hoff).trans (h.reg off hoff)⟩

theorem KeepsRegulator.wr {s t : State} (h : KeepsRegulator s t) {f : Fld} (hf : ¬ RegulatorReg f.off) (v : Nat) :
    KeepsRegulator s (t.wr f v) :=
  h.trans ⟨rfl, fun _ hoff => State.reg_setReg_other _ _ _ _ fun e => hf (e ▸ hoff)⟩

/-- The chip's registers up to the regulator's status are none of those. -/
theorem KeepsRegulator.wrLow {s t : State} (h : KeepsRegulator s t) {f : Fld} (hf : f.off ≤ R.RGL_STAT) (v : Nat) :
    KeepsRegulator s (t.wr f v) :=
  h.wr (by simp only [RegulatorReg, R.RGL_CLSCNT, R.RGL_STAT] at *; omega) v

theorem KeepsRegulator.event {s t : State} (h : KeepsRegulator s t) (code arg : Nat) : KeepsRegulator s (t.event code arg) :=
  ⟨h.rgl, h.reg⟩

@[simp] theorem State.log_rgl (s : State) (r : Record) : (s.log r).rgl = s.rgl := by
  obtain ⟨regs, flt, pend, h⟩ := s.log_frame r
  rw [h]

/-- A record of low severity of a unit outside the regions keeps the regulator (R383). -/
theorem KeepsRegulator.log {s t : State} (h : KeepsRegulator s t) {r : Record} (hsev : r.sev < 2)
    (hunit : unitRegion r.ukind r.unit = none) : KeepsRegulator s (t.log r) :=
  h.trans ⟨t.log_rgl r, fun off hoff => t.log_reg r hsev hunit (by simp only [RegulatorReg, R.RGL_CLSCNT, R.CF_NEXT] at *; omega)⟩

/-- Events counted in the chip's bank keep the regulator (R366). -/
theorem KeepsRegulator.countChip {s t : State} (h : KeepsRegulator s t) (unit code n : Nat) (dom cls : Option Nat) :
    KeepsRegulator s (t.count 4 unit code n dom cls) := by
  refine h.trans ⟨?_, fun off hoff => t.count_reg 4 unit code n dom cls fun k hk => ?_⟩
  · obtain ⟨regs, cnt, h⟩ := t.count_frame 4 unit code n dom cls
    rw [h]
  · simp only [RegulatorReg, R.RGL_CLSCNT] at hoff
    simp only [ovfFld, if_pos, Fld.bitAt, R.CHIP_COVF0_OVF, R.CHIP_COVF0]
    omega

/-! ### A window's boundary -/

/-- A class counter's step at a boundary: `State.closeCounts`'s. -/
def State.closeClass (s : State) (c : Nat) : State :=
  (s.wr (R.RGL_CLSCNT_COUNT c) (min (s.rgl.used.get c) (2 ^ 25 - 1))).wr (R.RGL_CLSCNT_CAPHIT c) (b2n (s.rgl.capHit.get c))

theorem State.closeCounts_eq (s : State) : s.closeCounts =
    { (List.range 64).foldl State.closeClass s with
      rgl := { ((List.range 64).foldl State.closeClass s).rgl with used := Tab.empty, capHit := Tab.empty } } := rfl

theorem State.closeCounts_rgl (s : State) : s.closeCounts.rgl = { s.rgl with used := Tab.empty, capHit := Tab.empty } := by
  have hwalk : ((List.range 64).foldl State.closeClass s).rgl = s.rgl :=
    List.foldlRecOn _ _ (motive := fun t : State => t.rgl = s.rgl) rfl fun _ ht _ _ => ht
  rw [State.closeCounts_eq, hwalk]

/-- A class's counter register shows the count and the meeting of the cap that a regulator's state holds. -/
abbrev State.ShowsClass (t : State) (rgl : RglState) (c : Nat) : Prop :=
  t.rd (R.RGL_CLSCNT_COUNT c) = min (rgl.used.get c) (2 ^ 25 - 1) ∧ t.flag (R.RGL_CLSCNT_CAPHIT c) = rgl.capHit.get c

theorem State.ShowsClass.congr {s t : State} {rgl : RglState} {c : Nat} (h : s.ShowsClass rgl c)
    (hreg : t.reg (R.RGL_CLSCNT c) = s.reg (R.RGL_CLSCNT c)) : t.ShowsClass rgl c :=
  ⟨(State.rd_of_reg hreg).trans h.1, (State.flag_of_reg hreg).trans h.2⟩

theorem State.flag_wr_b2n (s : State) (f : Fld) (b : Bool) (h : f.lo ≤ f.hi) (hw : f.hi < 32) : (s.wr f (b2n b)).flag f = b := by
  cases b
  · simp [State.flag, b2n, State.rd_wr_same s f _ h hw]
  · exact s.flag_set1_same f h hw

theorem State.closeClass_shows (s : State) (c : Nat) : (s.closeClass c).ShowsClass s.rgl c := by
  refine ⟨?_, State.flag_wr_b2n _ _ _ (by decide : 31 ≤ 31) (by decide : 31 < 32)⟩
  rw [State.closeClass, State.rd_wr_other _ _ _ _ (by decide : 31 ≤ 31) (by decide : 0 ≤ 24) (.inr (.inr (by decide : 24 < 31))),
    State.rd_wr_same _ _ _ (by decide : 0 ≤ 24) (by decide : 24 < 32)]
  exact Nat.mod_eq_of_lt (show _ < 2 ^ 25 by omega)

theorem State.closeClass_reg (s : State) {c off : Nat} (h : off ≠ R.RGL_CLSCNT c) : (s.closeClass c).reg off = s.reg off :=
  (State.reg_setReg_other _ _ _ _ h).trans (State.reg_setReg_other _ _ _ _ h)

theorem State.foldl_closeClass_shows (s : State) {c : Nat} (hc : c < 64) :
    ((List.range 64).foldl State.closeClass s).ShowsClass s.rgl c :=
  foldl_each List.nodup_range (f := State.closeClass) (fun _ t => t.rgl = s.rgl) (fun c t => t.ShowsClass s.rgl c)
    (fun c _ t ht => ht ▸ t.closeClass_shows c)
    (fun _ _ _ _ hd t => ⟨id, fun ht => ht.congr (t.closeClass_reg (by simp only [R.RGL_CLSCNT]; omega))⟩)
    s (fun _ _ => rfl) c (List.mem_range.mpr hc)

theorem State.reg_withRgl (s : State) (r : RglState) (off : Nat) : ({ s with rgl := r } : State).reg off = s.reg off := rfl

/-- A boundary shows each class's count and whether its cap was met (Table 10-10). -/
theorem State.closeCounts_shows (s : State) {c : Nat} (hc : c < 64) : s.closeCounts.ShowsClass s.rgl c :=
  s.closeCounts_eq ▸ (s.foldl_closeClass_shows hc).congr (State.reg_withRgl _ _ _)

/-- Committed settings put in their registers, one after the other. -/
def State.putCommitted (s : State) (cells : List (Nat × BitVec 32)) : State :=
  cells.foldl (fun s c => s.setReg (3 * 2 ^ 28 + c.1) c.2) s

theorem State.putCommitted_reg (s : State) (cells : List (Nat × BitVec 32)) {off : Nat} (h : off < 3 * 2 ^ 28) :
    (s.putCommitted cells).reg off = s.reg off :=
  List.foldlRecOn cells _ (motive := fun t : State => t.reg off = s.reg off) rfl fun t ht c _ =>
    (State.reg_setReg_other t _ _ _ (by omega)).trans ht

theorem State.putCommitted_rgl (s : State) (cells : List (Nat × BitVec 32)) : (s.putCommitted cells).rgl = s.rgl :=
  List.foldlRecOn cells _ (motive := fun t : State => t.rgl = s.rgl) rfl fun _ ht _ _ => ht

theorem State.pushOut_frame (s : State) (m : Msg) : ∃ link, s.pushOut m = { s with link := link } := by
  unfold State.pushOut
  split
  · exact ⟨s.link, rfl⟩
  · exact ⟨_, rfl⟩

/-- A request that is not tagged leaves no trace (R372). -/
theorem State.traceLeave_untagged (s : State) {r : Req} (h : r.tr.on = false) (outcome : Nat) : s.traceLeave r outcome = s := by
  simp [State.traceLeave, h]

theorem State.pcrInit_frame (s : State) (d : Nat) : ∃ link, s.pcrInit d = { s with link := link } := by
  have hpush : ∃ m, s.pcrInit d = (s.pushOut m).traceLeave default 0 := ⟨_, rfl⟩
  obtain ⟨m, hm⟩ := hpush
  rw [hm, State.traceLeave_untagged _ rfl]
  exact s.pushOut_frame m

theorem State.foldl_pcrInit_frame (s : State) (told : List Nat) :
    ∃ link, told.foldl (fun s d => s.pcrInit d) s = { s with link := link } :=
  List.foldlRecOn told _ (motive := fun t => ∃ link, t = { s with link := link }) ⟨s.link, rfl⟩ fun t ht d _ => by
    obtain ⟨link, rfl⟩ := ht
    exact State.pcrInit_frame _ d

/-- A boundary puts the settings that wait in their registers and shows the window; its messages to peers change the links (R224, R284). -/
theorem State.applyPending_some {s : State} {t : Tab (BitVec 32)} (h : s.rgl.pending = some t) : ∃ link n, s.applyPending =
    ({ s.putCommitted t.cells with rgl := { s.rgl with pending := none, fresh := true }, link := link } : State).wr
      R.RGL_STAT_WINDOW n := by
  unfold State.applyPending
  rw [h]
  dsimp only
  have hrgl := s.putCommitted_rgl t.cells
  unfold State.putCommitted at hrgl ⊢
  rw [← hrgl]
  obtain ⟨link, hlink⟩ := State.foldl_pcrInit_frame
    ({ s.putCommitted t.cells with rgl := { (s.putCommitted t.cells).rgl with pending := none, fresh := true } } : State) _
  exact ⟨link, _, congrArg (State.wr · R.RGL_STAT_WINDOW _) hlink⟩

theorem State.applyPending_none {s : State} (h : s.rgl.pending = none) : s.applyPending = s := by
  unfold State.applyPending
  rw [h]

theorem State.applyPending_rgl (s : State) : ∃ fresh, s.applyPending.rgl = { s.rgl with pending := none, fresh := fresh } := by
  cases h : s.rgl.pending with
  | none => exact ⟨s.rgl.fresh, by rw [State.applyPending_none h, ← h]⟩
  | some t =>
    obtain ⟨link, n, hsome⟩ := State.applyPending_some h
    exact ⟨true, by rw [hsome]; rfl⟩

theorem State.applyPending_reg (s : State) {off : Nat} (hoff : off < 3 * 2 ^ 28) (hstat : off ≠ R.RGL_STAT) :
    s.applyPending.reg off = s.reg off := by
  cases h : s.rgl.pending with
  | none => rw [State.applyPending_none h]
  | some t =>
    obtain ⟨link, n, hsome⟩ := State.applyPending_some h
    rw [hsome]
    exact (State.reg_setReg_other _ _ _ _ hstat).trans ((State.reg_congr rfl off).trans (s.putCommitted_reg t.cells hoff))

/-- A setting that waits alone is in force after the boundary (R224). -/
theorem State.applyPending_com {s : State} {off : Nat} {v : BitVec 32} (h : s.rgl.pending = some ⟨[(off, v)]⟩) :
    s.applyPending.reg (3 * 2 ^ 28 + off) = v := by
  obtain ⟨link, n, hsome⟩ := State.applyPending_some h
  have hput : (s.putCommitted [(off, v)]).reg (3 * 2 ^ 28 + off) = v := State.reg_setReg_same s _ v
  rw [hsome]
  refine (State.reg_setReg_other _ _ _ _ ?_).trans ((State.reg_congr rfl _).trans hput)
  simp only [R.RGL_STAT_WINDOW, R.RGL_STAT]
  omega

/-- FLOOR and the return of QOS change their own registers and make a record and an event (R223, R225). -/
theorem State.floorSync_keeps (s : State) : KeepsRegulator s s.floorSync := by
  have hfloor : ∀ a b, KeepsRegulator s ((s.wr R.RGL_FLOOR_FLOOR a).wr R.RGL_FLOOR_HEALTHY b) := fun a b =>
    ((KeepsRegulator.refl s).wrLow (by decide) a).wrLow (by decide) b
  have hfall : ∀ t r floor, r.sev < 2 → unitRegion r.ukind r.unit = none → KeepsRegulator s t →
      KeepsRegulator s (if t.flag R.RGL_STAT_DEGRADED then t
        else (((t.set1 R.RGL_STAT_DEGRADED).set1 R.RGL_STAT_DEGEVT).log r).event 0x07 floor) := by
    intro t r floor hsev hunit h
    split
    · exact h
    · exact (((h.wrLow (by decide) 1).wrLow (by decide) 1).log hsev hunit).event 0x07 floor
  unfold State.floorSync
  dsimp only
  split
  · split
    · exact hfall _ _ _ Nat.zero_lt_two rfl ((hfloor _ _).wrLow (by decide) 1)
    · exact hfall _ _ _ Nat.zero_lt_two rfl (hfloor _ _)
  · exact hfloor _ _

theorem State.qosReturn_keeps (s : State) : KeepsRegulator s s.qosReturn := by
  unfold State.qosReturn
  split
  · exact ((((KeepsRegulator.refl s).wrLow (by decide) 0).wrLow (by decide) 0).log Nat.zero_lt_two rfl).event _ _
  · exact .refl s

/-- The state of a boundary before the masters have their minima and the regions their pools: `State.windowStart`'s first part. -/
def State.boundary (s : State) : State :=
  (({ s with rgl := { s.rgl with lastAdm := s.rgl.admitted, admitted := Tab.empty } } : State).closeCounts.applyPending.floorSync).qosReturn

theorem State.boundary_rgl (s : State) : ∃ fresh, s.boundary.rgl = { s.rgl with
    lastAdm := s.rgl.admitted, admitted := Tab.empty, used := Tab.empty, capHit := Tab.empty, pending := none, fresh := fresh } := by
  obtain ⟨fresh, h⟩ := State.applyPending_rgl
    ({ s with rgl := { s.rgl with lastAdm := s.rgl.admitted, admitted := Tab.empty } } : State).closeCounts
  refine ⟨fresh, ?_⟩
  rw [State.boundary, (State.qosReturn_keeps _).rgl, (State.floorSync_keeps _).rgl, h, State.closeCounts_rgl]

/-- A boundary has closed the class counters (Table 10-10). -/
theorem State.boundary_shows (s : State) {c : Nat} (hc : c < 64) : s.boundary.ShowsClass s.rgl c := by
  have hshows := State.closeCounts_shows
    ({ s with rgl := { s.rgl with lastAdm := s.rgl.admitted, admitted := Tab.empty } } : State) hc
  have hreg : RegulatorReg (R.RGL_CLSCNT c) := .inl (by simp only [R.RGL_CLSCNT]; omega)
  refine hshows.congr (((State.qosReturn_keeps _).reg _ hreg).trans (((State.floorSync_keeps _).reg _ hreg).trans ?_))
  exact State.applyPending_reg _ (by simp only [R.RGL_CLSCNT]; omega) (by simp only [R.RGL_CLSCNT, R.RGL_STAT]; omega)

theorem State.boundary_com {s : State} {off : Nat} {v : BitVec 32} (h : s.rgl.pending = some ⟨[(off, v)]⟩) :
    s.boundary.reg (3 * 2 ^ 28 + off) = v := by
  have hreg : RegulatorReg (3 * 2 ^ 28 + off) := .inr (Nat.le_add_right _ _)
  refine ((State.qosReturn_keeps _).reg _ hreg).trans (((State.floorSync_keeps _).reg _ hreg).trans (State.applyPending_com ?_))
  rw [State.closeCounts_rgl]
  exact h

/-- Where no return was withheld, a boundary pays none (R227). -/
theorem State.payOwed_none {s : State} (h : s.rgl.owed = Tab.empty) : s.payOwed = s :=
  List.foldlRecOn _ _ (motive := (· = s)) rfl fun t ht i _ => by
    have hzero : t.rgl.owed.get i = 0 := by rw [ht, h]; rfl
    rw [hzero]
    exact ht

/-- A boundary with no return withheld gives the masters their minima, from the settings then in force, and the regions their pools
(R219, R220, R225). -/
theorem State.windowStart_eq {s : State} (h : s.rgl.owed = Tab.empty) : ∃ own pool, s.windowStart = { s.boundary with
    rgl := { s.boundary.rgl with
      effmin := allMasters.foldl (fun t m => t.put m (s.boundary.effminOf m s.boundary.sumMin
        (s.boundary.rd R.RGL_FLOOR_FLOOR - pacedTotal s.boundary.rdCom))) Tab.empty
      own := own
      pool := pool
      fresh := false
      paced := Tab.empty } } := by
  have howed : s.boundary.rgl.owed = Tab.empty := by
    obtain ⟨fresh, hrgl⟩ := s.boundary_rgl
    rw [hrgl]
    exact h
  exact ⟨_, _, State.payOwed_none howed⟩

theorem State.effminOf_congr {s t : State} (h : t.regs = s.regs) (m sum av : Nat) : t.effminOf m sum av = s.effminOf m sum av := by
  simp only [State.effminOf, State.minOf, State.rd_congr h]

theorem State.sumMin_congr {s t : State} (h : t.regs = s.regs) : t.sumMin = s.sumMin := by
  simp only [State.sumMin, State.minOf, State.rd_congr h]

theorem State.rdCom_congr {s t : State} (h : t.regs = s.regs) : t.rdCom = s.rdCom := funext fun f => State.rd_congr h f.com

/-- A table filled for every master holds each master's value. -/
theorem get_foldl_put_allMasters (f : Nat → Nat) {m : Nat} (hm : m < 272) :
    (allMasters.foldl (fun t m => t.put m (f m)) Tab.empty).get m = f m :=
  foldl_each List.nodup_range (fun _ _ => True) (fun m (t : Tab Nat) => t.get m = f m) (fun m _ t _ => t.get_put_same m (f m))
    (fun _ _ _ _ hd t => ⟨fun _ => trivial, fun ht => (t.get_put_other _ _ _ hd).trans ht⟩) _ (fun _ _ => trivial) m
    (List.mem_range.mpr hm)

/-- A boundary gives every master its effective minimum (R225). -/
theorem State.windowStart_effmin {s : State} (h : s.rgl.owed = Tab.empty) {m : Nat} (hm : m < 272) :
    s.windowStart.rgl.effmin.get m =
      s.boundary.effminOf m s.boundary.sumMin (s.boundary.rd R.RGL_FLOOR_FLOOR - pacedTotal s.boundary.rdCom) := by
  obtain ⟨own, pool, heq⟩ := State.windowStart_eq h
  rw [heq]
  dsimp only
  exact get_foldl_put_allMasters (fun m => s.boundary.effminOf m _ _) hm

/-! ### Pools -/

/-- The regions where a weight waits. -/
def State.needy (s : State) : List Nat := [0, 1, 2, 3].filter fun r => s.waitingWeight r > 0

/-- The pool of the regions where no weight waits. -/
def State.spare (s : State) : Nat := ([0, 1, 2, 3].filter fun r => s.waitingWeight r == 0).foldl (fun a r => a + s.rgl.pool.get r) 0

/-- A region's part of the spare pool, by weight. -/
def State.part (s : State) (r : Nat) : Nat := s.spare * s.waitingWeight r / s.needy.foldl (fun a r => a + s.waitingWeight r) 0

/-- What a region gains when `f` is the first that takes: its part, and for `f` what the division leaves over. -/
def State.gain (s : State) (f r : Nat) : Nat :=
  s.part r + if r == f then s.spare - s.needy.foldl (fun a r => a + s.part r) 0 else 0

theorem State.rebalance_none {s : State} (h : s.needy = []) : s.rebalance = s := by
  simp only [State.needy] at h
  simp only [State.rebalance, h]

theorem State.rebalance_some {s : State} {f : Nat} {l : List Nat} (h : s.needy = f :: l) : s.rebalance = { s with rgl := { s.rgl with
    pool := [0, 1, 2, 3].foldl (fun (t : Tab Nat) r => if s.waitingWeight r == 0 then t.put r 0 else
      t.upd r (· + s.part r + if r == f then s.spare - s.needy.foldl (fun a r => a + s.part r) 0 else 0)) s.rgl.pool } } := by
  simp only [State.part, h]
  simp only [State.needy] at h
  simp only [State.rebalance, h, State.spare]

theorem foldl_add_eq_sum (g : Nat → Nat) (l : List Nat) : l.foldl (fun a r => a + g r) 0 = (l.map g).sum := by
  rw [List.sum_eq_foldl_nat, List.foldl_map]

theorem sum_map_add_nat (f g : Nat → Nat) (l : List Nat) : (l.map fun r => f r + g r).sum = (l.map f).sum + (l.map g).sum := by
  induction l with
  | nil => rfl
  | cons r l ih =>
    simp only [List.map_cons, List.sum_cons, ih]
    omega

/-- Parts in proportion, rounded down, come to no more than the whole. -/
theorem sum_parts_le (a n : Nat) (w : Nat → Nat) (l : List Nat) : (l.map fun r => a * w r / n).sum ≤ a * (l.map w).sum / n := by
  induction l with
  | nil => simp
  | cons r l ih =>
    rw [List.map_cons, List.sum_cons, List.map_cons, List.sum_cons, Nat.mul_add]
    exact Nat.le_trans (Nat.add_le_add_left ih _) Nat.div_add_div_le_add_div

/-- The parts of the needy regions come to no more than the spare pool. -/
theorem State.sum_part_le (s : State) : (s.needy.map s.part).sum ≤ s.spare := by
  unfold State.part
  rw [foldl_add_eq_sum]
  exact Nat.le_trans (sum_parts_le s.spare _ s.waitingWeight s.needy) (Nat.div_le_of_le_mul (Nat.le_of_eq (Nat.mul_comm _ _)))

theorem State.mem_needy (s : State) {r : Nat} : r ∈ s.needy ↔ r ∈ [0, 1, 2, 3] ∧ s.waitingWeight r ≠ 0 := by
  simp [State.needy, List.mem_filter, Nat.pos_iff_ne_zero]

theorem State.needy_nodup (s : State) : s.needy.Nodup := List.Pairwise.filter _ (by decide : [0, 1, 2, 3].Nodup)

/-- What the needy regions gain is the spare pool (R220). -/
theorem State.sum_gain {s : State} {f : Nat} {l : List Nat} (h : s.needy = f :: l) : (s.needy.map (s.gain f)).sum = s.spare := by
  have hf : f ∉ l := (List.nodup_cons.mp (h ▸ s.needy_nodup)).1
  have hrest : l.map (s.gain f) = l.map s.part := List.map_congr_left fun r hr => by
    have hne : r ≠ f := fun e => hf (e ▸ hr)
    simp [State.gain, hne]
  have hle := s.sum_part_le
  have hfirst : s.gain f f = s.part f + (s.spare - (s.needy.map s.part).sum) := by
    simp only [State.gain, foldl_add_eq_sum, beq_self_eq_true, if_true]
  rw [h] at hle hfirst ⊢
  simp only [List.map_cons, List.sum_cons] at hle hfirst ⊢
  rw [hfirst, hrest]
  omega

/-- After a rebalance a region where no weight waits has no pool, and the others have what they gain besides their own (R220). -/
theorem State.rebalance_get {s : State} {f : Nat} {l : List Nat} (h : s.needy = f :: l) {r : Nat} (hr : r ∈ [0, 1, 2, 3]) :
    s.rebalance.rgl.pool.get r = if s.waitingWeight r = 0 then 0 else s.rgl.pool.get r + s.gain f r := by
  rw [State.rebalance_some h]
  refine foldl_each (by decide) (fun r (t : Tab Nat) => t.get r = s.rgl.pool.get r)
    (fun r (t : Tab Nat) => t.get r = if s.waitingWeight r = 0 then 0 else s.rgl.pool.get r + s.gain f r)
    (fun r _ t ht => ?_) (fun r _ q _ hq t => ?_) _ (fun _ _ => rfl) r hr
  · by_cases hw : s.waitingWeight r = 0
    · simp [hw]
    · simp [hw, ht, State.gain, Nat.add_assoc]
  · have hother : ∀ v, (if s.waitingWeight r == 0 then t.put r 0 else t.upd r v).get q = t.get q := fun v => by
      split
      · exact t.get_put_other _ _ _ hq
      · exact t.get_upd_other _ _ _ hq
    rw [hother]
    exact ⟨id, id⟩

/-- A rebalance keeps the sum of the pools (R220). -/
theorem State.rebalance_sum {s : State} {f : Nat} {l : List Nat} (h : s.needy = f :: l) :
    ([0, 1, 2, 3].map s.rebalance.rgl.pool.get).sum = ([0, 1, 2, 3].map s.rgl.pool.get).sum := by
  have hsplit : ∀ g : Nat → Nat, ([0, 1, 2, 3].map g).sum =
      (s.needy.map g).sum + (([0, 1, 2, 3].filter fun r => s.waitingWeight r == 0).map g).sum := by
    intro g
    have hperm := (List.filter_append_perm (fun r => decide (s.waitingWeight r > 0)) [0, 1, 2, 3]).map g
    rw [← hperm.sum_nat, List.map_append, List.sum_append]
    congr 4
    funext r
    rw [Bool.eq_iff_iff]
    simp
  have hneedy : s.needy.map s.rebalance.rgl.pool.get = s.needy.map fun r => s.rgl.pool.get r + s.gain f r :=
    List.map_congr_left fun r hr => by
      obtain ⟨hr, hw⟩ := s.mem_needy.mp hr
      rw [State.rebalance_get h hr, if_neg hw]
  have hidle : (([0, 1, 2, 3].filter fun r => s.waitingWeight r == 0).map s.rebalance.rgl.pool.get).sum = 0 :=
    List.sum_eq_zero_iff_forall_eq_nat.mpr fun v hv => by
      obtain ⟨r, hr, rfl⟩ := List.mem_map.mp hv
      obtain ⟨hr, hw⟩ := List.mem_filter.mp hr
      rw [State.rebalance_get h hr, if_pos (beq_iff_eq.mp hw)]
  rw [hsplit, hsplit s.rgl.pool.get, hneedy, hidle, sum_map_add_nat, State.sum_gain h, State.spare, foldl_add_eq_sum, Nat.add_zero]

/-! ### Commits -/

theorem stagedRgl_low : ∀ o ∈ stagedRgl, o < 2 ^ 28 ∧ o ≠ R.RGL_STAT := by decide +kernel

/-- Rising keys are all different. -/
theorem nodup_of_risingKeys {l : List Nat} (h : risingKeys (l.map fun o => (o, ())) = true) : l.Nodup := by
  induction l with
  | nil => exact List.nodup_nil
  | cons o l ih =>
    obtain ⟨hlow, hrest⟩ := (risingKeys_cons _ _).mp h
    refine List.nodup_cons.mpr ⟨fun ho => ?_, ih hrest⟩
    exact Nat.lt_irrefl o (hlow (o, ()) (List.mem_map.mpr ⟨o, ho, rfl⟩))

theorem stagedRgl_nodup : stagedRgl.Nodup := nodup_of_risingKeys (by decide +kernel)

theorem pathOff_lt (p : Path) {off : Nat} (h : off < 2 ^ 28) : pathOff p off < 3 * 2 ^ 28 := by
  cases p <;> simp only [pathOff] <;> omega

/-- The status register of a path is no register of the regulator's settings. -/
theorem not_regulatorReg_stat (p : Path) : ¬ RegulatorReg (pathOff p R.RGL_STAT) := by
  cases p <;> simp only [RegulatorReg, pathOff, R.RGL_CLSCNT, R.RGL_STAT] <;> omega

theorem KeepsRegulator.withClaim {s t : State} (h : KeepsRegulator s t) (c : ClaimState) : KeepsRegulator s { t with claim := c } :=
  ⟨h.rgl, h.reg⟩

/-- A denied claim shows in the chip's registers, is recorded and is counted (R34, R36). -/
theorem KeepsRegulator.denyClaim {s t : State} (h : KeepsRegulator s t) (res claimant shown named : Nat) :
    KeepsRegulator s (t.denyClaim res claimant shown named) := by
  have hlow : R.CHIP_CLAIMSTAT ≤ R.RGL_STAT := by decide
  exact ((((((h.wrLow hlow _).wrLow hlow _).wrLow hlow _).wrLow hlow _).wrLow hlow _).log Nat.zero_lt_two rfl).countChip ..

theorem KeepsRegulator.takeClaims (before : ClaimState) (claims won : List Claim) {s t : State} (h : KeepsRegulator s t) :
    KeepsRegulator s (State.takeClaims before claims won t).2 := by
  induction claims generalizing won t with
  | nil => exact h
  | cons x l ih =>
    unfold State.takeClaims
    split
    · exact ih _ (h.withClaim _)
    · exact ih _ (h.denyClaim ..)

/-- The claims of a setting keep the regulator. -/
theorem State.rglClaims_keeps (s : State) (doms : List (Nat × Entry)) (new : Nat → BitVec 32) :
    KeepsRegulator s (s.rglClaims doms new).2 := by
  have hstep : ∀ releases claims, KeepsRegulator s (s.claimStep releases claims).2 := fun _ _ =>
    ((KeepsRegulator.refl s).withClaim _).takeClaims _ _ _ |>.withClaim _
  have hanswer : ∀ r : List Claim × State, KeepsRegulator s r.2 →
      KeepsRegulator s (if r.1.isEmpty then (true, r.2) else (false, { r.2 with claim := s.claim }) : Bool × State).2 := by
    intro r h
    split
    · exact h
    · exact h.withClaim _
  exact hanswer _ (hstep _ _)

/-- A list of settings, each under its register, gives a register's own. -/
theorem find_map_setting {l : List Nat} {off : Nat} (h : off ∈ l) (new : Nat → BitVec 32) :
    ((l.map fun o => (o, new o)).find? fun c => c.1 == off) = some (off, new off) := by
  induction l with
  | nil => cases h
  | cons o l ih =>
    by_cases ho : o = off
    · simp [ho]
    · have hmem : off ∈ l := (List.mem_cons.mp h).resolve_left (Ne.symm ho)
      simpa [ho] using ih hmem

theorem State.rglLatest_congr {s t : State} {off : Nat} (hpend : t.rgl.pending = s.rgl.pending)
    (hcom : t.reg (3 * 2 ^ 28 + off) = s.reg (3 * 2 ^ 28 + off)) : t.rglLatest off = s.rglLatest off := by
  simp only [State.rglLatest, hpend, hcom]

theorem State.rglLatest_setReg (s : State) {off o : Nat} (v : BitVec 32) (h : 3 * 2 ^ 28 + off ≠ o) :
    (s.setReg o v).rglLatest off = s.rglLatest off :=
  State.rglLatest_congr (congrArg _ (s.setReg_rgl o v)) (State.reg_setReg_other _ _ _ _ h)

theorem KeepsRegulator.com {s t : State} (h : KeepsRegulator s t) (off : Nat) : t.reg (3 * 2 ^ 28 + off) = s.reg (3 * 2 ^ 28 + off) :=
  h.reg _ (.inr (Nat.le_add_right _ _))

@[simp] theorem State.rglCommit_regs (s : State) (new : Nat → BitVec 32) : (s.rglCommit new).regs = s.regs := rfl

@[simp] theorem State.rglCommit_effmin (s : State) (new : Nat → BitVec 32) : (s.rglCommit new).rgl.effmin = s.rgl.effmin := rfl

/-- What a setting that passed its checks gives stands as last committed (R224). -/
theorem State.rglCommit_latest (s : State) (new : Nat → BitVec 32) {off : Nat} (h : off ∈ stagedRgl) :
    (s.rglCommit new).rglLatest off = new off := by
  simp [State.rglLatest, State.rglCommit, find_map_setting (List.mem_mergeSort.mpr h) new]

/-- A check's status is 0 or a code of Table 10-2: it fits the field. -/
theorem State.rglChecks_lt (s : State) (new : Nat → BitVec 32) (made : Bool) : s.rglChecks new made < 2 ^ 8 := by
  unfold State.rglChecks
  dsimp only
  repeat' split
  all_goals decide

theorem State.rglCheck_lt (s : State) (new : Nat → BitVec 32) : s.rglCheck new < 2 ^ 8 := s.rglChecks_lt new _

/-- A commit's status told to its path, with `BUSY` cleared (R224). -/
def State.tell (s : State) (p : Path) (st : Nat) : State := (s.wr (R.RGL_STAT_STATUS.on p) st).clr (R.RGL_STAT_BUSY.on p)

theorem State.tell_status (s : State) (p : Path) {st : Nat} (h : st < 2 ^ 8) : (s.tell p st).rd (R.RGL_STAT_STATUS.on p) = st := by
  rw [State.tell, State.clr, State.rd_wr_other _ _ _ _ (by decide : 31 ≤ 31) (by decide : 16 ≤ 23) (.inr (.inr (by decide : 23 < 31))),
    State.rd_wr_same _ _ _ (by decide : 16 ≤ 23) (by decide : 23 < 32)]
  exact Nat.mod_eq_of_lt h

theorem State.tell_keeps (s : State) (p : Path) (st : Nat) : KeepsRegulator s (s.tell p st) :=
  ((KeepsRegulator.refl s).wr (not_regulatorReg_stat p) st).wr (not_regulatorReg_stat p) 0

theorem State.rglTake_eq (s : State) (p : Path) (new : Nat → BitVec 32) : s.rglTake p new =
    (if (s.rglClaims s.domains new).2.rglCheck new == 0 then (s.rglClaims s.domains new).2.rglCommit new
      else { (if (s.rglClaims s.domains new).1 then s else (s.rglClaims s.domains new).2) with claim := s.claim }).tell p
      ((s.rglClaims s.domains new).2.rglCheck new) := rfl

theorem State.rglTake_status (s : State) (p : Path) (new : Nat → BitVec 32) :
    (s.rglTake p new).rd (R.RGL_STAT_STATUS.on p) = (s.rglClaims s.domains new).2.rglCheck new := by
  rw [State.rglTake_eq]
  exact State.tell_status _ p (State.rglCheck_lt _ new)

/-- A setting that passes its checks, once the claims it makes are taken, is the one last committed; the minima and the settings in force
stand until the boundary (R224; assumption 102). -/
theorem State.rglTake_passed {s : State} {p : Path} {new : Nat → BitVec 32} (h : (s.rglClaims s.domains new).2.rglCheck new = 0) :
    (∀ off ∈ stagedRgl, (s.rglTake p new).rglLatest off = new off) ∧ (s.rglTake p new).rgl.effmin = s.rgl.effmin ∧
      ∀ off, (s.rglTake p new).reg (3 * 2 ^ 28 + off) = s.reg (3 * 2 ^ 28 + off) := by
  have hclaims := s.rglClaims_keeps s.domains new
  have htell := State.tell_keeps ((s.rglClaims s.domains new).2.rglCommit new) p 0
  rw [State.rglTake_eq, h, if_pos (beq_self_eq_true 0)]
  refine ⟨fun off hoff => ?_, ?_, fun off => ?_⟩
  · rw [State.rglLatest_congr (congrArg RglState.pending htell.rgl) (htell.com off), State.rglCommit_latest _ new hoff]
  · rw [htell.rgl, State.rglCommit_effmin, hclaims.rgl]
  · rw [htell.com, State.reg_congr (State.rglCommit_regs _ _), hclaims.com]

/-- A setting that its checks refuse leaves the regulator and the claims as they were (R224). -/
theorem State.rglTake_refused {s : State} {p : Path} {new : Nat → BitVec 32} (h : (s.rglClaims s.domains new).2.rglCheck new ≠ 0) :
    (s.rglTake p new).rgl = s.rgl ∧ (s.rglTake p new).claim = s.claim := by
  have hrgl : (if (s.rglClaims s.domains new).1 then s else (s.rglClaims s.domains new).2).rgl = s.rgl := by
    split
    · rfl
    · exact (s.rglClaims_keeps _ _).rgl
  rw [State.rglTake_eq, if_neg (by simpa using h)]
  exact ⟨(State.tell_keeps _ _ _).rgl.trans hrgl, rfl⟩

theorem State.rglCommitFrom_busy {s : State} {p : Path} (h : s.flag (R.RGL_STAT_BUSY.on p) = true) : s.rglCommitFrom p = s := by
  simp [State.rglCommitFrom, h]

theorem State.rglCopy_busy {s : State} {p : Path} (h : s.flag (R.RGL_STAT_BUSY.on p) = true) : s.rglCopy p = s := by
  simp [State.rglCopy, h]

theorem State.rglCommitFrom_ready {s : State} {p : Path} (h : ¬ s.flag (R.RGL_STAT_BUSY.on p) = true)
    (hready : s.flag R.CHIP_BOOTSTAT_READY = true) : s.rglCommitFrom p = s.rglTake p fun off => s.reg (pathOff p off) := by
  simp [State.rglCommitFrom, h, hready]

/-- Before `READY` a commit waits at the arbiter with `BUSY` set (R456). -/
theorem State.rglCommitFrom_unready {s : State} {p : Path} (h : ¬ s.flag (R.RGL_STAT_BUSY.on p) = true)
    (hready : ¬ s.flag R.CHIP_BOOTSTAT_READY = true) : s.rglCommitFrom p = ({ s with rgl := { s.rgl with queued := s.rgl.queued ++
      [(p, ⟨stagedRgl.mergeSort.map fun o => (o, s.reg (pathOff p o))⟩)] } } : State).set1 (R.RGL_STAT_BUSY.on p) := by
  simp [State.rglCommitFrom, h, hready]

/-- The commit register is not of class I: its write before `READY` is not noted, and while the device is awake nothing else comes before
its effect (R434, R477). -/
theorem State.viaPath_commit {s : State} {p : Path} (hhold : s.boot.hold = false) (hshut : s.pathShut p = false)
    (htarget : s.pow.target = none) (hblaze : s.rd R.PS_STAT_STATE = 0) (f : State → State) : s.viaPath p R.RGL_COMMIT f = f s := by
  have hwake : s.wakeFor p R.RGL_COMMIT = s := by
    unfold State.wakeFor
    rw [s.wake_awake 4 htarget hblaze, ite_self]
  have hclass : ((regRow R.RGL_COMMIT).any fun r => r.cls == .i) = false := by decide +kernel
  simp [State.viaPath, State.noteEarly, hhold, hshut, hwake, hclass]

/-- A path's staging taken from the settings last committed: `State.rglCopy`'s walk. -/
def State.stageLatest (s : State) (p : Path) : State := stagedRgl.foldl (fun s o => s.setReg (pathOff p o) (s.rglLatest o)) s

theorem State.stageLatest_rgl (s : State) (p : Path) : (s.stageLatest p).rgl = s.rgl :=
  List.foldlRecOn _ _ (motive := fun t : State => t.rgl = s.rgl) rfl fun _ ht _ _ => ht

/-- A copy stages every setting as last committed (R238). -/
theorem State.stageLatest_reg (s : State) (p : Path) {off : Nat} (h : off ∈ stagedRgl) :
    (s.stageLatest p).reg (pathOff p off) = s.rglLatest off :=
  foldl_each stagedRgl_nodup (f := fun s o => s.setReg (pathOff p o) (s.rglLatest o)) (fun o t => t.rglLatest o = s.rglLatest o)
    (fun o t => t.reg (pathOff p o) = s.rglLatest o) (fun _ _ t ht => (t.reg_setReg_same _ _).trans ht)
    (fun c hc d _ hd t =>
      have hcom : 3 * 2 ^ 28 + d ≠ pathOff p c := by have hlt := pathOff_lt p (stagedRgl_low c hc).1; omega
      ⟨(t.rglLatest_setReg _ hcom).trans,
        fun ht => (State.reg_setReg_other _ _ _ _ (pathOff_ne p hd)).trans ht⟩)
    s (fun _ _ => rfl) off h

theorem State.rglCopy_idle {s : State} {p : Path} (h : ¬ s.flag (R.RGL_STAT_BUSY.on p) = true) :
    s.rglCopy p = (s.stageLatest p).clr (R.RGL_STAT_STATUS.on p) := by
  simp [State.rglCopy, State.stageLatest, State.clr, h]

/-! ### The egress shaper -/

theorem State.egressSend_none {s : State} {x : Nat} (h : s.egressPick x = none) : s.egressSend x = s := by
  simp [State.egressSend, h]

/-- A message whose host's link is down stays (R236). -/
theorem State.egressSend_down {s : State} {x : Nat} {e : Egress} (h : s.egressPick x = some e) (hup : s.slotUp e = false) :
    s.egressSend x = s := by
  simp [State.egressSend, h, hup]

/-- The slot's queue without the message, its bucket charged and its wait noted (R236, R237): what a message leaves behind. -/
def State.dequeued (s : State) (x : Nat) (e : Egress) : State :=
  { s.charge x e with rgl := { (s.charge x e).rgl with
    egress := (s.charge x e).rgl.egress.upd x (·.erase e)
    turnE := if e.paced then (s.charge x e).rgl.turnE else (s.charge x e).rgl.turnE.put x e.cls } }

/-- A message charged changes its bucket and its class's longest wait. -/
theorem State.charge_frame (s : State) (x : Nat) (e : Egress) : ∃ bucket maxWait,
    s.charge x e = { s with rgl := { s.rgl with bucket := bucket, maxWait := maxWait } } := ⟨_, _, rfl⟩

/-- A message leaves its slot's queue, and the regulator's state alone has changed. -/
theorem State.dequeued_frame (s : State) (x : Nat) (e : Egress) : ∃ rgl : RglState,
    rgl.egress.get x = (s.rgl.egress.get x).erase e ∧ s.dequeued x e = { s with rgl := rgl } := by
  obtain ⟨bucket, maxWait, hcharge⟩ := s.charge_frame x e
  unfold State.dequeued
  rw [hcharge]
  exact ⟨_, Tab.get_upd_same _ _ _, rfl⟩

theorem State.egressSend_host {s : State} {x h : Nat} {e : Egress} (hpick : s.egressPick x = some e) (hto : e.toHost = true)
    (hagent : e.req.agent = .host h) (hup : (s.head h).flit ≠ 0) (htr : e.req.tr.on = false) (hcredit : e.credit = 0) :
    s.egressSend x =
      (s.dequeued x e).send (if e.isData then .hostData h e.req.tag e.data e.poison e.hostState else .hostCmp h e.req.tag) := by
  have hslot : s.slotUp e = true := by simp [State.slotUp, hto, hagent, hup]
  simp [State.egressSend, hpick, hslot, hto, hagent, hcredit, State.traceLeave_untagged _ htr, State.dequeued]

theorem State.egressSend_peer {s : State} {x : Nat} {e : Egress} (hpick : s.egressPick x = some e) (hto : e.toHost = false)
    (htr : e.req.tr.on = false) : s.egressSend x = (s.dequeued x e).pushOut e.msg := by
  have hslot : s.slotUp e = true := by simp [State.slotUp, hto]
  simp [State.egressSend, hpick, hslot, hto, State.traceLeave_untagged _ htr, State.dequeued]

theorem State.pushOut_reached {s : State} {m : Msg} (h : s.peerLost m.dst = false) :
    s.pushOut m = { s with link := { s.link with outq := s.link.outq.upd m.dst (· ++ [m]) } } := by
  simp [State.pushOut, h]

/-! ### Samples -/

/-- What a slot's sample shows of a class: its messages and its longest wait in units of 10 ns. -/
def State.showClass (q : List Egress) (x : Nat) (s : State) (c : Nat) : State :=
  (s.wr (R.SH_SAMP_DEPTH x c) (min (q.filter fun e => e.cls == c).length 0xFFF)).wr
    (R.SH_SAMP_MAXDLY x c) (min (s.rgl.maxWait.get (bktKey x c) / 10) 0xFFFF)

/-- A class's step of a slot's sample: `State.sampleSlot`'s. -/
def State.sampleClass (q : List Egress) (x : Nat) (s : State) (c : Nat) : State :=
  { s.showClass q x c with rgl := { (s.showClass q x c).rgl with maxWait := (s.showClass q x c).rgl.maxWait.put (bktKey x c) 0 } }

theorem State.sampleSlot_eq (s : State) (x : Nat) :
    s.sampleSlot x = ((List.range 64).foldl (State.sampleClass (s.rgl.egress.get x) x) s).event 0x09 x := rfl

theorem State.sampleClass_rgl (s : State) (q : List Egress) (x c : Nat) :
    (s.sampleClass q x c).rgl = { s.rgl with maxWait := s.rgl.maxWait.put (bktKey x c) 0 } := by
  have hshow : (s.showClass q x c).rgl = s.rgl := by rw [State.showClass, State.wr_rgl, State.wr_rgl]
  rw [State.sampleClass, hshow]

theorem State.sampleClass_reg (s : State) (q : List Egress) (x c off : Nat) :
    (s.sampleClass q x c).reg off = (s.showClass q x c).reg off := State.reg_withRgl _ _ off

/-- A class of a slot shows the depth and the longest wait that a queue and a regulator's state hold, and its wait starts again. -/
structure State.ShowsSample (t : State) (q : List Egress) (rgl : RglState) (x c : Nat) : Prop where
  depth : t.rd (R.SH_SAMP_DEPTH x c) = min (q.filter fun e => e.cls == c).length 0xFFF
  delay : t.rd (R.SH_SAMP_MAXDLY x c) = min (rgl.maxWait.get (bktKey x c) / 10) 0xFFFF
  restarted : t.rgl.maxWait.get (bktKey x c) = 0

theorem State.sampleClass_shows (s : State) (q : List Egress) (x c : Nat) : (s.sampleClass q x c).ShowsSample q s.rgl x c where
  depth := by
    rw [State.rd_of_reg (s.sampleClass_reg q x c _), State.showClass,
      State.rd_wr_other _ _ _ _ (by decide : 16 ≤ 31) (by decide : 0 ≤ 11) (.inr (.inr (by decide : 11 < 16))),
      State.rd_wr_same _ _ _ (by decide : 0 ≤ 11) (by decide : 11 < 32)]
    exact Nat.mod_eq_of_lt (show _ < 2 ^ 12 by omega)
  delay := by
    rw [State.rd_of_reg (s.sampleClass_reg q x c _), State.showClass, State.rd_wr_same _ _ _ (by decide : 16 ≤ 31) (by decide : 31 < 32)]
    exact Nat.mod_eq_of_lt (show _ < 2 ^ 16 by omega)
  restarted := by rw [State.sampleClass_rgl, Tab.get_put_same]

theorem State.sampleClass_reg_other (s : State) (q : List Egress) (x : Nat) {c off : Nat} (h : off ≠ R.SH_SAMP x c) :
    (s.sampleClass q x c).reg off = s.reg off :=
  (s.sampleClass_reg q x c off).trans ((State.reg_setReg_other _ _ _ _ h).trans (State.reg_setReg_other _ _ _ _ h))

theorem State.sampleClass_maxWait (s : State) (q : List Egress) (x : Nat) {c d : Nat} (h : d ≠ c) :
    (s.sampleClass q x c).rgl.maxWait.get (bktKey x d) = s.rgl.maxWait.get (bktKey x d) := by
  have hkey : bktKey x d ≠ bktKey x c := by simp only [bktKey]; omega
  rw [State.sampleClass_rgl, Tab.get_put_other _ _ _ _ hkey]

theorem State.foldl_sampleClass_shows (s : State) (q : List Egress) (x : Nat) {c : Nat} (hc : c < 64) :
    ((List.range 64).foldl (State.sampleClass q x) s).ShowsSample q s.rgl x c :=
  foldl_each List.nodup_range (f := State.sampleClass q x)
    (fun c t => t.rgl.maxWait.get (bktKey x c) = s.rgl.maxWait.get (bktKey x c)) (fun c t => t.ShowsSample q s.rgl x c)
    (fun c _ t ht =>
      have hshows := t.sampleClass_shows q x c
      ⟨hshows.depth, ht ▸ hshows.delay, hshows.restarted⟩)
    (fun c _ d _ hd t =>
      have hwait := t.sampleClass_maxWait q x hd
      have hreg := t.sampleClass_reg_other q x (show R.SH_SAMP x d ≠ R.SH_SAMP x c by simp only [R.SH_SAMP]; omega)
      ⟨hwait.trans, fun ht =>
        ⟨(State.rd_of_reg hreg).trans ht.depth, (State.rd_of_reg hreg).trans ht.delay, hwait.trans ht.restarted⟩⟩)
    s (fun _ _ => rfl) c (List.mem_range.mpr hc)

theorem State.foldl_sampleClass_egress (s : State) (q : List Egress) (x : Nat) :
    ((List.range 64).foldl (State.sampleClass q x) s).rgl.egress = s.rgl.egress :=
  List.foldlRecOn _ _ (motive := fun t : State => t.rgl.egress = s.rgl.egress) rfl fun t ht c _ => by
    rw [State.sampleClass_rgl]
    exact ht

@[simp] theorem State.event_rgl (s : State) (code arg : Nat) : (s.event code arg).rgl = s.rgl := rfl

theorem State.ShowsSample.event {t : State} {q : List Egress} {rgl : RglState} {x c : Nat} (h : t.ShowsSample q rgl x c) (code arg : Nat) :
    (t.event code arg).ShowsSample q rgl x c :=
  ⟨h.depth, h.delay, h.restarted⟩

/-- A sample shows the depth and the longest wait of each class of its slot, and starts their waits again (R237). -/
theorem State.sampleSlot_shows (s : State) (x : Nat) {c : Nat} (hc : c < 64) :
    (s.sampleSlot x).ShowsSample (s.rgl.egress.get x) s.rgl x c := by
  rw [State.sampleSlot_eq]
  exact (s.foldl_sampleClass_shows _ x hc).event 0x09 x

theorem State.sampleSlot_egress (s : State) (x : Nat) : (s.sampleSlot x).rgl.egress = s.rgl.egress := by
  rw [State.sampleSlot_eq, State.event_rgl, State.foldl_sampleClass_egress]

end Sys2Proof.Machine

namespace Sys2Proof

open Sys2Proof.Machine

/-- Settles O52: a boundary is `State.boundary` with the minima it gives (`State.windowStart_eq`); a rebalance is what each region gains
(`State.rebalance_get`, `State.rebalance_sum`); a commit passes, is refused or waits (`State.rglTake_passed`,
`State.rglTake_refused`, `State.rglCommitFrom_unready`); copies and samples are walks over their places (`foldl_each`). -/
theorem regulationAndShaping : Obligations.RegulationAndShaping := by
  intro s p x busy staged check ready total q
  refine ⟨?window, ?applied, ?idle, ?rebalance, ?busy, ?unready, ?commit, ?copy, ?noPick, ?down, ?host, ?peer, ?sample⟩
  case window =>
    intro howed
    refine ⟨s.windowStart, rfl, ?_⟩
    obtain ⟨own, pool, heq⟩ := State.windowStart_eq howed
    obtain ⟨fresh, hrgl⟩ := s.boundary_rgl
    have hregs : s.windowStart.regs = s.boundary.regs := by rw [heq]
    refine ⟨?_, ?_, ?_, ?_, ?_, fun c hc => (s.boundary_shows hc).congr (State.reg_congr hregs _), fun m hm => ?_⟩
    · rw [heq, hrgl]
    · rw [heq]
    · rw [heq, hrgl]
    · rw [heq, hrgl]
    · rw [heq, hrgl]
    · rw [State.effminOf_congr hregs, State.sumMin_congr hregs, State.rd_congr hregs, State.rdCom_congr hregs]
      exact State.windowStart_effmin howed hm
  case applied =>
    intro off v howed hpend _
    refine ⟨s.windowStart, rfl, ?_⟩
    obtain ⟨own, pool, heq⟩ := State.windowStart_eq howed
    rw [heq, State.reg_withRgl]
    exact State.boundary_com hpend
  case idle =>
    intro hzero
    have hneedy : s.needy = [] := List.eq_nil_iff_forall_not_mem.mpr fun r hr => by
      obtain ⟨hr, hw⟩ := s.mem_needy.mp hr
      exact hw (hzero r (by simp at hr; omega))
    exact ⟨_, rfl, State.rebalance_none hneedy⟩
  case rebalance =>
    intro r hr hw
    have hplace : ∀ i, i < 4 → i ∈ [0, 1, 2, 3] := by decide
    obtain ⟨f, l, hneedy⟩ := List.exists_cons_of_ne_nil (List.ne_nil_of_mem (s.mem_needy.mpr ⟨hplace r hr, hw⟩))
    refine ⟨s.rebalance, rfl, ?_, fun i hi hidle => ?_, ?_⟩
    · have hsum := State.rebalance_sum hneedy
      simp only [List.map_cons, List.map_nil, List.sum_cons, List.sum_nil] at hsum
      simp only [total]
      omega
    · rw [State.rebalance_get hneedy (hplace i hi), if_pos hidle]
    · rw [State.rebalance_get hneedy (hplace r hr), if_neg hw]
      exact Nat.le_add_right _ _
  case busy =>
    intro hreach hbusy
    exact ⟨⟨_, rfl, (State.viaPath_reachable hreach _ _).trans (State.rglCommitFrom_busy hbusy)⟩,
      ⟨_, rfl, (State.viaPath_reachable hreach _ _).trans (State.rglCopy_busy hbusy)⟩⟩
  case unready =>
    intro hhold hshut htarget hblaze hidle hready
    refine ⟨_, rfl, ?_⟩
    rw [State.viaPath_commit hhold hshut htarget hblaze, State.rglCommitFrom_unready hidle hready]
    refine ⟨State.flag_set1_same _ _ (by decide : 31 ≤ 31) (by decide : 31 < 32), rfl, _, rfl, fun off hoff => ?_⟩
    exact List.mem_map.mpr ⟨off, List.mem_mergeSort.mpr hoff, rfl⟩
  case commit =>
    intro hreach hidle hready
    refine ⟨_, rfl, ?_⟩
    rw [State.viaPath_reachable hreach, State.rglCommitFrom_ready hidle hready]
    exact ⟨s.rglTake_status p staged, State.rglTake_passed, State.rglTake_refused⟩
  case copy =>
    intro hreach hidle
    refine ⟨_, rfl, ?_⟩
    rw [State.viaPath_reachable hreach, State.rglCopy_idle hidle]
    refine ⟨fun off hoff => ?_, State.rd_clr_same _ _ (by decide : 16 ≤ 23) (by decide : 23 < 32),
      (State.clr_rgl _ _).trans (s.stageLatest_rgl p)⟩
    exact (State.reg_setReg_other _ _ _ _ (pathOff_ne p (stagedRgl_low off hoff).2)).trans (s.stageLatest_reg p hoff)
  case noPick => exact fun hpick => ⟨_, rfl, State.egressSend_none hpick⟩
  case down =>
    intro e h hpick hto hagent hflit
    exact ⟨_, rfl, State.egressSend_down hpick (by simp [State.slotUp, hto, hagent, hflit])⟩
  case host =>
    intro e h hpick hto hagent hflit htr hcredit
    refine ⟨_, rfl, ?_⟩
    obtain ⟨rgl, hqueue, hleft⟩ := s.dequeued_frame x e
    rw [State.egressSend_host hpick hto hagent hflit htr hcredit, hleft]
    exact ⟨hqueue, rfl, rfl⟩
  case peer =>
    intro e hpick hto htr hlost
    refine ⟨_, rfl, ?_⟩
    obtain ⟨rgl, hqueue, hleft⟩ := s.dequeued_frame x e
    rw [State.egressSend_peer hpick hto htr, hleft, State.pushOut_reached (s := { s with rgl := rgl }) hlost]
    exact ⟨hqueue, rfl, Tab.get_upd_same _ _ _⟩
  case sample =>
    refine ⟨_, rfl, fun c hc => ?_⟩
    obtain ⟨hdepth, hdelay, hrestarted⟩ := s.sampleSlot_shows x hc
    exact ⟨hdepth, hdelay, hrestarted, s.sampleSlot_egress x⟩

end Sys2Proof
end
